-- ==== Sys2Proof/Word.lean ====
section
/-! DEFINITION. The words of the machine and the sparse tables its storage is held in. -/

namespace Sys2Proof

/-- A 32-bit register or instruction word. -/
abbrev Word := BitVec 32

/-- A 64-bit value: a register pair, an address, a counter. -/
abbrev DWord := BitVec 64

/-- The smallest addressable unit (R2). -/
abbrev Byte := BitVec 8

/-- A 7-bit register field (R130). -/
abbrev RegNo := BitVec 7

/-- A sparse table: keys strictly rising, and no entry equal to what an unlisted key reads as. -/
abbrev Table (α : Type) := List (Nat × α)

/-- Memory: one byte at an address. -/
abbrev Memory := Table Byte

end Sys2Proof
end

