-- ==== Sys2Proof/Config.lean ====
section
/-! DEFINITION. What the specification leaves open. Each constant is opaque: nothing can be proved about its value, so a claim
holds whatever it is. `free` gives a fresh value for each number of `State.free` (log 4, DESIGN CHOICE). -/

namespace Sys2Proof

/-- A free natural number for each value of the counter `State.free`: the schedule, elapsed time, evictions, the choice of
frames, and every other open choice (log 4 to 7). -/
opaque Config.free : Nat → Nat

/-- A free byte for each value of the counter: contents the rules call unpredictable (log 8, 23, DESIGN CHOICE). -/
opaque Config.freeByte : Nat → Byte

/-- How a save block writes the slate and the FIFOs of an accepted loop in four bytes (R208; log 8, DESIGN CHOICE). -/
opaque Config.loopNames : Nat → Nat → Nat → BitVec 32

/-- The answer of the device's SPDM responder to a request that asks for neither its chain nor a measurement, at a value of the counter, given the
certificate chain of slot 0 and the four measurements (R30, R83; log 15, DESIGN CHOICE). -/
opaque Config.spdmAnswer : Nat → List Byte → List Byte → List (List Byte) → List Byte

/-- The unit secret in a signed configuration image, and the device key pair derived from a unit secret: its public key and its private one (R83; log 15,
DESIGN CHOICE). -/
opaque Config.unitSecret : List Byte → List Byte
opaque Config.deviceKeys : List Byte → List Byte × List Byte

/-- The certificates of slot 0 above the device's own, and the device's own certificate, of its public key (R83; log 15, DESIGN CHOICE). -/
opaque Config.chainTop : List Byte
opaque Config.deviceCert : List Byte → List Byte

/-- The signature of a message under a private key, at a value of the counter (R83; log 15, DESIGN CHOICE). -/
opaque Config.spdmSign : Nat → List Byte → List Byte → List Byte

/-- The Kelnan public root held in the boot ROM of B-die 0 (R82; log 16, DESIGN CHOICE): an XMSS root and seed, 32 bytes each. -/
opaque Config.kelnanRoot : Nat → Byte
opaque Config.kelnanSeed : Nat → Byte

/-- Where a signed image has its parts (R82; log 16, DESIGN CHOICE): the OID that it carries, its signature, and the bytes signed. -/
opaque Config.imageOid : List Byte → Nat
opaque Config.imageSignature : List Byte → List Byte
opaque Config.imageMessage : List Byte → List Byte

/-- The version that a signed image declares (R82; log 16, DESIGN CHOICE). -/
opaque Config.imageVersion : List Byte → Nat

/-- A field of a signed configuration image (R10, R81; log 9, DESIGN CHOICE): 0 device number, 1 MKOFF / 4096, 2 pages of the exported part, 3 scan
enable, 4 and above the physical core of each logical one. -/
opaque Config.imageField : List Byte → Nat → Nat

/-- A telemetry reading (R84, R19): the sensor's number and the counter (log 17, DESIGN CHOICE). -/
opaque Config.sensor : Nat → Nat → Word

/-- How long a store may stand before it is performed, in timebase periods: R173 promises a bound and gives no number (log 59, DEDUCED). -/
opaque Config.storeBound : Nat

/-- Where the search for a free run of pages begins, for a unit of a record's mapping (R90; log 7, DESIGN CHOICE). -/
opaque Config.frameStart : Nat → Nat → Nat

/-- The vendor ID that PCI-SIG assigned to Kelnan, the Next Capability Offset of a port's function, and the MSI-X entry of the mailbox's
interrupt (R27; log 14, DESIGN CHOICE). -/
opaque Config.vendorId : BitVec 16
opaque Config.nextCapability : Nat → BitVec 12
opaque Config.mailboxVector : BitVec 11

/-- Which of several outstanding registers a HAZARD trap names (R138; log 24, DESIGN CHOICE). -/
opaque Config.hazardPick : List Nat → Nat

end Sys2Proof
end

