-- ==== Sys2Proof/Syntax.lean ====
section
/-! DEFINITION. The abstract form of every step of the opcode table: one constructor per row.

The 214 rows with bits are the instruction words of R249 to R256; `m` is the switch marker S (R137), and the other
arguments are the fields of the row. The 69 rows without bits are the events of the module (R249 gives them no word):
their arguments say which agent acts, or what an outside party does. -/

namespace Sys2Proof

/-- One step of the machine: an instruction word, or an event of the table. -/
inductive Instr where
  /-- ADD, R260. -/
  | add (m : Bool) (d a b : RegNo)
  /-- SUB, R260. -/
  | sub (m : Bool) (d a b : RegNo)
  /-- MUL, R260. -/
  | mul (m : Bool) (d a b : RegNo)
  /-- MULH, R260. -/
  | mulh (m : Bool) (d a b : RegNo)
  /-- MULHN, R260. -/
  | mulhn (m : Bool) (d a b : RegNo)
  /-- MAD, R260. -/
  | mad (m : Bool) (d a b : RegNo)
  /-- MIN, R260. -/
  | min (m : Bool) (d a b : RegNo)
  /-- MAX, R260. -/
  | max (m : Bool) (d a b : RegNo)
  /-- MINN, R260. -/
  | minn (m : Bool) (d a b : RegNo)
  /-- MAXN, R260. -/
  | maxn (m : Bool) (d a b : RegNo)
  /-- ADIF, R260. -/
  | adif (m : Bool) (d a b : RegNo)
  /-- ADDS, R260. -/
  | adds (m : Bool) (d a b : RegNo)
  /-- SUBS, R260. -/
  | subs (m : Bool) (d a b : RegNo)
  /-- AND, R261. -/
  | and (m : Bool) (d a b : RegNo)
  /-- OR, R261. -/
  | or (m : Bool) (d a b : RegNo)
  /-- XOR, R261. -/
  | xor (m : Bool) (d a b : RegNo)
  /-- ANDN, R261. -/
  | andn (m : Bool) (d a b : RegNo)
  /-- SHL, R261. -/
  | shl (m : Bool) (d a b : RegNo)
  /-- SHR, R261. -/
  | shr (m : Bool) (d a b : RegNo)
  /-- SHRA, R261. -/
  | shra (m : Bool) (d a b : RegNo)
  /-- ROTL, R261. -/
  | rotl (m : Bool) (d a b : RegNo)
  /-- SEL, R261. -/
  | sel (m : Bool) (d a b : RegNo)
  /-- POPC, R261. -/
  | popc (m : Bool) (d a : RegNo)
  /-- CLZ, R261. -/
  | clz (m : Bool) (d a : RegNo)
  /-- CTZ, R261. -/
  | ctz (m : Bool) (d a : RegNo)
  /-- BREV, R261. -/
  | brev (m : Bool) (d a : RegNo)
  /-- SEQ, R262. -/
  | seq (m : Bool) (d a b : RegNo)
  /-- SNE, R262. -/
  | sne (m : Bool) (d a b : RegNo)
  /-- SLT, R262. -/
  | slt (m : Bool) (d a b : RegNo)
  /-- SLE, R262. -/
  | sle (m : Bool) (d a b : RegNo)
  /-- SLTN, R262. -/
  | sltn (m : Bool) (d a b : RegNo)
  /-- SLEN, R262. -/
  | slen (m : Bool) (d a b : RegNo)
  /-- ADD64, R263. -/
  | add64 (m : Bool) (d a b : RegNo)
  /-- SUB64, R263. -/
  | sub64 (m : Bool) (d a b : RegNo)
  /-- MUL64, R263. -/
  | mul64 (m : Bool) (d a b : RegNo)
  /-- ADDX, R263. -/
  | addx (m : Bool) (d a b : RegNo)
  /-- ADDXN, R263. -/
  | addxn (m : Bool) (d a b : RegNo)
  /-- SHL64, R263. -/
  | shl64 (m : Bool) (d a b : RegNo)
  /-- SHR64, R263. -/
  | shr64 (m : Bool) (d a b : RegNo)
  /-- SHRA64, R263. -/
  | shra64 (m : Bool) (d a b : RegNo)
  /-- DIV, R264. -/
  | div (m : Bool) (d a b : RegNo)
  /-- DIVN, R264. -/
  | divn (m : Bool) (d a b : RegNo)
  /-- REM, R264. -/
  | rem (m : Bool) (d a b : RegNo)
  /-- REMN, R264. -/
  | remn (m : Bool) (d a b : RegNo)
  /-- SEQ64, R263. -/
  | seq64 (m : Bool) (d a b : RegNo)
  /-- SLT64, R263. -/
  | slt64 (m : Bool) (d a b : RegNo)
  /-- SLTN64, R263. -/
  | sltn64 (m : Bool) (d a b : RegNo)
  /-- ADDI, R265. -/
  | addi (m : Bool) (d a : RegNo) (i : BitVec 11)
  /-- ANDI, R265. -/
  | andi (m : Bool) (d a : RegNo) (i : BitVec 11)
  /-- ORI, R265. -/
  | ori (m : Bool) (d a : RegNo) (i : BitVec 11)
  /-- XORI, R265. -/
  | xori (m : Bool) (d a : RegNo) (i : BitVec 11)
  /-- SLTI, R265. -/
  | slti (m : Bool) (d a : RegNo) (i : BitVec 11)
  /-- SLTNI, R265. -/
  | sltni (m : Bool) (d a : RegNo) (i : BitVec 11)
  /-- MULI, R265. -/
  | muli (m : Bool) (d a : RegNo) (i : BitVec 11)
  /-- SHLI, R266. -/
  | shli (m : Bool) (d a : RegNo) (n : BitVec 5)
  /-- SHRI, R266. -/
  | shri (m : Bool) (d a : RegNo) (n : BitVec 5)
  /-- SHRAI, R266. -/
  | shrai (m : Bool) (d a : RegNo) (n : BitVec 5)
  /-- ROTLI, R266. -/
  | rotli (m : Bool) (d a : RegNo) (n : BitVec 5)
  /-- BFX, R267. -/
  | bfx (m : Bool) (d a : RegNo) (e : Bool) (l p : BitVec 5)
  /-- BFI, R267. -/
  | bfi (m : Bool) (d a : RegNo) (l p : BitVec 5)
  /-- ADDXI, R268. -/
  | addxi (m : Bool) (d a : RegNo) (i : BitVec 11)
  /-- LUI, R268. -/
  | lui (m : Bool) (d : RegNo) (i : BitVec 18)
  /-- LAPC, R268. -/
  | lapc (m : Bool) (d : RegNo) (i : BitVec 18)
  /-- FADD, R285. -/
  | fadd (m : Bool) (d a b : RegNo)
  /-- FSUB, R285. -/
  | fsub (m : Bool) (d a b : RegNo)
  /-- FMUL, R285. -/
  | fmul (m : Bool) (d a b : RegNo)
  /-- FMA, R285. -/
  | fma (m : Bool) (d a b : RegNo)
  /-- FMIN, R285. -/
  | fmin (m : Bool) (d a b : RegNo)
  /-- FMAX, R285. -/
  | fmax (m : Bool) (d a b : RegNo)
  /-- FABS, R285. -/
  | fabs (m : Bool) (d a : RegNo)
  /-- FNEG, R285. -/
  | fneg (m : Bool) (d a : RegNo)
  /-- FSGN, R285. -/
  | fsgn (m : Bool) (d a b : RegNo)
  /-- FEQ, R285. -/
  | feq (m : Bool) (d a b : RegNo)
  /-- FLT, R285. -/
  | flt (m : Bool) (d a b : RegNo)
  /-- FLE, R285. -/
  | fle (m : Bool) (d a b : RegNo)
  /-- FCLASS, R286. -/
  | fclass (m : Bool) (d a : RegNo)
  /-- FNMA, R285. -/
  | fnma (m : Bool) (d a b : RegNo)
  /-- FTOI, R185. -/
  | ftoi (m : Bool) (d a : RegNo) (c : BitVec 3)
  /-- FTON, R185. -/
  | fton (m : Bool) (d a : RegNo) (c : BitVec 3)
  /-- ITOF, R184. -/
  | itof (m : Bool) (d a : RegNo) (c : BitVec 3)
  /-- NTOF, R184. -/
  | ntof (m : Bool) (d a : RegNo) (c : BitVec 3)
  /-- F2BF, R184. -/
  | f2bf (m : Bool) (d a : RegNo) (c : BitVec 3)
  /-- BF2F, R186. -/
  | bf2f (m : Bool) (d a : RegNo)
  /-- F2H, R184. -/
  | f2h (m : Bool) (d a : RegNo) (c : BitVec 3)
  /-- H2F, R186. -/
  | h2f (m : Bool) (d a : RegNo)
  /-- F2E4, R184. -/
  | f2e4 (m : Bool) (d a : RegNo) (c : BitVec 3)
  /-- E42F, R186. -/
  | e42f (m : Bool) (d a : RegNo)
  /-- F2E5, R184. -/
  | f2e5 (m : Bool) (d a : RegNo) (c : BitVec 3)
  /-- E52F, R186. -/
  | e52f (m : Bool) (d a : RegNo)
  /-- FRCP, R288. -/
  | frcp (m : Bool) (d a : RegNo)
  /-- FRSQ, R288. -/
  | frsq (m : Bool) (d a : RegNo)
  /-- FSQRT, R288. -/
  | fsqrt (m : Bool) (d a : RegNo)
  /-- FEXP2, R288. -/
  | fexp2 (m : Bool) (d a : RegNo)
  /-- FLOG2, R288. -/
  | flog2 (m : Bool) (d a : RegNo)
  /-- BADD2, R289. -/
  | badd2 (m : Bool) (d a b : RegNo)
  /-- BMUL2, R289. -/
  | bmul2 (m : Bool) (d a b : RegNo)
  /-- BFMA2, R289. -/
  | bfma2 (m : Bool) (d a b : RegNo)
  /-- BMAX2, R289. -/
  | bmax2 (m : Bool) (d a b : RegNo)
  /-- DXQ, R290. -/
  | dxq (m : Bool) (d a : RegNo) (f : BitVec 2)
  /-- DXD, R290. -/
  | dxd (m : Bool) (d a : RegNo) (f : BitVec 2)
  /-- BALLOT, R292. -/
  | ballot (m : Bool) (d a : RegNo)
  /-- VANY, R292. -/
  | vany (m : Bool) (d a : RegNo)
  /-- VALL, R292. -/
  | vall (m : Bool) (d a : RegNo)
  /-- SHFL, R293. -/
  | shfl (m : Bool) (d a b : RegNo)
  /-- SHFLX, R293. -/
  | shflx (m : Bool) (d a b : RegNo)
  /-- SHFLUP, R293. -/
  | shflup (m : Bool) (d a b : RegNo)
  /-- SHFLDN, R293. -/
  | shfldn (m : Bool) (d a b : RegNo)
  /-- REDADD, R294. -/
  | redadd (m : Bool) (d a : RegNo)
  /-- REDMIN, R294. -/
  | redmin (m : Bool) (d a : RegNo)
  /-- REDMAX, R294. -/
  | redmax (m : Bool) (d a : RegNo)
  /-- REDFADD, R295. -/
  | redfadd (m : Bool) (d a : RegNo)
  /-- SCANADD, R294. -/
  | scanadd (m : Bool) (d a : RegNo)
  /-- SCANADDX, R294. -/
  | scanaddx (m : Bool) (d a : RegNo)
  /-- MOVIX, R296. -/
  | movix (m : Bool) (d a : RegNo)
  /-- MOVIXW, R296. -/
  | movixw (m : Bool) (d a : RegNo)
  /-- LMASK, R292. -/
  | lmask (m : Bool) (d : RegNo)
  /-- BEQ, R269. -/
  | beq (m : Bool) (a b : RegNo) (o : BitVec 11)
  /-- BNE, R269. -/
  | bne (m : Bool) (a b : RegNo) (o : BitVec 11)
  /-- BLT, R269. -/
  | blt (m : Bool) (a b : RegNo) (o : BitVec 11)
  /-- BGE, R269. -/
  | bge (m : Bool) (a b : RegNo) (o : BitVec 11)
  /-- BLTN, R269. -/
  | bltn (m : Bool) (a b : RegNo) (o : BitVec 11)
  /-- BGEN, R269. -/
  | bgen (m : Bool) (a b : RegNo) (o : BitVec 11)
  /-- BR, R271. -/
  | br (m : Bool) (o : BitVec 25)
  /-- JAL, R271. -/
  | jal (m : Bool) (o : BitVec 25)
  /-- JR, R272. -/
  | jr (m : Bool) (a : RegNo)
  /-- JALR, R272. -/
  | jalr (m : Bool) (d a : RegNo)
  /-- NOP, R274. -/
  | nop (m : Bool)
  /-- EXIT, R275. -/
  | exit (m : Bool)
  /-- YIELD, R274. -/
  | yield (m : Bool)
  /-- TRAP, R276. -/
  | trapI (m : Bool) (c : BitVec 7)
  /-- BRK, R276. -/
  | brk (m : Bool)
  /-- ERET, R143. -/
  | eret (m : Bool)
  /-- WBASE, R277. -/
  | wbase (m : Bool) (a : RegNo)
  /-- CHK, R278. -/
  | chk (m : Bool) (a b : RegNo)
  /-- SPAWN, R279. -/
  | spawn (m : Bool) (d a : RegNo) (c : BitVec 7)
  /-- JENROL, R280. -/
  | jenrol (m : Bool) (j : BitVec 3)
  /-- JWAIT, R129. -/
  | jwait (m : Bool) (j : BitVec 3)
  /-- JSTRIKE, R280. -/
  | jstrike (m : Bool) (j : BitVec 3)
  /-- TICKWAIT, R281. -/
  | tickwait (m : Bool)
  /-- RDCW, R282. -/
  | rdcw (m : Bool) (d : RegNo) (i : BitVec 11)
  /-- WRCW, R283. -/
  | wrcw (m : Bool) (a : RegNo) (i : BitVec 11)
  /-- LDG, R298. -/
  | ldg (m : Bool) (d a : RegNo) (w : BitVec 3) (h : BitVec 2) (o : BitVec 6)
  /-- STG, R298. -/
  | stg (m : Bool) (d a : RegNo) (w : BitVec 3) (h : BitVec 2) (o : BitVec 6)
  /-- LDS, R301. -/
  | lds (m : Bool) (d a : RegNo) (w : BitVec 3) (h : BitVec 2) (o : BitVec 6)
  /-- STS, R301. -/
  | sts (m : Bool) (d a : RegNo) (w : BitVec 3) (h : BitVec 2) (o : BitVec 6)
  /-- LDP, R302. -/
  | ldp (m : Bool) (d a : RegNo) (w : BitVec 3) (h : BitVec 2) (o : BitVec 6)
  /-- STP, R302. -/
  | stp (m : Bool) (d a : RegNo) (w : BitVec 3) (h : BitVec 2) (o : BitVec 6)
  /-- PF, R304. -/
  | pf (m : Bool) (a : RegNo)
  /-- CWB, R304. -/
  | cwb (m : Bool) (a : RegNo)
  /-- CINV, R304. -/
  | cinv (m : Bool) (a : RegNo)
  /-- CFLUSH, R304. -/
  | cflush (m : Bool) (a : RegNo)
  /-- AADD, R306. -/
  | aadd (m : Bool) (d a b : BitVec 6) (c : BitVec 3)
  /-- AAND, R306. -/
  | aand (m : Bool) (d a b : BitVec 6) (c : BitVec 3)
  /-- AOR, R306. -/
  | aor (m : Bool) (d a b : BitVec 6) (c : BitVec 3)
  /-- AXOR, R306. -/
  | axor (m : Bool) (d a b : BitVec 6) (c : BitVec 3)
  /-- AMIN, R306. -/
  | amin (m : Bool) (d a b : BitVec 6) (c : BitVec 3)
  /-- AMAX, R306. -/
  | amax (m : Bool) (d a b : BitVec 6) (c : BitVec 3)
  /-- AMINN, R306. -/
  | aminn (m : Bool) (d a b : BitVec 6) (c : BitVec 3)
  /-- AMAXN, R306. -/
  | amaxn (m : Bool) (d a b : BitVec 6) (c : BitVec 3)
  /-- ASWAP, R306. -/
  | aswap (m : Bool) (d a b : BitVec 6) (c : BitVec 3)
  /-- ACAS, R306. -/
  | acas (m : Bool) (d a b : BitVec 6) (c : BitVec 3)
  /-- ACASGT, R306. -/
  | acasgt (m : Bool) (d a b : BitVec 6) (c : BitVec 3)
  /-- ACASGTN, R306. -/
  | acasgtn (m : Bool) (d a b : BitVec 6) (c : BitVec 3)
  /-- AADD.D, R306. -/
  | aaddD (m : Bool) (d a b : BitVec 6) (c : BitVec 3)
  /-- AAND.D, R306. -/
  | aandD (m : Bool) (d a b : BitVec 6) (c : BitVec 3)
  /-- AOR.D, R306. -/
  | aorD (m : Bool) (d a b : BitVec 6) (c : BitVec 3)
  /-- AXOR.D, R306. -/
  | axorD (m : Bool) (d a b : BitVec 6) (c : BitVec 3)
  /-- AMIN.D, R306. -/
  | aminD (m : Bool) (d a b : BitVec 6) (c : BitVec 3)
  /-- AMAX.D, R306. -/
  | amaxD (m : Bool) (d a b : BitVec 6) (c : BitVec 3)
  /-- AMINN.D, R306. -/
  | aminnD (m : Bool) (d a b : BitVec 6) (c : BitVec 3)
  /-- AMAXN.D, R306. -/
  | amaxnD (m : Bool) (d a b : BitVec 6) (c : BitVec 3)
  /-- ASWAP.D, R306. -/
  | aswapD (m : Bool) (d a b : BitVec 6) (c : BitVec 3)
  /-- ACAS.D, R306. -/
  | acasD (m : Bool) (d a b : BitVec 6) (c : BitVec 3)
  /-- ACASGT.D, R306. -/
  | acasgtD (m : Bool) (d a b : BitVec 6) (c : BitVec 3)
  /-- ACASGTN.D, R306. -/
  | acasgtnD (m : Bool) (d a b : BitVec 6) (c : BitVec 3)
  /-- ACASVER, R306. -/
  | acasver (m : Bool) (d a b : BitVec 6) (c : BitVec 3)
  /-- ACASTAG, R306. -/
  | acastag (m : Bool) (d a b : BitVec 6) (c : BitVec 3)
  /-- ATBEG, R212. -/
  | atbeg (m : Bool) (d : RegNo) (o : BitVec 11)
  /-- ATEND, R220. -/
  | atend (m : Bool)
  /-- ATABORT, R221. -/
  | atabort (m : Bool) (c : BitVec 7)
  /-- ATSTAT, R222. -/
  | atstat (m : Bool) (d : RegNo)
  /-- FENCE.REL, R168. -/
  | fenceRel (m : Bool) (c : BitVec 3)
  /-- FENCE.ACQ, R168. -/
  | fenceAcq (m : Bool) (c : BitVec 3)
  /-- FENCE.AR, R168. -/
  | fenceAr (m : Bool) (c : BitVec 3)
  /-- PHASE, R314. -/
  | phase (m : Bool) (c : BitVec 3) (a : RegNo)
  /-- BARARV, R313. -/
  | bararv (m : Bool) (d a : RegNo) (c : BitVec 1)
  /-- BARWAIT, R314. -/
  | barwait (m : Bool) (d a : RegNo) (c : BitVec 1)
  /-- BARSYNC, R314. -/
  | barsync (m : Bool) (d a : RegNo) (c : BitVec 1)
  /-- BARINIT, R312. -/
  | barinit (m : Bool) (d a : RegNo) (c : BitVec 1)
  /-- WAITEQ, R316. -/
  | waiteq (m : Bool) (d a b : RegNo)
  /-- WAITNE, R316. -/
  | waitne (m : Bool) (d a b : RegNo)
  /-- WAITGE, R316. -/
  | waitge (m : Bool) (d a b : RegNo)
  /-- TLWAIT, R317. -/
  | tlwait (m : Bool) (a : RegNo) (n : BitVec 3)
  /-- TLREAD, R317. -/
  | tlread (m : Bool) (d : RegNo) (n : BitVec 3)
  /-- QPUSH, R320. -/
  | qpush (m : Bool) (a : RegNo) (n : BitVec 4)
  /-- QPOP, R320. -/
  | qpop (m : Bool) (d : RegNo) (n : BitVec 4)
  /-- QTAKE, R321. -/
  | qtake (m : Bool) (d a : RegNo)
  /-- COPY, R339. -/
  | copy (m : Bool) (d a : RegNo)
  /-- COPYG, R339. -/
  | copyg (m : Bool) (d a : RegNo)
  /-- PREFA, R339. -/
  | prefa (m : Bool) (d a : RegNo)
  /-- FETCHW, R342. -/
  | fetchw (m : Bool) (a b : RegNo)
  /-- PUT, R344. -/
  | put (m : Bool) (d a : RegNo)
  /-- PUTS, R344. -/
  | puts (m : Bool) (d a : RegNo)
  /-- GET, R344. -/
  | get (m : Bool) (d a : RegNo)
  /-- WINCNT, R346. -/
  | wincnt (m : Bool) (d a : RegNo) (g : Bool) (x : BitVec 2)
  /-- MLOOP, R197. -/
  | mloop (m : Bool) (n : BitVec 3) (x y : BitVec 2) (a b : RegNo)
  /-- SLCLR, R206. -/
  | slclr (m : Bool) (n : BitVec 3)
  /-- SLRD, R205. -/
  | slrd (m : Bool) (d a : RegNo) (c : BitVec 2) (n : BitVec 3)
  /-- SLWR, R206. -/
  | slwr (m : Bool) (d a : RegNo) (n : BitVec 3)
  /-- SLSTAT, R203. -/
  | slstat (m : Bool) (d a : RegNo) (n : BitVec 3)
  /-- SLEVT, R202. -/
  | slevt (m : Bool) (d : RegNo)
  /-- FIFOCLR, R206. -/
  | fifoclr (m : Bool) (f : BitVec 2)
  /-- RAND, R352. -/
  | rand (m : Bool) (d a b : RegNo)
  /-- RANDF, R352. -/
  | randf (m : Bool) (d a b : RegNo)
  /-- SNAPSHOT_QUIESCE, R77. -/
  | snapshotQuiesce (rid : Nat)
  /-- CLASS_PLACE, R107. -/
  | classPlace (die : Nat)
  /-- STEAL, R108. -/
  | steal (die : Nat)
  /-- CLASS_END, R109. -/
  | classEnd (ck : Nat)
  /-- PREEMPT, R119. -/
  | preempt (ck : Nat)
  /-- RESIDENT_KILL, R144. -/
  | residentKill (rid : Nat)
  /-- FIFO_FEED_FAULT, R210. -/
  | fifoFeedFault (req : Nat)
  /-- FETCHW_ANSWER, R113. -/
  | fetchwAnswer (die : Nat)
  /-- TICK_BOUNDARY, R117. -/
  | tickBoundary (ctx : Nat)
  /-- BIN_TIMER_EXPIRE, R111. -/
  | binTimerExpire (bin : Nat)
  /-- BIN_LAUNCH, R111. -/
  | binLaunch (bin : Nat)
  /-- ISSUE_SELECT, R125. -/
  | issueSelect (core : Nat) (section_ : Nat)
  /-- THREAD_STARVED, R125. -/
  | threadStarved (tk : Nat)
  /-- LANE_WAKE, R124. -/
  | laneWake (tk : Nat)
  /-- PAGE_WALK, R92. -/
  | pageWalk (die : Nat) (ctx : Nat) (va : Nat) (kind : Nat)
  /-- TRANSLATION_FAULT_RESOLVE, R93. -/
  | translationFaultResolve (tk : Nat)
  /-- PHASE_SWEEP, R156. -/
  | phaseSweep (unit : Nat)
  /-- MONITOR_FIRE, R316. -/
  | monitorFire (tk : Nat)
  /-- SIGNAL_DELIVERY, R145. -/
  | signalDelivery (tk : Nat)
  /-- COPY_REQUEST_START, R340. -/
  | copyRequestStart (req : Nat)
  /-- COPY_COMPLETE, R341. -/
  | copyComplete (req : Nat)
  /-- MATRIX_STEP, R201. -/
  | matrixStep (core : Nat) (ticket : Nat)
  /-- TICKETED_SLATE_ACT, R198. -/
  | ticketedSlateAct (core : Nat) (ticket : Nat)
  /-- ILLEGAL_WORD, R257. -/
  | illegalWord (w : Word)
  /-- DEFERRED_RESULT_WRITE, R136. -/
  | deferredResultWrite (tk : Nat) (n : Nat)
  /-- FABRIC_OP_SEND, R344. -/
  | fabricOpSend (op : Nat)
  /-- FABRIC_OP_SETTLE, R345. -/
  | fabricOpSettle (op : Nat) (refused : Bool) (data : List Byte)
  /-- PBEN_SET, R28. -/
  | pbenSet
  /-- PBEN_CLEAR, R28. -/
  | pbenClear
  /-- DOE_ABORT, R27. -/
  | doeAbort
  /-- DOE_DISCOVERY, R30. -/
  | doeDiscovery
  /-- SPDM_DOE_REQUEST, R30. -/
  | spdmDoeRequest
  /-- TELEMETRY_READ, R19. -/
  | telemetryRead
  /-- I3C_RESET, R20. -/
  | i3cReset
  /-- POWER_ON, R20. -/
  | powerOn
  /-- PERST, R20. -/
  | perst
  /-- CXL_RESET, R20. -/
  | cxlReset
  /-- FUNCTION_LEVEL_RESET, R20. -/
  | functionLevelReset
  /-- PORT1_RESET, R20. -/
  | port1Reset
  /-- HOLD_END, R20. -/
  | holdEnd
  /-- POWER_FAULT, R15. -/
  | powerFault
  /-- THERMAL_TRIP, R17. -/
  | thermalTrip
  /-- CLOCK_THROTTLE, R14. -/
  | clockThrottle
  /-- CLOCK_RESTORE, R14. -/
  | clockRestore
  /-- FREEZE, R18. -/
  | freeze
  /-- FREEZE_RELEASE, R18. -/
  | freezeRelease
  /-- SCAN_SHIFT, R19. -/
  | scanShift
  /-- BACKSTOP_SWEEP, R61. -/
  | backstopSweep
  /-- PASS, R63. -/
  | passStep
  /-- DEVICE_NUMBER_CONFLICT, R33. -/
  | deviceNumberConflict
  /-- DVSEC_REGISTER_WRITE, R27. -/
  | dvsecRegisterWrite (port : Nat) (off : Nat) (v : Word)
  /-- MBWR_WRITE, R27. -/
  | mbwrWrite (v : Word)
  /-- MBRD_WRITE, R27. -/
  | mbrdWrite (v : Word)
  /-- SPDM_MCTP_REQUEST, R30. -/
  | spdmMctpRequest (msg : List Byte)
  /-- LINK_DOWN, R24. -/
  | linkDown (port : Nat)
  /-- LINK_RETRAIN, R370. -/
  | linkRetrain (port : Nat)
  /-- BISNP_TIMEOUT, R26. -/
  | bisnpTimeout (rid : Nat) (port : Nat)
  /-- PLAYBILL_WRITE_SNOOP, R59. -/
  | playbillWriteSnoop (off : Nat) (bs : List Byte)
  /-- QUEUE_TAIL_WRITE, R60. -/
  | queueTailWrite (q : Nat)
  /-- HOST_MEM_READ, R25. -/
  | hostMemRead (off : Nat) (n : Nat)
  /-- HOST_MEM_WRITE, R25. -/
  | hostMemWrite (off : Nat) (bs : List Byte)
  /-- HOST_SNOOP, R160. -/
  | hostSnoop (addr : Nat) (bs : List Byte)
  /-- FABRIC_OP_ARRIVAL, R34. -/
  | fabricOpArrival (win kind : Nat) (rows : List (Nat × List Byte)) (sigOp sigOff sigVal : Nat)
  /-- FABRIC_PATH_TIMEOUT, R34. -/
  | fabricPathTimeout (op : Nat)
  /-- GRATRIC_PORT_FAIL, R32. -/
  | gratricPortFail (port : Nat)
  /-- FLIT_RESEND, R32. -/
  | flitResend (port : Nat)
  /-- UNCORRECTABLE_ERROR, R165: the site, what is met there, and the address of the data where a thread would consume it. -/
  | uncorrectableError (site : Nat) (at_ : Nat) (addr : Nat)
  /-- CORRECTED_ERROR, R165. -/
  | correctedError (unit : Nat)
  /-- GRATRIC_PORT_TRAIN, R33. -/
  | gratricPortTrain (port : Nat)
  deriving DecidableEq, Repr

end Sys2Proof
end

