-- ==== Sys2Proof/WellFormed.lean ====
section
/-! DEFINITION. The checks an instruction's fields must meet (R251 to R256). A term that fails one is the fate of a
word that traps ILLEGAL (R257). -/

namespace Sys2Proof

/-- A pair field holds an even N with N + 1 at most 111 (R251, R130). -/
def isPair (r : RegNo) : Bool := r.toNat % 2 == 0 && r.toNat ≤ 110

/-- A quad field holds a multiple of 4 with N + 3 at most 111 (R251). -/
def isQuad (r : RegNo) : Bool := r.toNat % 4 == 0 && r.toNat ≤ 108

/-- A pair index of the A format, 0 to 55 (R251). -/
def pairIx (p : BitVec 6) : Bool := p.toNat ≤ 55

/-- The pairs p and p + 1 of a 64-bit compare and swap: p even, at most 54 (R253). -/
def twoPairs (p : BitVec 6) : Bool := p.toNat % 2 == 0 && p.toNat ≤ 54

/-- An atomic's scope is core or wider (R253). -/
def scopeFromCore (c : BitVec 3) : Bool := 2 ≤ c.toNat

/-- The widths a load accepts (R252). -/
def loadWidth (w : BitVec 3) : Bool := w != 7

/-- The widths a store accepts (R252). -/
def storeWidth (w : BitVec 3) : Bool := w == 0 || w == 2 || w == 4 || w == 5 || w == 6

/-- The data register of an M-format access: a pair for W = 101, a quad for W = 110 (R252). -/
def dataReg (w : BitVec 3) (d : RegNo) : Bool :=
  if w == 5 then isPair d else if w == 6 then isQuad d else true

/-- Position + length of a bit field is at most 32 (R256); the field holds length - 1. -/
def fieldFits (l p : BitVec 5) : Bool := p.toNat + l.toNat + 1 ≤ 32

/-- A status register of ATBEG is not a k or c register (R212, R256). -/
def notUniform (d : RegNo) : Bool := d.toNat ≤ 111

/-- The fields of an instruction meet R251 to R256; an event has no word to check. -/
def Instr.wellFormed : Instr → Bool
  | .add _ _ _ _ => true
  | .sub _ _ _ _ => true
  | .mul _ _ _ _ => true
  | .mulh _ _ _ _ => true
  | .mulhn _ _ _ _ => true
  | .mad _ _ _ _ => true
  | .min _ _ _ _ => true
  | .max _ _ _ _ => true
  | .minn _ _ _ _ => true
  | .maxn _ _ _ _ => true
  | .adif _ _ _ _ => true
  | .adds _ _ _ _ => true
  | .subs _ _ _ _ => true
  | .and _ _ _ _ => true
  | .or _ _ _ _ => true
  | .xor _ _ _ _ => true
  | .andn _ _ _ _ => true
  | .shl _ _ _ _ => true
  | .shr _ _ _ _ => true
  | .shra _ _ _ _ => true
  | .rotl _ _ _ _ => true
  | .sel _ _ _ _ => true
  | .popc _ _ _ => true
  | .clz _ _ _ => true
  | .ctz _ _ _ => true
  | .brev _ _ _ => true
  | .seq _ _ _ _ => true
  | .sne _ _ _ _ => true
  | .slt _ _ _ _ => true
  | .sle _ _ _ _ => true
  | .sltn _ _ _ _ => true
  | .slen _ _ _ _ => true
  | .add64 _ d a b => isPair d && isPair a && isPair b
  | .sub64 _ d a b => isPair d && isPair a && isPair b
  | .mul64 _ d a b => isPair d && isPair a && isPair b
  | .addx _ d a _ => isPair d && isPair a
  | .addxn _ d a _ => isPair d && isPair a
  | .shl64 _ d a _ => isPair d && isPair a
  | .shr64 _ d a _ => isPair d && isPair a
  | .shra64 _ d a _ => isPair d && isPair a
  | .div _ d a b => isPair d && isPair a && isPair b
  | .divn _ d a b => isPair d && isPair a && isPair b
  | .rem _ d a b => isPair d && isPair a && isPair b
  | .remn _ d a b => isPair d && isPair a && isPair b
  | .seq64 _ _ a b => isPair a && isPair b
  | .slt64 _ _ a b => isPair a && isPair b
  | .sltn64 _ _ a b => isPair a && isPair b
  | .addi _ _ _ _ => true
  | .andi _ _ _ _ => true
  | .ori _ _ _ _ => true
  | .xori _ _ _ _ => true
  | .slti _ _ _ _ => true
  | .sltni _ _ _ _ => true
  | .muli _ _ _ _ => true
  | .shli _ _ _ _ => true
  | .shri _ _ _ _ => true
  | .shrai _ _ _ _ => true
  | .rotli _ _ _ _ => true
  | .bfx _ _ _ _ l p => fieldFits l p
  | .bfi _ _ _ l p => fieldFits l p
  | .addxi _ d a _ => isPair d && isPair a
  | .lui _ _ _ => true
  | .lapc _ d _ => isPair d
  | .fadd _ _ _ _ => true
  | .fsub _ _ _ _ => true
  | .fmul _ _ _ _ => true
  | .fma _ _ _ _ => true
  | .fmin _ _ _ _ => true
  | .fmax _ _ _ _ => true
  | .fabs _ _ _ => true
  | .fneg _ _ _ => true
  | .fsgn _ _ _ _ => true
  | .feq _ _ _ _ => true
  | .flt _ _ _ _ => true
  | .fle _ _ _ _ => true
  | .fclass _ _ _ => true
  | .fnma _ _ _ _ => true
  | .ftoi _ _ _ _ => true
  | .fton _ _ _ _ => true
  | .itof _ _ _ _ => true
  | .ntof _ _ _ _ => true
  | .f2bf _ _ _ _ => true
  | .bf2f _ _ _ => true
  | .f2h _ _ _ _ => true
  | .h2f _ _ _ => true
  | .f2e4 _ _ _ _ => true
  | .e42f _ _ _ => true
  | .f2e5 _ _ _ _ => true
  | .e52f _ _ _ => true
  | .frcp _ _ _ => true
  | .frsq _ _ _ => true
  | .fsqrt _ _ _ => true
  | .fexp2 _ _ _ => true
  | .flog2 _ _ _ => true
  | .badd2 _ _ _ _ => true
  | .bmul2 _ _ _ _ => true
  | .bfma2 _ _ _ _ => true
  | .bmax2 _ _ _ _ => true
  | .dxq _ _ _ f => f != 3
  | .dxd _ _ _ f => f != 3
  | .ballot _ _ _ => true
  | .vany _ _ _ => true
  | .vall _ _ _ => true
  | .shfl _ _ _ _ => true
  | .shflx _ _ _ _ => true
  | .shflup _ _ _ _ => true
  | .shfldn _ _ _ _ => true
  | .redadd _ _ _ => true
  | .redmin _ _ _ => true
  | .redmax _ _ _ => true
  | .redfadd _ _ _ => true
  | .scanadd _ _ _ => true
  | .scanaddx _ _ _ => true
  | .movix _ _ _ => true
  | .movixw _ _ _ => true
  | .lmask _ _ => true
  | .beq _ _ _ _ => true
  | .bne _ _ _ _ => true
  | .blt _ _ _ _ => true
  | .bge _ _ _ _ => true
  | .bltn _ _ _ _ => true
  | .bgen _ _ _ _ => true
  | .br _ _ => true
  | .jal _ _ => true
  | .jr _ a => isPair a
  | .jalr _ d a => isPair d && d != 0 && isPair a
  | .nop _ => true
  | .exit _ => true
  | .yield _ => true
  | .trapI _ _ => true
  | .brk _ => true
  | .eret _ => true
  | .wbase _ _ => true
  | .chk _ _ _ => true
  | .spawn _ _ a _ => isPair a
  | .jenrol _ _ => true
  | .jwait _ _ => true
  | .jstrike _ _ => true
  | .tickwait _ => true
  | .rdcw _ _ _ => true
  | .wrcw _ _ _ => true
  | .ldg _ d a w h _ => loadWidth w && h != 3 && isPair a && dataReg w d
  | .stg _ d a w h _ => storeWidth w && h != 3 && isPair a && dataReg w d
  | .lds _ d _ w h _ => loadWidth w && h == 0 && dataReg w d
  | .sts _ d _ w h _ => storeWidth w && h == 0 && dataReg w d
  | .ldp _ d _ w h _ => loadWidth w && (h == 0 || h == 2) && dataReg w d
  | .stp _ d _ w h _ => storeWidth w && (h == 0 || h == 2) && dataReg w d
  | .pf _ a => isPair a
  | .cwb _ a => isPair a
  | .cinv _ a => isPair a
  | .cflush _ a => isPair a
  | .aadd _ d a b c => pairIx d && pairIx a && pairIx b && scopeFromCore c
  | .aand _ d a b c => pairIx d && pairIx a && pairIx b && scopeFromCore c
  | .aor _ d a b c => pairIx d && pairIx a && pairIx b && scopeFromCore c
  | .axor _ d a b c => pairIx d && pairIx a && pairIx b && scopeFromCore c
  | .amin _ d a b c => pairIx d && pairIx a && pairIx b && scopeFromCore c
  | .amax _ d a b c => pairIx d && pairIx a && pairIx b && scopeFromCore c
  | .aminn _ d a b c => pairIx d && pairIx a && pairIx b && scopeFromCore c
  | .amaxn _ d a b c => pairIx d && pairIx a && pairIx b && scopeFromCore c
  | .aswap _ d a b c => pairIx d && pairIx a && pairIx b && scopeFromCore c
  | .acas _ d a b c => pairIx d && pairIx a && pairIx b && scopeFromCore c
  | .acasgt _ d a b c => pairIx d && pairIx a && pairIx b && scopeFromCore c
  | .acasgtn _ d a b c => pairIx d && pairIx a && pairIx b && scopeFromCore c
  | .aaddD _ d a b c => pairIx d && pairIx a && pairIx b && scopeFromCore c
  | .aandD _ d a b c => pairIx d && pairIx a && pairIx b && scopeFromCore c
  | .aorD _ d a b c => pairIx d && pairIx a && pairIx b && scopeFromCore c
  | .axorD _ d a b c => pairIx d && pairIx a && pairIx b && scopeFromCore c
  | .aminD _ d a b c => pairIx d && pairIx a && pairIx b && scopeFromCore c
  | .amaxD _ d a b c => pairIx d && pairIx a && pairIx b && scopeFromCore c
  | .aminnD _ d a b c => pairIx d && pairIx a && pairIx b && scopeFromCore c
  | .amaxnD _ d a b c => pairIx d && pairIx a && pairIx b && scopeFromCore c
  | .aswapD _ d a b c => pairIx d && pairIx a && pairIx b && scopeFromCore c
  | .acasD _ d a b c => pairIx d && pairIx a && pairIx b && scopeFromCore c && twoPairs b
  | .acasgtD _ d a b c => pairIx d && pairIx a && pairIx b && scopeFromCore c && twoPairs b
  | .acasgtnD _ d a b c => pairIx d && pairIx a && pairIx b && scopeFromCore c && twoPairs b
  | .acasver _ d a b c => pairIx d && pairIx a && pairIx b && scopeFromCore c && twoPairs b
  | .acastag _ d a b c => pairIx d && pairIx a && pairIx b && scopeFromCore c && twoPairs b
  | .atbeg _ d _ => notUniform d
  | .atend _ => true
  | .atabort _ _ => true
  | .atstat _ _ => true
  | .fenceRel _ _ => true
  | .fenceAcq _ _ => true
  | .fenceAr _ _ => true
  | .phase _ c _ => (c == 2 || c == 3)
  | .bararv _ _ _ _ => true
  | .barwait _ _ _ _ => true
  | .barsync _ _ _ _ => true
  | .barinit _ _ _ _ => true
  | .waiteq _ _ a _ => isPair a
  | .waitne _ _ a _ => isPair a
  | .waitge _ _ a _ => isPair a
  | .tlwait _ a _ => isPair a
  | .tlread _ d _ => isPair d
  | .qpush _ _ _ => true
  | .qpop _ _ _ => true
  | .qtake _ d _ => isPair d
  | .copy _ d _ => isPair d
  | .copyg _ d _ => isPair d
  | .prefa _ d _ => isPair d
  | .fetchw _ _ _ => true
  | .put _ d _ => isPair d
  | .puts _ d _ => isPair d
  | .get _ d _ => isPair d
  | .wincnt _ d _ _ x => isPair d && x != 3
  | .mloop _ _ _ _ _ _ => true
  | .slclr _ _ => true
  | .slrd _ _ _ _ _ => true
  | .slwr _ _ _ _ => true
  | .slstat _ d _ _ => isPair d
  | .slevt _ d => isQuad d
  | .fifoclr _ _ => true
  | .rand _ d a b => isQuad d && isPair a && isPair b
  | .randf _ _ a b => isPair a && isPair b
  | .snapshotQuiesce _ => true
  | .classPlace _ => true
  | .steal _ => true
  | .classEnd _ => true
  | .preempt _ => true
  | .residentKill _ => true
  | .fifoFeedFault _ => true
  | .fetchwAnswer _ => true
  | .tickBoundary _ => true
  | .binTimerExpire _ => true
  | .binLaunch _ => true
  | .issueSelect _ _ => true
  | .threadStarved _ => true
  | .laneWake _ => true
  | .pageWalk _ _ _ _ => true
  | .translationFaultResolve _ => true
  | .phaseSweep _ => true
  | .monitorFire _ => true
  | .signalDelivery _ => true
  | .copyRequestStart _ => true
  | .copyComplete _ => true
  | .matrixStep _ _ => true
  | .ticketedSlateAct _ _ => true
  | .illegalWord _ => true
  | .deferredResultWrite _ _ => true
  | .fabricOpSend _ => true
  | .fabricOpSettle _ _ _ => true
  | .pbenSet => true
  | .pbenClear => true
  | .doeAbort => true
  | .doeDiscovery => true
  | .spdmDoeRequest => true
  | .telemetryRead => true
  | .i3cReset => true
  | .powerOn => true
  | .perst => true
  | .cxlReset => true
  | .functionLevelReset => true
  | .port1Reset => true
  | .holdEnd => true
  | .powerFault => true
  | .thermalTrip => true
  | .clockThrottle => true
  | .clockRestore => true
  | .freeze => true
  | .freezeRelease => true
  | .scanShift => true
  | .backstopSweep => true
  | .passStep => true
  | .deviceNumberConflict => true
  | .dvsecRegisterWrite _ _ _ => true
  | .mbwrWrite _ => true
  | .mbrdWrite _ => true
  | .spdmMctpRequest _ => true
  | .linkDown _ => true
  | .linkRetrain _ => true
  | .bisnpTimeout _ _ => true
  | .playbillWriteSnoop _ _ => true
  | .queueTailWrite _ => true
  | .hostMemRead _ _ => true
  | .hostMemWrite _ _ => true
  | .hostSnoop _ _ => true
  | .fabricOpArrival _ _ _ _ _ _ => true
  | .fabricPathTimeout _ => true
  | .gratricPortFail _ => true
  | .flitResend _ => true
  | .uncorrectableError _ _ _ => true
  | .correctedError _ => true
  | .gratricPortTrain _ => true

end Sys2Proof
end

