-- ==== Sys2Proof/Decode.lean ====
section
/-! DEFINITION. The instruction word taken apart (R249 to R257): the decoder, total on every word and rejecting by
name, and after it the encoder, from the same formats. -/

namespace Sys2Proof

/-- Why a word names no instruction (R257). -/
inductive Reject where
  | major        -- major 0x00 or 0x35 to 0x3F
  | minor        -- an unallocated minor, op or selector (R255, R256)
  | unusedField  -- a field the instruction does not use is nonzero
  | field        -- a register, W, H, scope or packed field breaks R251 to R256
  deriving DecidableEq, Repr

/-- What the decoder reads from a word. -/
inductive Decoded where
  | instr (i : Instr)
  | reject (r : Reject)
  deriving DecidableEq, Repr

/-- Bits [lo+n-1 : lo] of the word, as a natural (R2). -/
def fld (w lo n : Nat) : Nat := w / 2 ^ lo % 2 ^ n

/-- Bits [lo+n-1 : lo] of the word, as a field of that width. -/
def bits (w lo n : Nat) : BitVec n := BitVec.ofNat n (w / 2 ^ lo)

/-- One bit of the word. -/
def flag (w i : Nat) : Bool := w / 2 ^ i % 2 == 1

/-- An unused field must be zero (R257). -/
def unusedZero (p : Prop) [Decidable p] (i : Instr) : Decoded :=
  if p then .instr i else .reject .unusedField

/-- Major 0x01, IALU: the minor or op (R255). -/
def decodeIalu (w : Nat) : Decoded :=
  match fld w 21 4 with
  | 0 => .instr (.add (flag w 31) (bits w 14 7) (bits w 7 7) (bits w 0 7))
  | 1 => .instr (.sub (flag w 31) (bits w 14 7) (bits w 7 7) (bits w 0 7))
  | 2 => .instr (.mul (flag w 31) (bits w 14 7) (bits w 7 7) (bits w 0 7))
  | 3 => .instr (.mulh (flag w 31) (bits w 14 7) (bits w 7 7) (bits w 0 7))
  | 4 => .instr (.mulhn (flag w 31) (bits w 14 7) (bits w 7 7) (bits w 0 7))
  | 5 => .instr (.mad (flag w 31) (bits w 14 7) (bits w 7 7) (bits w 0 7))
  | 6 => .instr (.min (flag w 31) (bits w 14 7) (bits w 7 7) (bits w 0 7))
  | 7 => .instr (.max (flag w 31) (bits w 14 7) (bits w 7 7) (bits w 0 7))
  | 8 => .instr (.minn (flag w 31) (bits w 14 7) (bits w 7 7) (bits w 0 7))
  | 9 => .instr (.maxn (flag w 31) (bits w 14 7) (bits w 7 7) (bits w 0 7))
  | 10 => .instr (.adif (flag w 31) (bits w 14 7) (bits w 7 7) (bits w 0 7))
  | 11 => .instr (.adds (flag w 31) (bits w 14 7) (bits w 7 7) (bits w 0 7))
  | 12 => .instr (.subs (flag w 31) (bits w 14 7) (bits w 7 7) (bits w 0 7))
  | _ => .reject .minor

/-- Major 0x02, LOGIC: the minor or op (R255). -/
def decodeLogic (w : Nat) : Decoded :=
  match fld w 21 4 with
  | 0 => .instr (.and (flag w 31) (bits w 14 7) (bits w 7 7) (bits w 0 7))
  | 1 => .instr (.or (flag w 31) (bits w 14 7) (bits w 7 7) (bits w 0 7))
  | 2 => .instr (.xor (flag w 31) (bits w 14 7) (bits w 7 7) (bits w 0 7))
  | 3 => .instr (.andn (flag w 31) (bits w 14 7) (bits w 7 7) (bits w 0 7))
  | 4 => .instr (.shl (flag w 31) (bits w 14 7) (bits w 7 7) (bits w 0 7))
  | 5 => .instr (.shr (flag w 31) (bits w 14 7) (bits w 7 7) (bits w 0 7))
  | 6 => .instr (.shra (flag w 31) (bits w 14 7) (bits w 7 7) (bits w 0 7))
  | 7 => .instr (.rotl (flag w 31) (bits w 14 7) (bits w 7 7) (bits w 0 7))
  | 8 => .instr (.sel (flag w 31) (bits w 14 7) (bits w 7 7) (bits w 0 7))
  | 9 => unusedZero (fld w 0 7 = 0) (.popc (flag w 31) (bits w 14 7) (bits w 7 7))
  | 10 => unusedZero (fld w 0 7 = 0) (.clz (flag w 31) (bits w 14 7) (bits w 7 7))
  | 11 => unusedZero (fld w 0 7 = 0) (.ctz (flag w 31) (bits w 14 7) (bits w 7 7))
  | 12 => unusedZero (fld w 0 7 = 0) (.brev (flag w 31) (bits w 14 7) (bits w 7 7))
  | _ => .reject .minor

/-- Major 0x03, ICMP: the minor or op (R255). -/
def decodeIcmp (w : Nat) : Decoded :=
  match fld w 21 4 with
  | 0 => .instr (.seq (flag w 31) (bits w 14 7) (bits w 7 7) (bits w 0 7))
  | 1 => .instr (.sne (flag w 31) (bits w 14 7) (bits w 7 7) (bits w 0 7))
  | 2 => .instr (.slt (flag w 31) (bits w 14 7) (bits w 7 7) (bits w 0 7))
  | 3 => .instr (.sle (flag w 31) (bits w 14 7) (bits w 7 7) (bits w 0 7))
  | 4 => .instr (.sltn (flag w 31) (bits w 14 7) (bits w 7 7) (bits w 0 7))
  | 5 => .instr (.slen (flag w 31) (bits w 14 7) (bits w 7 7) (bits w 0 7))
  | _ => .reject .minor

/-- Major 0x04, IWIDE: the minor or op (R255). -/
def decodeIwide (w : Nat) : Decoded :=
  match fld w 21 4 with
  | 0 => .instr (.add64 (flag w 31) (bits w 14 7) (bits w 7 7) (bits w 0 7))
  | 1 => .instr (.sub64 (flag w 31) (bits w 14 7) (bits w 7 7) (bits w 0 7))
  | 2 => .instr (.mul64 (flag w 31) (bits w 14 7) (bits w 7 7) (bits w 0 7))
  | 3 => .instr (.addx (flag w 31) (bits w 14 7) (bits w 7 7) (bits w 0 7))
  | 4 => .instr (.addxn (flag w 31) (bits w 14 7) (bits w 7 7) (bits w 0 7))
  | 5 => .instr (.shl64 (flag w 31) (bits w 14 7) (bits w 7 7) (bits w 0 7))
  | 6 => .instr (.shr64 (flag w 31) (bits w 14 7) (bits w 7 7) (bits w 0 7))
  | 7 => .instr (.shra64 (flag w 31) (bits w 14 7) (bits w 7 7) (bits w 0 7))
  | 8 => .instr (.div (flag w 31) (bits w 14 7) (bits w 7 7) (bits w 0 7))
  | 9 => .instr (.divn (flag w 31) (bits w 14 7) (bits w 7 7) (bits w 0 7))
  | 10 => .instr (.rem (flag w 31) (bits w 14 7) (bits w 7 7) (bits w 0 7))
  | 11 => .instr (.remn (flag w 31) (bits w 14 7) (bits w 7 7) (bits w 0 7))
  | 12 => .instr (.seq64 (flag w 31) (bits w 14 7) (bits w 7 7) (bits w 0 7))
  | 13 => .instr (.slt64 (flag w 31) (bits w 14 7) (bits w 7 7) (bits w 0 7))
  | 14 => .instr (.sltn64 (flag w 31) (bits w 14 7) (bits w 7 7) (bits w 0 7))
  | _ => .reject .minor

/-- Major 0x0C, SHIFT: the selector [10:8] (R255, R256). -/
def decodeShift (w : Nat) : Decoded :=
  match fld w 8 3 with
  | 0 => unusedZero (fld w 5 3 = 0) (.shli (flag w 31) (bits w 18 7) (bits w 11 7) (bits w 0 5))
  | 1 => unusedZero (fld w 5 3 = 0) (.shri (flag w 31) (bits w 18 7) (bits w 11 7) (bits w 0 5))
  | 2 => unusedZero (fld w 5 3 = 0) (.shrai (flag w 31) (bits w 18 7) (bits w 11 7) (bits w 0 5))
  | 3 => unusedZero (fld w 5 3 = 0) (.rotli (flag w 31) (bits w 18 7) (bits w 11 7) (bits w 0 5))
  | _ => .reject .minor

/-- Major 0x12, FALU: the minor or op (R255). -/
def decodeFalu (w : Nat) : Decoded :=
  match fld w 21 4 with
  | 0 => .instr (.fadd (flag w 31) (bits w 14 7) (bits w 7 7) (bits w 0 7))
  | 1 => .instr (.fsub (flag w 31) (bits w 14 7) (bits w 7 7) (bits w 0 7))
  | 2 => .instr (.fmul (flag w 31) (bits w 14 7) (bits w 7 7) (bits w 0 7))
  | 3 => .instr (.fma (flag w 31) (bits w 14 7) (bits w 7 7) (bits w 0 7))
  | 4 => .instr (.fmin (flag w 31) (bits w 14 7) (bits w 7 7) (bits w 0 7))
  | 5 => .instr (.fmax (flag w 31) (bits w 14 7) (bits w 7 7) (bits w 0 7))
  | 6 => unusedZero (fld w 0 7 = 0) (.fabs (flag w 31) (bits w 14 7) (bits w 7 7))
  | 7 => unusedZero (fld w 0 7 = 0) (.fneg (flag w 31) (bits w 14 7) (bits w 7 7))
  | 8 => .instr (.fsgn (flag w 31) (bits w 14 7) (bits w 7 7) (bits w 0 7))
  | 9 => .instr (.feq (flag w 31) (bits w 14 7) (bits w 7 7) (bits w 0 7))
  | 10 => .instr (.flt (flag w 31) (bits w 14 7) (bits w 7 7) (bits w 0 7))
  | 11 => .instr (.fle (flag w 31) (bits w 14 7) (bits w 7 7) (bits w 0 7))
  | 12 => unusedZero (fld w 0 7 = 0) (.fclass (flag w 31) (bits w 14 7) (bits w 7 7))
  | 13 => .instr (.fnma (flag w 31) (bits w 14 7) (bits w 7 7) (bits w 0 7))
  | _ => .reject .minor

/-- Major 0x13, FCVT: the minor or op (R255). -/
def decodeFcvt (w : Nat) : Decoded :=
  match fld w 21 4 with
  | 0 => unusedZero (fld w 3 4 = 0) (.ftoi (flag w 31) (bits w 14 7) (bits w 7 7) (bits w 0 3))
  | 1 => unusedZero (fld w 3 4 = 0) (.fton (flag w 31) (bits w 14 7) (bits w 7 7) (bits w 0 3))
  | 2 => unusedZero (fld w 3 4 = 0) (.itof (flag w 31) (bits w 14 7) (bits w 7 7) (bits w 0 3))
  | 3 => unusedZero (fld w 3 4 = 0) (.ntof (flag w 31) (bits w 14 7) (bits w 7 7) (bits w 0 3))
  | 4 => unusedZero (fld w 3 4 = 0) (.f2bf (flag w 31) (bits w 14 7) (bits w 7 7) (bits w 0 3))
  | 5 => unusedZero (fld w 0 7 = 0) (.bf2f (flag w 31) (bits w 14 7) (bits w 7 7))
  | 6 => unusedZero (fld w 3 4 = 0) (.f2h (flag w 31) (bits w 14 7) (bits w 7 7) (bits w 0 3))
  | 7 => unusedZero (fld w 0 7 = 0) (.h2f (flag w 31) (bits w 14 7) (bits w 7 7))
  | 8 => unusedZero (fld w 3 4 = 0) (.f2e4 (flag w 31) (bits w 14 7) (bits w 7 7) (bits w 0 3))
  | 9 => unusedZero (fld w 0 7 = 0) (.e42f (flag w 31) (bits w 14 7) (bits w 7 7))
  | 10 => unusedZero (fld w 3 4 = 0) (.f2e5 (flag w 31) (bits w 14 7) (bits w 7 7) (bits w 0 3))
  | 11 => unusedZero (fld w 0 7 = 0) (.e52f (flag w 31) (bits w 14 7) (bits w 7 7))
  | _ => .reject .minor

/-- Major 0x14, FSPEC: the minor or op (R255). -/
def decodeFspec (w : Nat) : Decoded :=
  match fld w 21 4 with
  | 0 => unusedZero (fld w 0 7 = 0) (.frcp (flag w 31) (bits w 14 7) (bits w 7 7))
  | 1 => unusedZero (fld w 0 7 = 0) (.frsq (flag w 31) (bits w 14 7) (bits w 7 7))
  | 2 => unusedZero (fld w 0 7 = 0) (.fsqrt (flag w 31) (bits w 14 7) (bits w 7 7))
  | 3 => unusedZero (fld w 0 7 = 0) (.fexp2 (flag w 31) (bits w 14 7) (bits w 7 7))
  | 4 => unusedZero (fld w 0 7 = 0) (.flog2 (flag w 31) (bits w 14 7) (bits w 7 7))
  | 5 => .instr (.badd2 (flag w 31) (bits w 14 7) (bits w 7 7) (bits w 0 7))
  | 6 => .instr (.bmul2 (flag w 31) (bits w 14 7) (bits w 7 7) (bits w 0 7))
  | 7 => .instr (.bfma2 (flag w 31) (bits w 14 7) (bits w 7 7) (bits w 0 7))
  | 8 => .instr (.bmax2 (flag w 31) (bits w 14 7) (bits w 7 7) (bits w 0 7))
  | 9 => unusedZero (fld w 2 5 = 0) (.dxq (flag w 31) (bits w 14 7) (bits w 7 7) (bits w 0 2))
  | 10 => unusedZero (fld w 2 5 = 0) (.dxd (flag w 31) (bits w 14 7) (bits w 7 7) (bits w 0 2))
  | _ => .reject .minor

/-- Major 0x15, TROUPE: the minor or op (R255). -/
def decodeTroupe (w : Nat) : Decoded :=
  match fld w 21 4 with
  | 0 => unusedZero (fld w 0 7 = 0) (.ballot (flag w 31) (bits w 14 7) (bits w 7 7))
  | 1 => unusedZero (fld w 0 7 = 0) (.vany (flag w 31) (bits w 14 7) (bits w 7 7))
  | 2 => unusedZero (fld w 0 7 = 0) (.vall (flag w 31) (bits w 14 7) (bits w 7 7))
  | 3 => .instr (.shfl (flag w 31) (bits w 14 7) (bits w 7 7) (bits w 0 7))
  | 4 => .instr (.shflx (flag w 31) (bits w 14 7) (bits w 7 7) (bits w 0 7))
  | 5 => .instr (.shflup (flag w 31) (bits w 14 7) (bits w 7 7) (bits w 0 7))
  | 6 => .instr (.shfldn (flag w 31) (bits w 14 7) (bits w 7 7) (bits w 0 7))
  | 7 => unusedZero (fld w 0 7 = 0) (.redadd (flag w 31) (bits w 14 7) (bits w 7 7))
  | 8 => unusedZero (fld w 0 7 = 0) (.redmin (flag w 31) (bits w 14 7) (bits w 7 7))
  | 9 => unusedZero (fld w 0 7 = 0) (.redmax (flag w 31) (bits w 14 7) (bits w 7 7))
  | 10 => unusedZero (fld w 0 7 = 0) (.redfadd (flag w 31) (bits w 14 7) (bits w 7 7))
  | 11 => unusedZero (fld w 0 7 = 0) (.scanadd (flag w 31) (bits w 14 7) (bits w 7 7))
  | 12 => unusedZero (fld w 0 7 = 0) (.scanaddx (flag w 31) (bits w 14 7) (bits w 7 7))
  | 13 => unusedZero (fld w 0 7 = 0) (.movix (flag w 31) (bits w 14 7) (bits w 7 7))
  | 14 => unusedZero (fld w 0 7 = 0) (.movixw (flag w 31) (bits w 14 7) (bits w 7 7))
  | _ => unusedZero (fld w 7 7 = 0 ∧ fld w 0 7 = 0) (.lmask (flag w 31) (bits w 14 7))

/-- Major 0x1E, JIND: the minor or op (R255). -/
def decodeJind (w : Nat) : Decoded :=
  match fld w 21 4 with
  | 0 => unusedZero (fld w 14 7 = 0 ∧ fld w 0 7 = 0) (.jr (flag w 31) (bits w 7 7))
  | 1 => unusedZero (fld w 0 7 = 0) (.jalr (flag w 31) (bits w 14 7) (bits w 7 7))
  | _ => .reject .minor

/-- Major 0x1F, CTRL: the minor or op (R255). -/
def decodeCtrl (w : Nat) : Decoded :=
  match fld w 21 4 with
  | 0 => unusedZero (fld w 14 7 = 0 ∧ fld w 7 7 = 0 ∧ fld w 0 7 = 0) (.nop (flag w 31))
  | 1 => unusedZero (fld w 14 7 = 0 ∧ fld w 7 7 = 0 ∧ fld w 0 7 = 0) (.exit (flag w 31))
  | 2 => unusedZero (fld w 14 7 = 0 ∧ fld w 7 7 = 0 ∧ fld w 0 7 = 0) (.yield (flag w 31))
  | 3 => unusedZero (fld w 14 7 = 0 ∧ fld w 7 7 = 0) (.trapI (flag w 31) (bits w 0 7))
  | 4 => unusedZero (fld w 14 7 = 0 ∧ fld w 7 7 = 0 ∧ fld w 0 7 = 0) (.brk (flag w 31))
  | 5 => unusedZero (fld w 14 7 = 0 ∧ fld w 7 7 = 0 ∧ fld w 0 7 = 0) (.eret (flag w 31))
  | 6 => unusedZero (fld w 14 7 = 0 ∧ fld w 0 7 = 0) (.wbase (flag w 31) (bits w 7 7))
  | 7 => unusedZero (fld w 14 7 = 0) (.chk (flag w 31) (bits w 7 7) (bits w 0 7))
  | 8 => .instr (.spawn (flag w 31) (bits w 14 7) (bits w 7 7) (bits w 0 7))
  | 9 => unusedZero (fld w 14 7 = 0 ∧ fld w 7 7 = 0 ∧ fld w 3 4 = 0) (.jenrol (flag w 31) (bits w 0 3))
  | 10 => unusedZero (fld w 14 7 = 0 ∧ fld w 7 7 = 0 ∧ fld w 3 4 = 0) (.jwait (flag w 31) (bits w 0 3))
  | 11 => unusedZero (fld w 14 7 = 0 ∧ fld w 7 7 = 0 ∧ fld w 3 4 = 0) (.jstrike (flag w 31) (bits w 0 3))
  | 12 => unusedZero (fld w 14 7 = 0 ∧ fld w 7 7 = 0 ∧ fld w 0 7 = 0) (.tickwait (flag w 31))
  | _ => .reject .minor

/-- Major 0x28, MEMX: the minor or op (R255). -/
def decodeMemx (w : Nat) : Decoded :=
  match fld w 21 4 with
  | 0 => unusedZero (fld w 14 7 = 0 ∧ fld w 0 7 = 0) (.pf (flag w 31) (bits w 7 7))
  | 1 => unusedZero (fld w 14 7 = 0 ∧ fld w 0 7 = 0) (.cwb (flag w 31) (bits w 7 7))
  | 2 => unusedZero (fld w 14 7 = 0 ∧ fld w 0 7 = 0) (.cinv (flag w 31) (bits w 7 7))
  | 3 => unusedZero (fld w 14 7 = 0 ∧ fld w 0 7 = 0) (.cflush (flag w 31) (bits w 7 7))
  | _ => .reject .minor

/-- Major 0x29, ATOM: the minor or op (R255). -/
def decodeAtom (w : Nat) : Decoded :=
  match fld w 21 4 with
  | 0 => .instr (.aadd (flag w 31) (bits w 15 6) (bits w 9 6) (bits w 3 6) (bits w 0 3))
  | 1 => .instr (.aand (flag w 31) (bits w 15 6) (bits w 9 6) (bits w 3 6) (bits w 0 3))
  | 2 => .instr (.aor (flag w 31) (bits w 15 6) (bits w 9 6) (bits w 3 6) (bits w 0 3))
  | 3 => .instr (.axor (flag w 31) (bits w 15 6) (bits w 9 6) (bits w 3 6) (bits w 0 3))
  | 4 => .instr (.amin (flag w 31) (bits w 15 6) (bits w 9 6) (bits w 3 6) (bits w 0 3))
  | 5 => .instr (.amax (flag w 31) (bits w 15 6) (bits w 9 6) (bits w 3 6) (bits w 0 3))
  | 6 => .instr (.aminn (flag w 31) (bits w 15 6) (bits w 9 6) (bits w 3 6) (bits w 0 3))
  | 7 => .instr (.amaxn (flag w 31) (bits w 15 6) (bits w 9 6) (bits w 3 6) (bits w 0 3))
  | 8 => .instr (.aswap (flag w 31) (bits w 15 6) (bits w 9 6) (bits w 3 6) (bits w 0 3))
  | 9 => .instr (.acas (flag w 31) (bits w 15 6) (bits w 9 6) (bits w 3 6) (bits w 0 3))
  | 10 => .instr (.acasgt (flag w 31) (bits w 15 6) (bits w 9 6) (bits w 3 6) (bits w 0 3))
  | 11 => .instr (.acasgtn (flag w 31) (bits w 15 6) (bits w 9 6) (bits w 3 6) (bits w 0 3))
  | _ => .reject .minor

/-- Major 0x2A, ATOM64: the minor or op (R255). -/
def decodeAtom64 (w : Nat) : Decoded :=
  match fld w 21 4 with
  | 0 => .instr (.aaddD (flag w 31) (bits w 15 6) (bits w 9 6) (bits w 3 6) (bits w 0 3))
  | 1 => .instr (.aandD (flag w 31) (bits w 15 6) (bits w 9 6) (bits w 3 6) (bits w 0 3))
  | 2 => .instr (.aorD (flag w 31) (bits w 15 6) (bits w 9 6) (bits w 3 6) (bits w 0 3))
  | 3 => .instr (.axorD (flag w 31) (bits w 15 6) (bits w 9 6) (bits w 3 6) (bits w 0 3))
  | 4 => .instr (.aminD (flag w 31) (bits w 15 6) (bits w 9 6) (bits w 3 6) (bits w 0 3))
  | 5 => .instr (.amaxD (flag w 31) (bits w 15 6) (bits w 9 6) (bits w 3 6) (bits w 0 3))
  | 6 => .instr (.aminnD (flag w 31) (bits w 15 6) (bits w 9 6) (bits w 3 6) (bits w 0 3))
  | 7 => .instr (.amaxnD (flag w 31) (bits w 15 6) (bits w 9 6) (bits w 3 6) (bits w 0 3))
  | 8 => .instr (.aswapD (flag w 31) (bits w 15 6) (bits w 9 6) (bits w 3 6) (bits w 0 3))
  | 9 => .instr (.acasD (flag w 31) (bits w 15 6) (bits w 9 6) (bits w 3 6) (bits w 0 3))
  | 10 => .instr (.acasgtD (flag w 31) (bits w 15 6) (bits w 9 6) (bits w 3 6) (bits w 0 3))
  | 11 => .instr (.acasgtnD (flag w 31) (bits w 15 6) (bits w 9 6) (bits w 3 6) (bits w 0 3))
  | 12 => .instr (.acasver (flag w 31) (bits w 15 6) (bits w 9 6) (bits w 3 6) (bits w 0 3))
  | 13 => .instr (.acastag (flag w 31) (bits w 15 6) (bits w 9 6) (bits w 3 6) (bits w 0 3))
  | _ => .reject .minor

/-- Major 0x2C, AREG: the minor or op (R255). -/
def decodeAreg (w : Nat) : Decoded :=
  match fld w 21 4 with
  | 0 => unusedZero (fld w 14 7 = 0 ∧ fld w 7 7 = 0 ∧ fld w 0 7 = 0) (.atend (flag w 31))
  | 1 => unusedZero (fld w 14 7 = 0 ∧ fld w 7 7 = 0) (.atabort (flag w 31) (bits w 0 7))
  | 2 => unusedZero (fld w 7 7 = 0 ∧ fld w 0 7 = 0) (.atstat (flag w 31) (bits w 14 7))
  | _ => .reject .minor

/-- Major 0x2D, FENCE: the minor or op (R255). -/
def decodeFence (w : Nat) : Decoded :=
  match fld w 21 4 with
  | 0 => unusedZero (fld w 17 4 = 0 ∧ fld w 7 7 = 0 ∧ fld w 0 7 = 0) (.fenceRel (flag w 31) (bits w 14 3))
  | 1 => unusedZero (fld w 17 4 = 0 ∧ fld w 7 7 = 0 ∧ fld w 0 7 = 0) (.fenceAcq (flag w 31) (bits w 14 3))
  | 2 => unusedZero (fld w 17 4 = 0 ∧ fld w 7 7 = 0 ∧ fld w 0 7 = 0) (.fenceAr (flag w 31) (bits w 14 3))
  | 3 => unusedZero (fld w 17 4 = 0 ∧ fld w 0 7 = 0) (.phase (flag w 31) (bits w 14 3) (bits w 7 7))
  | _ => .reject .minor

/-- Major 0x2E, BAR: the minor or op (R255). -/
def decodeBar (w : Nat) : Decoded :=
  match fld w 21 4 with
  | 0 => unusedZero (fld w 1 6 = 0) (.bararv (flag w 31) (bits w 14 7) (bits w 7 7) (bits w 0 1))
  | 1 => unusedZero (fld w 1 6 = 0) (.barwait (flag w 31) (bits w 14 7) (bits w 7 7) (bits w 0 1))
  | 2 => unusedZero (fld w 1 6 = 0) (.barsync (flag w 31) (bits w 14 7) (bits w 7 7) (bits w 0 1))
  | 3 => unusedZero (fld w 1 6 = 0) (.barinit (flag w 31) (bits w 14 7) (bits w 7 7) (bits w 0 1))
  | _ => .reject .minor

/-- Major 0x2F, WAIT: the minor or op (R255). -/
def decodeWait (w : Nat) : Decoded :=
  match fld w 21 4 with
  | 0 => .instr (.waiteq (flag w 31) (bits w 14 7) (bits w 7 7) (bits w 0 7))
  | 1 => .instr (.waitne (flag w 31) (bits w 14 7) (bits w 7 7) (bits w 0 7))
  | 2 => .instr (.waitge (flag w 31) (bits w 14 7) (bits w 7 7) (bits w 0 7))
  | 3 => unusedZero (fld w 14 7 = 0 ∧ fld w 3 4 = 0) (.tlwait (flag w 31) (bits w 7 7) (bits w 0 3))
  | 4 => unusedZero (fld w 7 7 = 0 ∧ fld w 3 4 = 0) (.tlread (flag w 31) (bits w 14 7) (bits w 0 3))
  | 5 => unusedZero (fld w 14 7 = 0 ∧ fld w 4 3 = 0) (.qpush (flag w 31) (bits w 7 7) (bits w 0 4))
  | 6 => unusedZero (fld w 7 7 = 0 ∧ fld w 4 3 = 0) (.qpop (flag w 31) (bits w 14 7) (bits w 0 4))
  | 7 => unusedZero (fld w 0 7 = 0) (.qtake (flag w 31) (bits w 14 7) (bits w 7 7))
  | _ => .reject .minor

/-- Major 0x30, ENG: the minor or op (R255). -/
def decodeEng (w : Nat) : Decoded :=
  match fld w 21 4 with
  | 0 => unusedZero (fld w 0 7 = 0) (.copy (flag w 31) (bits w 14 7) (bits w 7 7))
  | 1 => unusedZero (fld w 0 7 = 0) (.copyg (flag w 31) (bits w 14 7) (bits w 7 7))
  | 2 => unusedZero (fld w 0 7 = 0) (.prefa (flag w 31) (bits w 14 7) (bits w 7 7))
  | 3 => unusedZero (fld w 14 7 = 0) (.fetchw (flag w 31) (bits w 7 7) (bits w 0 7))
  | _ => .reject .minor

/-- Major 0x31, FAB: the minor or op (R255). -/
def decodeFab (w : Nat) : Decoded :=
  match fld w 21 4 with
  | 0 => unusedZero (fld w 0 7 = 0) (.put (flag w 31) (bits w 14 7) (bits w 7 7))
  | 1 => unusedZero (fld w 0 7 = 0) (.puts (flag w 31) (bits w 14 7) (bits w 7 7))
  | 2 => unusedZero (fld w 0 7 = 0) (.get (flag w 31) (bits w 14 7) (bits w 7 7))
  | 3 => unusedZero (fld w 3 4 = 0) (.wincnt (flag w 31) (bits w 14 7) (bits w 7 7) (flag w 2) (bits w 0 2))
  | _ => .reject .minor

/-- Major 0x32, MLOOP: the minor or op (R255). -/
def decodeMloop (w : Nat) : Decoded :=
  match fld w 21 4 with
  | 0 => .instr (.mloop (flag w 31) (bits w 18 3) (bits w 16 2) (bits w 14 2) (bits w 7 7) (bits w 0 7))
  | _ => .reject .minor

/-- Major 0x33, SLATE: the minor or op (R255). -/
def decodeSlate (w : Nat) : Decoded :=
  match fld w 21 4 with
  | 0 => unusedZero (fld w 14 7 = 0 ∧ fld w 7 7 = 0 ∧ fld w 3 4 = 0) (.slclr (flag w 31) (bits w 0 3))
  | 1 => unusedZero (fld w 5 2 = 0) (.slrd (flag w 31) (bits w 14 7) (bits w 7 7) (bits w 3 2) (bits w 0 3))
  | 2 => unusedZero (fld w 3 4 = 0) (.slwr (flag w 31) (bits w 14 7) (bits w 7 7) (bits w 0 3))
  | 3 => unusedZero (fld w 3 4 = 0) (.slstat (flag w 31) (bits w 14 7) (bits w 7 7) (bits w 0 3))
  | 4 => unusedZero (fld w 7 7 = 0 ∧ fld w 0 7 = 0) (.slevt (flag w 31) (bits w 14 7))
  | 5 => unusedZero (fld w 14 7 = 0 ∧ fld w 7 7 = 0 ∧ fld w 2 5 = 0) (.fifoclr (flag w 31) (bits w 0 2))
  | _ => .reject .minor

/-- Major 0x34, GEN: the minor or op (R255). -/
def decodeGen (w : Nat) : Decoded :=
  match fld w 21 4 with
  | 0 => .instr (.rand (flag w 31) (bits w 14 7) (bits w 7 7) (bits w 0 7))
  | 1 => .instr (.randf (flag w 31) (bits w 14 7) (bits w 7 7) (bits w 0 7))
  | _ => .reject .minor

/-- The word taken apart by its major opcode (R254), before the checks of R251 to R256 on its fields. -/
def decodeShape (w : Nat) : Decoded :=
  match fld w 25 6 with
  | 1 => decodeIalu w
  | 2 => decodeLogic w
  | 3 => decodeIcmp w
  | 4 => decodeIwide w
  | 5 => .instr (.addi (flag w 31) (bits w 18 7) (bits w 11 7) (bits w 0 11))
  | 6 => .instr (.andi (flag w 31) (bits w 18 7) (bits w 11 7) (bits w 0 11))
  | 7 => .instr (.ori (flag w 31) (bits w 18 7) (bits w 11 7) (bits w 0 11))
  | 8 => .instr (.xori (flag w 31) (bits w 18 7) (bits w 11 7) (bits w 0 11))
  | 9 => .instr (.slti (flag w 31) (bits w 18 7) (bits w 11 7) (bits w 0 11))
  | 10 => .instr (.sltni (flag w 31) (bits w 18 7) (bits w 11 7) (bits w 0 11))
  | 11 => .instr (.muli (flag w 31) (bits w 18 7) (bits w 11 7) (bits w 0 11))
  | 12 => decodeShift w
  | 13 => .instr (.bfx (flag w 31) (bits w 18 7) (bits w 11 7) (flag w 10) (bits w 5 5) (bits w 0 5))
  | 14 => unusedZero (fld w 10 1 = 0) (.bfi (flag w 31) (bits w 18 7) (bits w 11 7) (bits w 5 5) (bits w 0 5))
  | 15 => .instr (.addxi (flag w 31) (bits w 18 7) (bits w 11 7) (bits w 0 11))
  | 16 => .instr (.lui (flag w 31) (bits w 18 7) (bits w 0 18))
  | 17 => .instr (.lapc (flag w 31) (bits w 18 7) (bits w 0 18))
  | 18 => decodeFalu w
  | 19 => decodeFcvt w
  | 20 => decodeFspec w
  | 21 => decodeTroupe w
  | 22 => .instr (.beq (flag w 31) (bits w 18 7) (bits w 11 7) (bits w 0 11))
  | 23 => .instr (.bne (flag w 31) (bits w 18 7) (bits w 11 7) (bits w 0 11))
  | 24 => .instr (.blt (flag w 31) (bits w 18 7) (bits w 11 7) (bits w 0 11))
  | 25 => .instr (.bge (flag w 31) (bits w 18 7) (bits w 11 7) (bits w 0 11))
  | 26 => .instr (.bltn (flag w 31) (bits w 18 7) (bits w 11 7) (bits w 0 11))
  | 27 => .instr (.bgen (flag w 31) (bits w 18 7) (bits w 11 7) (bits w 0 11))
  | 28 => .instr (.br (flag w 31) (bits w 0 25))
  | 29 => .instr (.jal (flag w 31) (bits w 0 25))
  | 30 => decodeJind w
  | 31 => decodeCtrl w
  | 32 => unusedZero (fld w 11 7 = 0) (.rdcw (flag w 31) (bits w 18 7) (bits w 0 11))
  | 33 => unusedZero (fld w 18 7 = 0) (.wrcw (flag w 31) (bits w 11 7) (bits w 0 11))
  | 34 => .instr (.ldg (flag w 31) (bits w 18 7) (bits w 11 7) (bits w 8 3) (bits w 6 2) (bits w 0 6))
  | 35 => .instr (.stg (flag w 31) (bits w 18 7) (bits w 11 7) (bits w 8 3) (bits w 6 2) (bits w 0 6))
  | 36 => .instr (.lds (flag w 31) (bits w 18 7) (bits w 11 7) (bits w 8 3) (bits w 6 2) (bits w 0 6))
  | 37 => .instr (.sts (flag w 31) (bits w 18 7) (bits w 11 7) (bits w 8 3) (bits w 6 2) (bits w 0 6))
  | 38 => .instr (.ldp (flag w 31) (bits w 18 7) (bits w 11 7) (bits w 8 3) (bits w 6 2) (bits w 0 6))
  | 39 => .instr (.stp (flag w 31) (bits w 18 7) (bits w 11 7) (bits w 8 3) (bits w 6 2) (bits w 0 6))
  | 40 => decodeMemx w
  | 41 => decodeAtom w
  | 42 => decodeAtom64 w
  | 43 => unusedZero (fld w 11 7 = 0) (.atbeg (flag w 31) (bits w 18 7) (bits w 0 11))
  | 44 => decodeAreg w
  | 45 => decodeFence w
  | 46 => decodeBar w
  | 47 => decodeWait w
  | 48 => decodeEng w
  | 49 => decodeFab w
  | 50 => decodeMloop w
  | 51 => decodeSlate w
  | 52 => decodeGen w
  | _ => .reject .major

/-- The decoder (R257): a word either names one well-formed instruction or is rejected, by name. -/
def decode (w : Nat) : Decoded :=
  match decodeShape w with
  | .instr i => if i.wellFormed then .instr i else .reject .field
  | .reject r => .reject r

/-- The word that little-endian bytes hold (R249, R2); missing bytes read as zero. -/
def wordOfBytes : List Byte → Nat
  | [] => 0
  | b :: bs => b.toNat + 256 * wordOfBytes bs

/-- `n` bytes of a natural, least significant first (R2). -/
def bytesOfNat : Nat → Nat → List Byte
  | 0, _ => []
  | n + 1, v => BitVec.ofNat 8 v :: bytesOfNat n (v / 256)

/-- The instruction read from a list of bytes, with the rest of the list; a short list names none. -/
def decodeBytes (bs : List Byte) : Decoded × List Byte :=
  if bs.length < 4 then (.reject .major, bs) else (decode (wordOfBytes (bs.take 4)), bs.drop 4)

/-! ## The encoder (R250, R254 to R256) -/

/-- Format R: minor, D, A, B. -/
def encR (major minor : Nat) (d a b : RegNo) : Nat :=
  major * 2 ^ 25 + minor * 2 ^ 21 + d.toNat * 2 ^ 14 + a.toNat * 2 ^ 7 + b.toNat

/-- Formats I and B: two registers and 11 bits. -/
def encI (major : Nat) (d a : RegNo) (i : BitVec 11) : Nat :=
  major * 2 ^ 25 + d.toNat * 2 ^ 18 + a.toNat * 2 ^ 11 + i.toNat

/-- Format J. -/
def encJ (major : Nat) (o : BitVec 25) : Nat := major * 2 ^ 25 + o.toNat

/-- Format U. -/
def encU (major : Nat) (d : RegNo) (i : BitVec 18) : Nat := major * 2 ^ 25 + d.toNat * 2 ^ 18 + i.toNat

/-- Format M. -/
def encM (major : Nat) (d a : RegNo) (w : BitVec 3) (h : BitVec 2) (o : BitVec 6) : Nat :=
  major * 2 ^ 25 + d.toNat * 2 ^ 18 + a.toNat * 2 ^ 11 + w.toNat * 2 ^ 8 + h.toNat * 2 ^ 6 + o.toNat

/-- Format A. -/
def encA (major op : Nat) (d a b : BitVec 6) (c : BitVec 3) : Nat :=
  major * 2 ^ 25 + op * 2 ^ 21 + d.toNat * 2 ^ 15 + a.toNat * 2 ^ 9 + b.toNat * 2 ^ 3 + c.toNat

/-- Bits [30:0] of an instruction's word; an event has no word (0). -/
def encodeBody : Instr → Nat
  | .add _ d a b => encR 1 0 d a b
  | .sub _ d a b => encR 1 1 d a b
  | .mul _ d a b => encR 1 2 d a b
  | .mulh _ d a b => encR 1 3 d a b
  | .mulhn _ d a b => encR 1 4 d a b
  | .mad _ d a b => encR 1 5 d a b
  | .min _ d a b => encR 1 6 d a b
  | .max _ d a b => encR 1 7 d a b
  | .minn _ d a b => encR 1 8 d a b
  | .maxn _ d a b => encR 1 9 d a b
  | .adif _ d a b => encR 1 10 d a b
  | .adds _ d a b => encR 1 11 d a b
  | .subs _ d a b => encR 1 12 d a b
  | .and _ d a b => encR 2 0 d a b
  | .or _ d a b => encR 2 1 d a b
  | .xor _ d a b => encR 2 2 d a b
  | .andn _ d a b => encR 2 3 d a b
  | .shl _ d a b => encR 2 4 d a b
  | .shr _ d a b => encR 2 5 d a b
  | .shra _ d a b => encR 2 6 d a b
  | .rotl _ d a b => encR 2 7 d a b
  | .sel _ d a b => encR 2 8 d a b
  | .popc _ d a => encR 2 9 d a 0
  | .clz _ d a => encR 2 10 d a 0
  | .ctz _ d a => encR 2 11 d a 0
  | .brev _ d a => encR 2 12 d a 0
  | .seq _ d a b => encR 3 0 d a b
  | .sne _ d a b => encR 3 1 d a b
  | .slt _ d a b => encR 3 2 d a b
  | .sle _ d a b => encR 3 3 d a b
  | .sltn _ d a b => encR 3 4 d a b
  | .slen _ d a b => encR 3 5 d a b
  | .add64 _ d a b => encR 4 0 d a b
  | .sub64 _ d a b => encR 4 1 d a b
  | .mul64 _ d a b => encR 4 2 d a b
  | .addx _ d a b => encR 4 3 d a b
  | .addxn _ d a b => encR 4 4 d a b
  | .shl64 _ d a b => encR 4 5 d a b
  | .shr64 _ d a b => encR 4 6 d a b
  | .shra64 _ d a b => encR 4 7 d a b
  | .div _ d a b => encR 4 8 d a b
  | .divn _ d a b => encR 4 9 d a b
  | .rem _ d a b => encR 4 10 d a b
  | .remn _ d a b => encR 4 11 d a b
  | .seq64 _ d a b => encR 4 12 d a b
  | .slt64 _ d a b => encR 4 13 d a b
  | .sltn64 _ d a b => encR 4 14 d a b
  | .addi _ d a i => encI 5 d a i
  | .andi _ d a i => encI 6 d a i
  | .ori _ d a i => encI 7 d a i
  | .xori _ d a i => encI 8 d a i
  | .slti _ d a i => encI 9 d a i
  | .sltni _ d a i => encI 10 d a i
  | .muli _ d a i => encI 11 d a i
  | .shli _ d a n => encI 12 d a (BitVec.ofNat 11 (0 * 256 + n.toNat))
  | .shri _ d a n => encI 12 d a (BitVec.ofNat 11 (1 * 256 + n.toNat))
  | .shrai _ d a n => encI 12 d a (BitVec.ofNat 11 (2 * 256 + n.toNat))
  | .rotli _ d a n => encI 12 d a (BitVec.ofNat 11 (3 * 256 + n.toNat))
  | .bfx _ d a e l p => encI 13 d a (BitVec.ofNat 11 (e.toNat * 1024 + l.toNat * 32 + p.toNat))
  | .bfi _ d a l p => encI 14 d a (BitVec.ofNat 11 (l.toNat * 32 + p.toNat))
  | .addxi _ d a i => encI 15 d a i
  | .lui _ d i => encU 16 d i
  | .lapc _ d i => encU 17 d i
  | .fadd _ d a b => encR 18 0 d a b
  | .fsub _ d a b => encR 18 1 d a b
  | .fmul _ d a b => encR 18 2 d a b
  | .fma _ d a b => encR 18 3 d a b
  | .fmin _ d a b => encR 18 4 d a b
  | .fmax _ d a b => encR 18 5 d a b
  | .fabs _ d a => encR 18 6 d a 0
  | .fneg _ d a => encR 18 7 d a 0
  | .fsgn _ d a b => encR 18 8 d a b
  | .feq _ d a b => encR 18 9 d a b
  | .flt _ d a b => encR 18 10 d a b
  | .fle _ d a b => encR 18 11 d a b
  | .fclass _ d a => encR 18 12 d a 0
  | .fnma _ d a b => encR 18 13 d a b
  | .ftoi _ d a c => encR 19 0 d a (c.setWidth 7)
  | .fton _ d a c => encR 19 1 d a (c.setWidth 7)
  | .itof _ d a c => encR 19 2 d a (c.setWidth 7)
  | .ntof _ d a c => encR 19 3 d a (c.setWidth 7)
  | .f2bf _ d a c => encR 19 4 d a (c.setWidth 7)
  | .bf2f _ d a => encR 19 5 d a 0
  | .f2h _ d a c => encR 19 6 d a (c.setWidth 7)
  | .h2f _ d a => encR 19 7 d a 0
  | .f2e4 _ d a c => encR 19 8 d a (c.setWidth 7)
  | .e42f _ d a => encR 19 9 d a 0
  | .f2e5 _ d a c => encR 19 10 d a (c.setWidth 7)
  | .e52f _ d a => encR 19 11 d a 0
  | .frcp _ d a => encR 20 0 d a 0
  | .frsq _ d a => encR 20 1 d a 0
  | .fsqrt _ d a => encR 20 2 d a 0
  | .fexp2 _ d a => encR 20 3 d a 0
  | .flog2 _ d a => encR 20 4 d a 0
  | .badd2 _ d a b => encR 20 5 d a b
  | .bmul2 _ d a b => encR 20 6 d a b
  | .bfma2 _ d a b => encR 20 7 d a b
  | .bmax2 _ d a b => encR 20 8 d a b
  | .dxq _ d a f => encR 20 9 d a (f.setWidth 7)
  | .dxd _ d a f => encR 20 10 d a (f.setWidth 7)
  | .ballot _ d a => encR 21 0 d a 0
  | .vany _ d a => encR 21 1 d a 0
  | .vall _ d a => encR 21 2 d a 0
  | .shfl _ d a b => encR 21 3 d a b
  | .shflx _ d a b => encR 21 4 d a b
  | .shflup _ d a b => encR 21 5 d a b
  | .shfldn _ d a b => encR 21 6 d a b
  | .redadd _ d a => encR 21 7 d a 0
  | .redmin _ d a => encR 21 8 d a 0
  | .redmax _ d a => encR 21 9 d a 0
  | .redfadd _ d a => encR 21 10 d a 0
  | .scanadd _ d a => encR 21 11 d a 0
  | .scanaddx _ d a => encR 21 12 d a 0
  | .movix _ d a => encR 21 13 d a 0
  | .movixw _ d a => encR 21 14 d a 0
  | .lmask _ d => encR 21 15 d 0 0
  | .beq _ a b o => encI 22 a b o
  | .bne _ a b o => encI 23 a b o
  | .blt _ a b o => encI 24 a b o
  | .bge _ a b o => encI 25 a b o
  | .bltn _ a b o => encI 26 a b o
  | .bgen _ a b o => encI 27 a b o
  | .br _ o => encJ 28 o
  | .jal _ o => encJ 29 o
  | .jr _ a => encR 30 0 0 a 0
  | .jalr _ d a => encR 30 1 d a 0
  | .nop _ => encR 31 0 0 0 0
  | .exit _ => encR 31 1 0 0 0
  | .yield _ => encR 31 2 0 0 0
  | .trapI _ c => encR 31 3 0 0 c
  | .brk _ => encR 31 4 0 0 0
  | .eret _ => encR 31 5 0 0 0
  | .wbase _ a => encR 31 6 0 a 0
  | .chk _ a b => encR 31 7 0 a b
  | .spawn _ d a c => encR 31 8 d a c
  | .jenrol _ j => encR 31 9 0 0 (j.setWidth 7)
  | .jwait _ j => encR 31 10 0 0 (j.setWidth 7)
  | .jstrike _ j => encR 31 11 0 0 (j.setWidth 7)
  | .tickwait _ => encR 31 12 0 0 0
  | .rdcw _ d i => encI 32 d 0 i
  | .wrcw _ a i => encI 33 0 a i
  | .ldg _ d a w h o => encM 34 d a w h o
  | .stg _ d a w h o => encM 35 d a w h o
  | .lds _ d a w h o => encM 36 d a w h o
  | .sts _ d a w h o => encM 37 d a w h o
  | .ldp _ d a w h o => encM 38 d a w h o
  | .stp _ d a w h o => encM 39 d a w h o
  | .pf _ a => encR 40 0 0 a 0
  | .cwb _ a => encR 40 1 0 a 0
  | .cinv _ a => encR 40 2 0 a 0
  | .cflush _ a => encR 40 3 0 a 0
  | .aadd _ d a b c => encA 41 0 d a b c
  | .aand _ d a b c => encA 41 1 d a b c
  | .aor _ d a b c => encA 41 2 d a b c
  | .axor _ d a b c => encA 41 3 d a b c
  | .amin _ d a b c => encA 41 4 d a b c
  | .amax _ d a b c => encA 41 5 d a b c
  | .aminn _ d a b c => encA 41 6 d a b c
  | .amaxn _ d a b c => encA 41 7 d a b c
  | .aswap _ d a b c => encA 41 8 d a b c
  | .acas _ d a b c => encA 41 9 d a b c
  | .acasgt _ d a b c => encA 41 10 d a b c
  | .acasgtn _ d a b c => encA 41 11 d a b c
  | .aaddD _ d a b c => encA 42 0 d a b c
  | .aandD _ d a b c => encA 42 1 d a b c
  | .aorD _ d a b c => encA 42 2 d a b c
  | .axorD _ d a b c => encA 42 3 d a b c
  | .aminD _ d a b c => encA 42 4 d a b c
  | .amaxD _ d a b c => encA 42 5 d a b c
  | .aminnD _ d a b c => encA 42 6 d a b c
  | .amaxnD _ d a b c => encA 42 7 d a b c
  | .aswapD _ d a b c => encA 42 8 d a b c
  | .acasD _ d a b c => encA 42 9 d a b c
  | .acasgtD _ d a b c => encA 42 10 d a b c
  | .acasgtnD _ d a b c => encA 42 11 d a b c
  | .acasver _ d a b c => encA 42 12 d a b c
  | .acastag _ d a b c => encA 42 13 d a b c
  | .atbeg _ d o => encI 43 d 0 o
  | .atend _ => encR 44 0 0 0 0
  | .atabort _ c => encR 44 1 0 0 c
  | .atstat _ d => encR 44 2 d 0 0
  | .fenceRel _ c => encR 45 0 (c.setWidth 7) 0 0
  | .fenceAcq _ c => encR 45 1 (c.setWidth 7) 0 0
  | .fenceAr _ c => encR 45 2 (c.setWidth 7) 0 0
  | .phase _ c a => encR 45 3 (c.setWidth 7) a 0
  | .bararv _ d a c => encR 46 0 d a (c.setWidth 7)
  | .barwait _ d a c => encR 46 1 d a (c.setWidth 7)
  | .barsync _ d a c => encR 46 2 d a (c.setWidth 7)
  | .barinit _ d a c => encR 46 3 d a (c.setWidth 7)
  | .waiteq _ d a b => encR 47 0 d a b
  | .waitne _ d a b => encR 47 1 d a b
  | .waitge _ d a b => encR 47 2 d a b
  | .tlwait _ a n => encR 47 3 0 a (n.setWidth 7)
  | .tlread _ d n => encR 47 4 d 0 (n.setWidth 7)
  | .qpush _ a n => encR 47 5 0 a (n.setWidth 7)
  | .qpop _ d n => encR 47 6 d 0 (n.setWidth 7)
  | .qtake _ d a => encR 47 7 d a 0
  | .copy _ d a => encR 48 0 d a 0
  | .copyg _ d a => encR 48 1 d a 0
  | .prefa _ d a => encR 48 2 d a 0
  | .fetchw _ a b => encR 48 3 0 a b
  | .put _ d a => encR 49 0 d a 0
  | .puts _ d a => encR 49 1 d a 0
  | .get _ d a => encR 49 2 d a 0
  | .wincnt _ d a g x => encR 49 3 d a (BitVec.ofNat 7 (g.toNat * 4 + x.toNat))
  | .mloop _ n x y a b => encR 50 0 (BitVec.ofNat 7 (n.toNat * 16 + x.toNat * 4 + y.toNat)) a b
  | .slclr _ n => encR 51 0 0 0 (n.setWidth 7)
  | .slrd _ d a c n => encR 51 1 d a (BitVec.ofNat 7 (c.toNat * 8 + n.toNat))
  | .slwr _ d a n => encR 51 2 d a (n.setWidth 7)
  | .slstat _ d a n => encR 51 3 d a (n.setWidth 7)
  | .slevt _ d => encR 51 4 d 0 0
  | .fifoclr _ f => encR 51 5 0 0 (f.setWidth 7)
  | .rand _ d a b => encR 52 0 d a b
  | .randf _ d a b => encR 52 1 d a b
  | .snapshotQuiesce _ => 0
  | .classPlace _ => 0
  | .steal _ => 0
  | .classEnd _ => 0
  | .preempt _ => 0
  | .residentKill _ => 0
  | .fifoFeedFault _ => 0
  | .fetchwAnswer _ => 0
  | .tickBoundary _ => 0
  | .binTimerExpire _ => 0
  | .binLaunch _ => 0
  | .issueSelect _ _ => 0
  | .threadStarved _ => 0
  | .laneWake _ => 0
  | .pageWalk _ _ _ _ => 0
  | .translationFaultResolve _ => 0
  | .phaseSweep _ => 0
  | .monitorFire _ => 0
  | .signalDelivery _ => 0
  | .copyRequestStart _ => 0
  | .copyComplete _ => 0
  | .matrixStep _ _ => 0
  | .ticketedSlateAct _ _ => 0
  | .illegalWord _ => 0
  | .deferredResultWrite _ _ => 0
  | .fabricOpSend _ => 0
  | .fabricOpSettle _ _ _ => 0
  | .pbenSet => 0
  | .pbenClear => 0
  | .doeAbort => 0
  | .doeDiscovery => 0
  | .spdmDoeRequest => 0
  | .telemetryRead => 0
  | .i3cReset => 0
  | .powerOn => 0
  | .perst => 0
  | .cxlReset => 0
  | .functionLevelReset => 0
  | .port1Reset => 0
  | .holdEnd => 0
  | .powerFault => 0
  | .thermalTrip => 0
  | .clockThrottle => 0
  | .clockRestore => 0
  | .freeze => 0
  | .freezeRelease => 0
  | .scanShift => 0
  | .backstopSweep => 0
  | .passStep => 0
  | .deviceNumberConflict => 0
  | .dvsecRegisterWrite _ _ _ => 0
  | .mbwrWrite _ => 0
  | .mbrdWrite _ => 0
  | .spdmMctpRequest _ => 0
  | .linkDown _ => 0
  | .linkRetrain _ => 0
  | .bisnpTimeout _ _ => 0
  | .playbillWriteSnoop _ _ => 0
  | .queueTailWrite _ => 0
  | .hostMemRead _ _ => 0
  | .hostMemWrite _ _ => 0
  | .hostSnoop _ _ => 0
  | .fabricOpArrival _ _ _ _ _ _ => 0
  | .fabricPathTimeout _ => 0
  | .gratricPortFail _ => 0
  | .flitResend _ => 0
  | .uncorrectableError _ _ _ => 0
  | .correctedError _ => 0
  | .gratricPortTrain _ => 0

/-- The switch marker of an instruction word (R137); an event has none. -/
def Instr.marker : Instr → Bool
  | .add m _ _ _ => m
  | .sub m _ _ _ => m
  | .mul m _ _ _ => m
  | .mulh m _ _ _ => m
  | .mulhn m _ _ _ => m
  | .mad m _ _ _ => m
  | .min m _ _ _ => m
  | .max m _ _ _ => m
  | .minn m _ _ _ => m
  | .maxn m _ _ _ => m
  | .adif m _ _ _ => m
  | .adds m _ _ _ => m
  | .subs m _ _ _ => m
  | .and m _ _ _ => m
  | .or m _ _ _ => m
  | .xor m _ _ _ => m
  | .andn m _ _ _ => m
  | .shl m _ _ _ => m
  | .shr m _ _ _ => m
  | .shra m _ _ _ => m
  | .rotl m _ _ _ => m
  | .sel m _ _ _ => m
  | .popc m _ _ => m
  | .clz m _ _ => m
  | .ctz m _ _ => m
  | .brev m _ _ => m
  | .seq m _ _ _ => m
  | .sne m _ _ _ => m
  | .slt m _ _ _ => m
  | .sle m _ _ _ => m
  | .sltn m _ _ _ => m
  | .slen m _ _ _ => m
  | .add64 m _ _ _ => m
  | .sub64 m _ _ _ => m
  | .mul64 m _ _ _ => m
  | .addx m _ _ _ => m
  | .addxn m _ _ _ => m
  | .shl64 m _ _ _ => m
  | .shr64 m _ _ _ => m
  | .shra64 m _ _ _ => m
  | .div m _ _ _ => m
  | .divn m _ _ _ => m
  | .rem m _ _ _ => m
  | .remn m _ _ _ => m
  | .seq64 m _ _ _ => m
  | .slt64 m _ _ _ => m
  | .sltn64 m _ _ _ => m
  | .addi m _ _ _ => m
  | .andi m _ _ _ => m
  | .ori m _ _ _ => m
  | .xori m _ _ _ => m
  | .slti m _ _ _ => m
  | .sltni m _ _ _ => m
  | .muli m _ _ _ => m
  | .shli m _ _ _ => m
  | .shri m _ _ _ => m
  | .shrai m _ _ _ => m
  | .rotli m _ _ _ => m
  | .bfx m _ _ _ _ _ => m
  | .bfi m _ _ _ _ => m
  | .addxi m _ _ _ => m
  | .lui m _ _ => m
  | .lapc m _ _ => m
  | .fadd m _ _ _ => m
  | .fsub m _ _ _ => m
  | .fmul m _ _ _ => m
  | .fma m _ _ _ => m
  | .fmin m _ _ _ => m
  | .fmax m _ _ _ => m
  | .fabs m _ _ => m
  | .fneg m _ _ => m
  | .fsgn m _ _ _ => m
  | .feq m _ _ _ => m
  | .flt m _ _ _ => m
  | .fle m _ _ _ => m
  | .fclass m _ _ => m
  | .fnma m _ _ _ => m
  | .ftoi m _ _ _ => m
  | .fton m _ _ _ => m
  | .itof m _ _ _ => m
  | .ntof m _ _ _ => m
  | .f2bf m _ _ _ => m
  | .bf2f m _ _ => m
  | .f2h m _ _ _ => m
  | .h2f m _ _ => m
  | .f2e4 m _ _ _ => m
  | .e42f m _ _ => m
  | .f2e5 m _ _ _ => m
  | .e52f m _ _ => m
  | .frcp m _ _ => m
  | .frsq m _ _ => m
  | .fsqrt m _ _ => m
  | .fexp2 m _ _ => m
  | .flog2 m _ _ => m
  | .badd2 m _ _ _ => m
  | .bmul2 m _ _ _ => m
  | .bfma2 m _ _ _ => m
  | .bmax2 m _ _ _ => m
  | .dxq m _ _ _ => m
  | .dxd m _ _ _ => m
  | .ballot m _ _ => m
  | .vany m _ _ => m
  | .vall m _ _ => m
  | .shfl m _ _ _ => m
  | .shflx m _ _ _ => m
  | .shflup m _ _ _ => m
  | .shfldn m _ _ _ => m
  | .redadd m _ _ => m
  | .redmin m _ _ => m
  | .redmax m _ _ => m
  | .redfadd m _ _ => m
  | .scanadd m _ _ => m
  | .scanaddx m _ _ => m
  | .movix m _ _ => m
  | .movixw m _ _ => m
  | .lmask m _ => m
  | .beq m _ _ _ => m
  | .bne m _ _ _ => m
  | .blt m _ _ _ => m
  | .bge m _ _ _ => m
  | .bltn m _ _ _ => m
  | .bgen m _ _ _ => m
  | .br m _ => m
  | .jal m _ => m
  | .jr m _ => m
  | .jalr m _ _ => m
  | .nop m => m
  | .exit m => m
  | .yield m => m
  | .trapI m _ => m
  | .brk m => m
  | .eret m => m
  | .wbase m _ => m
  | .chk m _ _ => m
  | .spawn m _ _ _ => m
  | .jenrol m _ => m
  | .jwait m _ => m
  | .jstrike m _ => m
  | .tickwait m => m
  | .rdcw m _ _ => m
  | .wrcw m _ _ => m
  | .ldg m _ _ _ _ _ => m
  | .stg m _ _ _ _ _ => m
  | .lds m _ _ _ _ _ => m
  | .sts m _ _ _ _ _ => m
  | .ldp m _ _ _ _ _ => m
  | .stp m _ _ _ _ _ => m
  | .pf m _ => m
  | .cwb m _ => m
  | .cinv m _ => m
  | .cflush m _ => m
  | .aadd m _ _ _ _ => m
  | .aand m _ _ _ _ => m
  | .aor m _ _ _ _ => m
  | .axor m _ _ _ _ => m
  | .amin m _ _ _ _ => m
  | .amax m _ _ _ _ => m
  | .aminn m _ _ _ _ => m
  | .amaxn m _ _ _ _ => m
  | .aswap m _ _ _ _ => m
  | .acas m _ _ _ _ => m
  | .acasgt m _ _ _ _ => m
  | .acasgtn m _ _ _ _ => m
  | .aaddD m _ _ _ _ => m
  | .aandD m _ _ _ _ => m
  | .aorD m _ _ _ _ => m
  | .axorD m _ _ _ _ => m
  | .aminD m _ _ _ _ => m
  | .amaxD m _ _ _ _ => m
  | .aminnD m _ _ _ _ => m
  | .amaxnD m _ _ _ _ => m
  | .aswapD m _ _ _ _ => m
  | .acasD m _ _ _ _ => m
  | .acasgtD m _ _ _ _ => m
  | .acasgtnD m _ _ _ _ => m
  | .acasver m _ _ _ _ => m
  | .acastag m _ _ _ _ => m
  | .atbeg m _ _ => m
  | .atend m => m
  | .atabort m _ => m
  | .atstat m _ => m
  | .fenceRel m _ => m
  | .fenceAcq m _ => m
  | .fenceAr m _ => m
  | .phase m _ _ => m
  | .bararv m _ _ _ => m
  | .barwait m _ _ _ => m
  | .barsync m _ _ _ => m
  | .barinit m _ _ _ => m
  | .waiteq m _ _ _ => m
  | .waitne m _ _ _ => m
  | .waitge m _ _ _ => m
  | .tlwait m _ _ => m
  | .tlread m _ _ => m
  | .qpush m _ _ => m
  | .qpop m _ _ => m
  | .qtake m _ _ => m
  | .copy m _ _ => m
  | .copyg m _ _ => m
  | .prefa m _ _ => m
  | .fetchw m _ _ => m
  | .put m _ _ => m
  | .puts m _ _ => m
  | .get m _ _ => m
  | .wincnt m _ _ _ _ => m
  | .mloop m _ _ _ _ _ => m
  | .slclr m _ => m
  | .slrd m _ _ _ _ => m
  | .slwr m _ _ _ => m
  | .slstat m _ _ _ => m
  | .slevt m _ => m
  | .fifoclr m _ => m
  | .rand m _ _ _ => m
  | .randf m _ _ _ => m
  | .snapshotQuiesce _ => false
  | .classPlace _ => false
  | .steal _ => false
  | .classEnd _ => false
  | .preempt _ => false
  | .residentKill _ => false
  | .fifoFeedFault _ => false
  | .fetchwAnswer _ => false
  | .tickBoundary _ => false
  | .binTimerExpire _ => false
  | .binLaunch _ => false
  | .issueSelect _ _ => false
  | .threadStarved _ => false
  | .laneWake _ => false
  | .pageWalk _ _ _ _ => false
  | .translationFaultResolve _ => false
  | .phaseSweep _ => false
  | .monitorFire _ => false
  | .signalDelivery _ => false
  | .copyRequestStart _ => false
  | .copyComplete _ => false
  | .matrixStep _ _ => false
  | .ticketedSlateAct _ _ => false
  | .illegalWord _ => false
  | .deferredResultWrite _ _ => false
  | .fabricOpSend _ => false
  | .fabricOpSettle _ _ _ => false
  | .pbenSet => false
  | .pbenClear => false
  | .doeAbort => false
  | .doeDiscovery => false
  | .spdmDoeRequest => false
  | .telemetryRead => false
  | .i3cReset => false
  | .powerOn => false
  | .perst => false
  | .cxlReset => false
  | .functionLevelReset => false
  | .port1Reset => false
  | .holdEnd => false
  | .powerFault => false
  | .thermalTrip => false
  | .clockThrottle => false
  | .clockRestore => false
  | .freeze => false
  | .freezeRelease => false
  | .scanShift => false
  | .backstopSweep => false
  | .passStep => false
  | .deviceNumberConflict => false
  | .dvsecRegisterWrite _ _ _ => false
  | .mbwrWrite _ => false
  | .mbrdWrite _ => false
  | .spdmMctpRequest _ => false
  | .linkDown _ => false
  | .linkRetrain _ => false
  | .bisnpTimeout _ _ => false
  | .playbillWriteSnoop _ _ => false
  | .queueTailWrite _ => false
  | .hostMemRead _ _ => false
  | .hostMemWrite _ _ => false
  | .hostSnoop _ _ => false
  | .fabricOpArrival _ _ _ _ _ _ => false
  | .fabricPathTimeout _ => false
  | .gratricPortFail _ => false
  | .flitResend _ => false
  | .uncorrectableError _ _ _ => false
  | .correctedError _ => false
  | .gratricPortTrain _ => false

/-- The word of an instruction (R249): S in bit 31. -/
def encode (i : Instr) : Nat := i.marker.toNat * 2 ^ 31 + encodeBody i

/-- The word of an instruction as its register-sized value. -/
def Instr.word (i : Instr) : Word := BitVec.ofNat 32 (encode i)

/-- The instruction the decoder reads from the word `w` of a table row (one 32-bit word, R249). -/
def decodeTableWord (nbits w : Nat) : Option Instr :=
  match (decodeBytes (bytesOfNat 4 (w % 2 ^ nbits))).1 with
  | .instr i => some i
  | .reject _ => none

end Sys2Proof
end

