-- ==== Sys2Proof/Machine/State.lean ====
section
/-! DEFINITION. The state of the module: plain data, every piece of state that the spec gives it.

Storage is held in sparse tables (`Table`). Keys: a class is `ck = record id * 2^48 + class index`; a troupe position is
`ck * 64 + p` with `p = 4 * seat + section` (R123); a thread is `(ck * 64 + p) * 32 + lane`; a core is
`die * 64 + core`. A class keeps its key wherever it runs, so pre-emption moves no thread state (R106, R120). -/

namespace Sys2Proof.Machine

/-! ## Reasons a step can stop -/

/-- The machine stops: the spec gives the access no effect. -/
inductive Fault where
  /-- Raised by HOST_MEM_READ and HOST_MEM_WRITE outside the range that the host sees over CXL.mem (R90): no rule gives such a
  request an effect. Safe: the model stops where a host's root port decides. -/
  | hostOutsideHdm (off : Nat)
  deriving DecidableEq, Repr

/-- No meaning. -/
inductive Refusal where
  /-- Raised by an arm of `exec` that has no meaning yet. Safe: the model stops. -/
  | notModelled (mnemonic : String)
  deriving DecidableEq, Repr

/-! ## Threads -/

/-- The trap causes (R141). -/
inductive Cause where
  | illegal | hazard | align | access | stackLimit | scratchLimit | window | formatDivergence | format | uniformSplit
  | bound | brk | trap | slateOwner | memoryError | queue | region | fabric | signal | nested | vector
  deriving DecidableEq, Repr

/-- The kind of an access that is translated (R91). -/
inductive Kind where
  | read | write | exec
  deriving DecidableEq, Repr

/-- Where a deferred result is written: an allocation register, or a k or c register (R130, R131); g0 only as the lower half of a pair whose
upper half is written. -/
inductive Dest where
  | zero | alloc (a : Nat) | kreg (n : Nat) | creg (n : Nat)
  deriving DecidableEq, Repr

/-- A deferred result that is not yet written (R136): the registers it writes, and the ticket it still waits for
(SLRD, SLSTAT: R198), if any. -/
structure Deferred where
  ws : List (Dest × Word)
  waits : Option Nat
  /-- The issue number of its instruction: writes to one k or c register take effect in issue order (R132, R133). -/
  seq : Nat
  deriving DecidableEq, Repr

/-- Why a thread is parked (R124). -/
inductive Park where
  /-- Trap entry waits for results (R142): the cause, cw.tval, cw.epc, and whether the trap goes to the reconciler whatever
  the vector (a fetch fault, R141). -/
  | trapEntry (c : Cause) (v epc : DWord) (toRec : Bool)
  /-- EXIT, ATBEG or ATEND waits for results, and is executed again (R275, R212, R220). -/
  | results
  /-- A fence or a release waits for the thread's c writes, and with `acq` also for its loads and atomics to return (R133, R168). -/
  | fence (acq : Bool)
  /-- A translation (R93): the address and the kind. -/
  | translation (va : DWord) (k : Kind)
  /-- An absent scratch line of a class (R149). -/
  | absent (ck line : Nat)
  | jwait (j : Nat)
  /-- A monitor on a word (R316). -/
  | monitor (va : DWord)
  | timeline (t : Nat) (n : DWord)
  | tick
  /-- An arrival that is two phases ahead, or finds NEXT = COUNT (R313): the object and its GEN. -/
  | arrival (owner off gen : Nat)
  /-- The wait part of BARWAIT, BARSYNC or PHASE (R314): the object, the phase awaited and the acquire's scope. -/
  | barWait (owner off j scope : Nat)
  | notePush (n : Nat) | notePop (n : Nat)
  | queue (q : Nat)
  | spawn
  | wincnt (w sel : Nat) (n : DWord)
  /-- Four accepted loops (R197). -/
  | loops
  /-- The engine queue holds 64 (R339), or four requests of the FIFO are retained (R193). -/
  | engine
  | fifoFull (f : Nat)
  /-- No free region of the core's 64 (R212). -/
  | regions
  /-- An acquire waits for the sweep of the last advance of P (R156). -/
  | sweep
  /-- Held behind a lower lane that is parked on its own account in the same execution of an instruction whose lanes go in order (log 29, DEDUCED). -/
  | behind
  /-- The trap went to the reconciler, which will kill the RESIDENT (R144). -/
  | reconciler
  deriving DecidableEq, Repr

/-- A relation that a region records (R216). -/
inductive Rel where
  | eq | ne | lt | ge | le | ltn | gen | len
  deriving DecidableEq, Repr

/-- A value tag (R215): v_k + c, of 32 or 64 bits. -/
structure Tag where
  k : Nat
  c : DWord
  wide : Bool
  deriving DecidableEq, Repr

/-- An operand of a recorded constraint: its tag, or its plain value. -/
inductive Operand where
  | tagged (t : Tag) | plain (v : DWord)
  deriving DecidableEq, Repr

/-- A recorded constraint (R216): the relation, its operands, its width and the outcome to keep. -/
structure Constraint where
  rel : Rel
  x : Operand
  y : Operand
  wide : Bool
  holds : Bool
  deriving DecidableEq, Repr

/-- A region's read-set line (R215): the address it was reached by, its place, and its snapshot. -/
structure ReadLine where
  va : Nat
  host : Bool
  line : Nat
  snap : List Byte
  deriving DecidableEq, Repr

/-- A loaded input of a region (R215). -/
structure Input where
  va : Nat
  host : Bool
  pa : Nat
  wide : Bool
  deriving DecidableEq, Repr

/-- A buffered store of a region (R213, R216). -/
structure BufStore where
  va : Nat
  host : Bool
  pa : Nat
  size : Nat
  data : List Byte
  tag : Option Tag
  deriving DecidableEq, Repr

/-- An open atomic region (R212 to R218), with its checkpoint. -/
structure Region where
  status : RegNo
  fallback : DWord
  ckRegs : List (Nat × Word)
  ckWb : Word
  rigid : Bool
  inputs : List Input
  reads : List ReadLine
  tags : List (Nat × Tag)
  constraints : List Constraint
  stores : List BufStore
  deriving DecidableEq, Repr

/-- A thread: its program counter, control words and waits (R124, R138 to R146). A thread is in the table exactly while it is
live. -/
structure Thread where
  pc : DWord
  wb : Word
  cause : BitVec 8
  tval : DWord
  epc : DWord
  inHandler : Bool
  binTimer : Word
  lrFirst : Word
  lrLast : Word
  coords : Table Word
  cycleHi : Word
  tickHi : Word
  /-- The outstanding set (R138): bits 0 to 1,023 the allocation, then k0 to k7, then c0 to c7. -/
  out : BitVec 1040
  /-- The deferred results not yet written (R136). -/
  pend : List Deferred
  /-- A held SIGNAL and its cw.tval (R145). -/
  held : Option (BitVec 12)
  park : Option Park
  /-- The marker's wait, which runs beside the thread's own park (R137). -/
  markWait : Bool
  /-- The issue number at which it first parked in its parked instruction; zero otherwise. -/
  parkSeq : Nat
  /-- The park from which it was last woken in that instruction: a waiter keeps its place until the instruction completes (R320). -/
  was : Option Park
  /-- The queue that it is to take from, and the `parkSeq` of the QTAKE that says so (R71, R321). -/
  taking : Option (Nat × Nat)
  region : Option Region
  /-- Starved (R125), and the core cycle since which the thread has been ready without issuing. -/
  starved : Bool
  readySince : Nat
  deriving DecidableEq, Repr

/-- A troupe (R123): its live lanes, coordinate, age, uniform registers and rejoin masks (R129). -/
structure Troupe where
  lmask : Word
  coord : Word
  /-- Troupe number within the class; spawned troupes after the class's own, in launch order (R125). -/
  order : Nat
  spawned : Bool
  kregs : Table Word
  /-- The issue number of the last write of each k register (R132). -/
  kseq : Table Nat
  enrolled : Table Word
  arrived : Table Word
  deriving DecidableEq, Repr

/-! ## The matrix unit (R192 to R203) -/

/-- One row of a slate (R192). -/
structure Row where
  m : List (BitVec 48)
  e : Int
  z : Bool
  n : Bool
  o : Bool
  deriving DecidableEq, Repr

/-- A slate: its rows that are not in the state of R192, its loop status (R199) and its owner mark (R146). -/
structure Slate where
  rows : Table Row
  stopped : Bool
  steps : Word
  /-- Last written by code running with H = 0, and not cleared since (R146). -/
  fromH0 : Bool
  deriving DecidableEq, Repr

/-- An operand FIFO (R193). -/
structure Fifo where
  bytes : List Byte
  pos : Nat
  deriving DecidableEq, Repr

/-- An accepted loop (R197, R198). -/
structure Loop where
  ticket : Nat
  slate : Nat
  fa : Nat
  fb : Nat
  fmt : Word
  remaining : Nat
  applied : Nat
  tl : Nat
  num : Nat
  fromH0 : Bool
  deriving DecidableEq, Repr

/-- What a ticketed instruction does when it acts (R198, R205, R206). -/
inductive ActKind where
  | clear
  /-- SLRD: row, conversion, destination register fields of the active lanes. -/
  | read (row conv : Nat)
  /-- SLWR: row and the values of the active lanes (an inactive lane gives +0). -/
  | write (row : Nat) (vals : Table Word)
  | stat (row : Nat)
  /-- FIFOCLR of f: it discards the requests numbered below `upTo`, those issued before it (R206). -/
  | fifoClear (f upTo : Nat)
  deriving DecidableEq, Repr

/-- A ticketed slate instruction that has not acted yet. -/
structure Act where
  ticket : Nat
  slate : Nat
  kind : ActKind
  /-- The threads whose deferred result it fills. -/
  lanes : List Nat
  fromH0 : Bool
  deriving DecidableEq, Repr

/-- An entry of the event log (R202). -/
structure LogEntry where
  slate : Nat
  row : Nat
  shift : Nat
  newE : Int
  step : Nat
  ticket : Nat
  deriving DecidableEq, Repr

/-- A core's matrix unit. -/
structure Matrix where
  slates : Table Slate
  fifos : Table Fifo
  loops : List Loop
  acts : List Act
  log : List LogEntry
  /-- Entries that wait for earlier-ticketed loops to end: the log is in ticket order (R202). -/
  staged : List LogEntry
  lost : Bool
  lostCount : Nat
  /-- The class's ticket counter (R198). -/
  ticket : Nat
  deriving DecidableEq, Repr

/-! ## Programs and classes (R100 to R113) -/

/-- One level of a launch record (R101). -/
structure Level where
  domain : Nat
  scope : Nat
  extent : Nat
  deriving DecidableEq, Repr

/-- One note-queue declaration (R101). -/
structure NoteDecl where
  scope : Nat
  die : Nat
  cap : Nat
  deriving DecidableEq, Repr

/-- A launch record (R100). -/
structure Launch where
  levels : List Level
  dies : Nat
  restartable : Bool
  matrix : Bool
  regs : Nat
  spawnSeats : Nat
  barriers : Nat
  scratch : Nat
  ownBytes : Nat
  trapVec : Nat
  binTimer : Nat
  queues : List NoteDecl
  deriving DecidableEq, Repr

/-- A class (R103 to R106): where it stands, its positions and what it holds. `placed` is false while it is on a resume
list. -/
structure Cls where
  rid : Nat
  ctx : Nat
  idx : Nat
  die : Nat
  core : Nat
  placed : Bool
  seq : Nat
  restart : Word
  troupePos : List Nat
  spawnPos : List Nat
  coords : Table Word
  barSlots : List Nat
  /-- Device-physical base of each position's own segment (R150). -/
  segBase : Table Nat
  /-- The die of those frames (R150): that of the class's first placement in the launch. -/
  segDie : Nat
  /-- Pre-emption has been asked for (R119). -/
  stopping : Bool
  /-- Held where it stands for a snapshot (R77). -/
  quiesced : Bool
  /-- The matrix state of a pre-empted MATRIX class (R208). -/
  savedMatrix : Option Matrix
  /-- The save block's offset and size, while there is one or room is set aside for it (R118, R120). -/
  save : Option (Nat × Nat)
  deriving DecidableEq, Repr

/-- A timeline (R176): its issued count, and the numbers of the operations that still hold its visible count. -/
structure Timeline where
  issued : Nat
  ops : List Nat
  deriving DecidableEq, Repr

/-- A spawned thread that waits in a casting bin (R110, R111). -/
structure Slot where
  args : List Word
  coords : Table Word
  deriving DecidableEq, Repr

/-- A keyed casting bin (R110). -/
structure Bin where
  ck : Nat
  entry : DWord
  slots : List Slot
  /-- Core cycle at which the timer expires, and whether it has. -/
  until_ : Nat
  expired : Bool
  deriving DecidableEq, Repr

/-- A unit of an usher's sequence (R107): a class, or a gang's members in ascending index. -/
structure UnitOfWork where
  rid : Nat
  members : List Nat
  deriving DecidableEq, Repr

/-- A FETCHW that the usher has not answered (R113, R342). -/
structure Fetch where
  core : Nat
  ck : Nat
  rid : Nat
  mailbox : Nat
  deriving DecidableEq, Repr

/-- An entry of a resume list (R105): a pre-empted class, or one that awaits relaunch. -/
structure Resume where
  ck : Nat
  relaunch : Bool
  /-- The address whose entry a class killed by a feed fault awaits (R210). -/
  awaits : Option DWord
  deriving DecidableEq, Repr

/-- The unit that an usher tries: an entry of its resume list, or a unit of its sequence (R107). -/
inductive Head where
  | resume (r : Resume)
  | unit (u : UnitOfWork)
  deriving DecidableEq, Repr

/-- A die's usher (R105 to R108). -/
structure Usher where
  queue : List UnitOfWork
  resume : List Resume
  /-- Classes killed by a feed fault, which join the resume list once the entry they await is written (R210). -/
  killed : List Resume
  rr : Nat
  /-- It received nothing from any die and has stopped stealing (R108). -/
  idle : Bool
  fetches : List Fetch
  /-- The unit for which classes were pre-empted: it is tried before any other (R118; log 41, DEDUCED). -/
  hand : Option Head
  deriving DecidableEq, Repr

/-- A running program (R51, R105 to R109, R211). -/
structure Resident where
  ctx : Nat
  policy : Nat
  priority : Nat
  hslate : Nat
  imageVa : Nat
  imageSize : Nat
  entry : Nat
  launch : Launch
  /-- Classes of the program (R103). -/
  n : Nat
  /-- Indices placed at least once since the launch, and the number of classes ended in it. -/
  placedOnce : List Nat
  /-- DONE of the last mark of step 0x02 (R373; log 47, DEDUCED). -/
  marked : Nat
  ended : Nat
  /-- Relaunches of the whole program, and of each class by itself: cw.restart is their sum (R109, R211). -/
  restart : Word
  bumps : Table Word
  /-- Kills for feed faults, per class, within the launch (R211). -/
  kills : Table Nat
  /-- A trap, a fault or an error that kills the program: the mark's reason (R144). -/
  killPending : Option (BitVec 16)
  held : Bool
  deriving DecidableEq, Repr

/-- A die or named-die note queue's ring (R318). -/
structure NoteQueue where
  head : Nat
  tail : Nat
  handles : List Word
  deriving DecidableEq, Repr

/-- A control block (R114). -/
structure ControlBlock where
  rid : Nat
  ctx : Nat
  head : Nat
  log2Items : Nat
  log2Size : Nat
  qflags : Nat
  armed : Bool
  ringVa : Nat
  tailVa : Nat
  tickTail : Nat
  held : Bool
  deriving DecidableEq, Repr

/-- A core's own words: its cycle count (R140) and, for each section, the troupe that issued last and its cycle (R125). -/
structure CoreState where
  cycle : Nat
  lastTroupe : Table Nat
  lastCycle : Table Nat
  deriving DecidableEq, Repr

/-! ## Engines and fabric -/

/-- A copy request block (R337), read at issue. -/
structure CopyBlock where
  kind : Nat
  dest : Nat
  fifo : Nat
  tl : Nat
  dims : Nat
  layers : Bool
  inc : Nat
  src : Nat
  dst : Nat
  size0 : Nat
  count1 : Nat
  sstride1 : Int
  dstride1 : Int
  count2 : Nat
  sstride2 : Int
  dstride2 : Int
  lstride : Int
  groups : Nat
  ptab : Nat
  deriving DecidableEq, Repr

/-- An issued copy request (R339 to R341). -/
structure Request where
  core : Nat
  ck : Nat
  blk : CopyBlock
  lrFirst : Nat
  lrLast : Nat
  num : Nat
  /-- It holds its timeline's visible count (R176). -/
  holds : Bool
  begun : Bool
  /-- The pointer table, read once when the request begins (R340). -/
  bases : List Nat
  /-- Rows moved so far. -/
  rows : Nat
  /-- Every byte is in place. -/
  moved : Bool
  completed : Bool
  /-- For a FIFO destination: the stream offset of its first byte, whether it is retained (R193), and whether a FIFOCLR
  released it (R206). -/
  start : Nat
  retained : Bool
  cleared : Bool
  /-- Waits on this address's translation (R97). -/
  waits : Option (DWord × Kind)
  deriving DecidableEq, Repr

/-- A fabric block (R343). -/
structure FabBlock where
  kind : Nat
  tl : Nat
  dims : Nat
  sigop : Nat
  inc : Nat
  lva : Nat
  rva : Nat
  size0 : Nat
  count1 : Nat
  lstride1 : Int
  rstride1 : Int
  sigva : Nat
  sigval : Nat
  deriving DecidableEq, Repr

/-- Where a fabric operation stands (R344, R345). -/
inductive FabPhase where
  | queued | sent | settled
  deriving DecidableEq, Repr

/-- An issued fabric operation. -/
structure FabOp where
  core : Nat
  ck : Nat
  blk : FabBlock
  win : Nat
  /-- Its number on the window, and on its timeline. -/
  num : Nat
  tlNum : Nat
  holds : Bool
  phase : FabPhase
  /-- Sent as refused by its own source (R344). -/
  selfRefused : Bool
  /-- The payload taken at the source: remote address and bytes of each row. -/
  payload : List (Nat × List Byte)
  deriving DecidableEq, Repr

/-- A window registered on this device (R34, R49). -/
structure Window where
  rid : Nat
  ctx : Nat
  peer : Bool
  va : Nat
  size : Nat
  perms : Nat
  peerDev : Nat
  peerWin : Nat
  /-- Held by PAUSED: every operation on it is refused (R39). -/
  paused : Bool
  issued : Nat
  settled : List Nat
  issue : Nat
  arrival : Nat
  refused : Nat
  deriving DecidableEq, Repr

/-- A Gratric port (R31 to R33). -/
inductive Port where
  | untrained | inService | failed
  deriving DecidableEq, Repr

/-! ## Caches -/

/-- A translated place: host or device memory, memory class, placement, bias, and physical address. -/
structure Place where
  host : Bool
  mc : Nat
  pl : Nat
  bias : Bool
  pa : Nat
  deriving DecidableEq, Repr

/-- A store of one line that has issued and is not yet performed (R167, R172): its core, its place, whether it writes through (R157), its bytes, and when
it issued (R173). -/
structure LateStore where
  core : Nat
  pl : Place
  wt : Bool
  bytes : List Byte
  since : Nat
  deriving DecidableEq, Repr

/-- A load that may still be performed while its result is pending (R172): its thread, core and issue number, the class whose `.ro` load it is, its
width and destination, and the pieces of its bytes by line. -/
structure LateLoad where
  tk : Nat
  core : Nat
  seq : Nat
  ro : Option Nat
  w : BitVec 3
  d : Nat
  pls : List (Place × Nat)
  deriving DecidableEq, Repr

/-- A line of a core's L1 (R148): its phase tag, the classes whose `.ro` loads have tagged it (R157), bytes, dirty bytes and write token
(R159), which for a HOST line is its ownership (R160). -/
structure L1Line where
  tag : BitVec 2
  ro : List Nat
  mc : Nat
  bytes : List Byte
  dirty : List Bool
  token : Bool
  /-- Its clean bytes are valid: a sweep leaves only the dirty ones (R156). -/
  valid : Bool
  deriving DecidableEq, Repr

/-- A line of a remote-data cache (R153). -/
structure RdcLine where
  tag : BitVec 2
  bytes : List Byte
  deriving DecidableEq, Repr

/-- A write-back that has passed through a remote-data cache and not yet reached its home slice (R153). -/
structure Passing where
  die : Nat
  line : Nat
  bytes : List Byte
  dirty : List Bool
  deriving DecidableEq, Repr

/-- A cache's phase (R155) and whether the sweep of its last advance is still to run (R156). -/
structure PhaseState where
  p : BitVec 2
  owed : Bool
  deriving DecidableEq, Repr

/-- A translation held by a TLB (R96): context, first page, pages covered, the leaf, and whether D was set. -/
structure TlbEntry where
  ctx : Nat
  page : Nat
  pages : Nat
  leaf : DWord
  entryAddr : Nat
  deriving DecidableEq, Repr

/-! ## The reconciler -/

/-- A frame record (R90): placement, bias, and what holds the page (0 nothing; otherwise 1 + record id). -/
structure Frame where
  place : Nat
  bias : Bool
  owner : Nat
  deriving DecidableEq, Repr

/-- A class as a snapshot's STATE part holds it (R78, R120), with its segments' bytes. The keys of its tables are those within the class. -/
structure SavedClass where
  cls : Cls
  regs : Table Word
  cregs : Table Word
  timelines : Table Timeline
  scratch : Memory
  troupes : Table Troupe
  threads : Table Thread
  ended : Table Thread
  bins : Table Bin
  reqs : List (Nat × Request)
  segs : Table (List Byte)
  /-- Bytes of its save block in the image. -/
  block : Nat
  deriving DecidableEq, Repr

/-- A program in a snapshot (R80): what names it, its counts, its classes, the units and classes that still wait to be placed, and its note
queues. -/
structure SavedProgram where
  imageVa : Nat
  launchOff : Nat
  program : Resident
  waiting : List (List Nat)
  relaunch : List Nat
  notes : Table NoteQueue
  classes : List SavedClass
  deriving DecidableEq, Repr

/-- A snapshot that the device remembers (R68, R77 to R80): its context, which quiesce it is, its image, and the programs in it. -/
structure Snap where
  ctx : Nat
  num : Nat
  image : List Byte
  saved : List SavedProgram
  deriving DecidableEq, Repr

/-- A context as it stands (R47, R117). -/
structure Ctx where
  root : Nat
  built : Bool
  priority : Nat
  coreQuota : Nat
  l2share : Nat
  memQuota : Nat
  memUsed : Nat
  saveArea : Nat
  saveSize : Nat
  saveBlocks : List (Nat × Nat)
  held : Bool
  /-- The tick clock (R117): the period in force and the next one in µs, the next boundary and the count. -/
  tickOn : Bool
  period : Nat
  nextPeriod : Nat
  nextAt : Nat
  ticks : Nat
  /-- Pages of a restored snapshot chain (R80): virtual page and the bytes of its newest copy. -/
  restore : List (Nat × List Byte)
  /-- The programs saved in that chain, newest first, whose classes resume (R80). -/
  saved : List SavedProgram
  /-- For each quiesce of the context, in order, the pages that it found written since the one before (R79). -/
  quiesces : List (List Nat)
  deriving DecidableEq, Repr

/-- A mapping as it stands (R48, R90), or the image of a RESIDENT (R51): the body in force, and its frames. -/
structure Map where
  ctx : Nat
  va : Nat
  len : Nat
  srckind : Nat
  mclass : Nat
  place : Nat
  perms : Nat
  pagesize : Nat
  dirty : Nat
  source : Nat
  /-- Device-physical address of the frame of each 4 KiB virtual page (key: page number). -/
  frames : Table Nat
  /-- The frames were allocated from free pages (R90); those of an in-place mapping were not. -/
  owns : Bool
  /-- First page of each unit of PAGESIZE whose frame is still to be filled (step 0x02). -/
  fresh : List Nat
  /-- Virtual pages lost to an uncorrectable error (R165). -/
  lost : List Nat
  deriving DecidableEq, Repr

/-- Mark states (R55). -/
inductive MarkState where
  | unseen | pending | blocked | converging | converged | draining | absent | conflict | refused | faulted | complete
  deriving DecidableEq, Repr

/-- What a mark reports (R53). -/
structure Mark where
  state : MarkState
  step : Nat
  reason : Nat
  done : Nat
  total : Nat
  observed : Nat
  writer : Nat
  deriving DecidableEq, Repr

/-- A prompt-book entry (R75). -/
structure Entry where
  /-- The last accepted copy's 128 bytes and its VERSION o (R42). -/
  copy : List Byte
  o : Nat
  /-- The newest copy that R43 accepted, if any: what is owed convergence. -/
  want : Option (List Byte)
  /-- The copy whose actual state exists, if any. -/
  built : Option (List Byte)
  /-- The last mark of its state, CONFLICT and REFUSED set aside (R65). -/
  stand : Mark
  /-- The mark shown last (R38, R42). -/
  shown : Mark
  /-- The mark with which it last became CONVERGED or COMPLETE (R64). -/
  last : Mark
  /-- What is still to be done for `want`: torn down first, and the build steps left, in order (R64). -/
  tear : Bool
  plan : List Nat
  /-- Torn down with its context (R68). -/
  orphan : Bool
  /-- The actual state has been CONVERGED; and some state of this id has been (R51). -/
  conv : Bool
  ever : Bool
  /-- The build follows a teardown by the same version: a QUEUE's items are discarded (R64, R71). -/
  again : Bool
  /-- A teardown that has begun runs to its ABSENT mark, whatever the version that came meanwhile (R69). -/
  ending : Bool
  /-- How far a step has come that waits between passes: SNAPSHOT 0x01 (1 awaits its tick boundary, 2 quiescing, 3 quiesced, 4 its image sent to a peer and not yet visible), FIRMWARE
  0x02 (dies done). -/
  phase : Nat
  deriving DecidableEq, Repr

/-- The configuration image (R10, R33, R90, R81): its bytes, and what the model uses of it. -/
structure CfgImage where
  device : BitVec 12
  mkoff : Nat
  hdmSize : Nat
  scan : Bool
  version : Nat
  /-- Its signature verifies (R82). -/
  verifies : Bool
  /-- The physical core, 0 to 67 of its die, that each logical core is given (R10); an unlisted one has the physical core of its number. -/
  coreMap : Table Nat
  bytes : List Byte
  deriving DecidableEq, Repr

/-- A hold in reset (R15, R17). -/
inductive Hold where
  | power | thermal | image
  deriving DecidableEq, Repr

/-- What the I3C management interface gives out (R15, R19, R33, R84, R30). -/
inductive I3cOut where
  | powerFault | duplicateDevice | imageFailed
  | telemetry (words : List Nat)
  | spdm (bs : List Byte)
  deriving DecidableEq, Repr

/-- The Kelnan DVSEC and its mailbox (R27, R30). -/
structure Dvsec where
  pben : Bool
  pblive : Bool
  pberr : Bool
  baseLo : BitVec 20
  baseHi : BitVec 20
  count : BitVec 21
  mkien : Bool
  mkvec : BitVec 11
  mbctl : Word
  mbstat : Word
  mbwr : List Word
  mbrd : List Word
  deriving DecidableEq, Repr

/-- The instruction about to issue (R125): the class and troupe position, the active mask and the program counter. -/
structure Group where
  ck : Nat
  p : Nat
  mask : Word
  pc : DWord
  deriving DecidableEq, Repr

/-- Pages of the reserved part in use (R90): first page, how many, and for whom: `2 * record id` for the page tables of a context,
`2 * class key + 1` for the private segments of a class. -/
structure Reserve where
  page : Nat
  count : Nat
  for_ : Nat
  deriving DecidableEq, Repr

/-- What an outside event does to the pass during which it falls (R26, R66): a BISnp of a bias flip of a MAPPING gets no answer on a port,
or a record's step meets an uncorrectable error. -/
inductive Mishap where
  | bisnp (id port : Nat)
  | lost (id : Nat)
  deriving DecidableEq, Repr

/-! ## The module -/

/-- Everything in the module that the scan port can shift out (R19): neither host memory nor what has left the module is in it (log 61,
DESIGN CHOICE). -/
structure Module where
  -- clocks, resets and links
  timebase : Nat
  mainMHz : Nat
  frozen : Bool
  freezePin : Bool
  hold : Option Hold
  port1Used : Bool
  linkUp0 : Bool
  linkUp1 : Bool
  /-- Another module in the domain has its device number: every Gratric port stays down (R33). -/
  duplicate : Bool
  errCorrected : Table Nat
  errUncorrected : Table Nat
  cfg : CfgImage
  cfgFlash : CfgImage
  fwVersion : Table Nat
  walkVersion : Table Nat
  /-- The routine store of each die, as a FIRMWARE record last replaced it (R91). -/
  routines : Table (List Byte)
  /-- The physical core that serves each logical one (R10), and the physical cores retired: `68 * die + core` (R11, R81). -/
  coreMap : Table Nat
  retiredCores : List Nat
  /-- A configuration image has been written to the flash since the last module reset (R81). -/
  newImage : Bool
  vacant : List Nat
  retiredChannels : List Nat
  -- DVSEC and playbill
  dvsec : Dvsec
  /-- PBBASE and PBCOUNT as latched (R28). -/
  playbill : Option (Nat × Nat)
  /-- Host physical address at which the host sees HDM offset 0 (log 9, DESIGN CHOICE). -/
  hdmBase : Nat
  /-- The watch filter of each die: the lines of a playbill in host memory that it holds in S, by line index (R59, R325). -/
  watch : Table (List Nat)
  flags : List Nat
  wake : Bool
  fullRead : Bool
  lastRev : Nat
  lastPassEnd : Nat
  mishap : Option Mishap
  markSeq : Word
  marksWritten : Bool
  book : Table Entry
  frames : Table Frame
  ctxs : Table Ctx
  maps : Table Map
  snaps : Table Snap
  reserved : List Reserve
  -- memory and caches
  dmem : Memory
  scratch : Memory
  absent : Table Nat
  l1 : Table L1Line
  rdc : Table RdcLine
  corePhase : Table PhaseState
  rdcPhase : Table PhaseState
  dirPred : Table Nat
  /-- Write-backs on their way from a remote-data cache to the home, oldest first (R153). -/
  passing : List Passing
  /-- Lines whose bytes a core has read ahead of the loads that will return them, by L1 key (R172). -/
  early : Table (List Byte)
  /-- Stores that have issued and are not yet performed, oldest first, and loads that may yet be performed later than they issued (R167, R172). -/
  lateStores : List LateStore
  lateLoads : List LateLoad
  /-- Bytes that an uncorrectable error has spoiled and nothing has written since (R165): of device memory by address,
  of scratch by key, and registers by key. -/
  badDev : List Nat
  badScratch : List Nat
  badRegs : List Nat
  /-- The 64-byte CXL lines of device-biased pages that the host is recorded as possibly holding (R25). -/
  biasHolders : List Nat
  coreTlb : Table (List TlbEntry)
  dieTlb : Table (List TlbEntry)
  icache : Table (List Byte)
  -- programs
  residents : Table Resident
  ushers : Table Usher
  placeSeq : Nat
  classes : Table Cls
  troupes : Table Troupe
  threads : Table Thread
  /-- Threads that have exited, as they stood: a save block holds every lane's record (R120). -/
  ended : Table Thread
  regs : Table Word
  cregs : Table Word
  /-- The issue number of the last write of a c register by each section (R133): key `(ck * 8 + i) * 4 + section`. -/
  cregSeq : Table Nat
  /-- When each c register was last written: `4 * core cycle + section` (R133). -/
  cregLast : Table Nat
  timelines : Table Timeline
  bins : Table Bin
  cores : Table CoreState
  noteQueues : Table NoteQueue
  cbs : Table ControlBlock
  -- engines
  nextReq : Nat
  reqs : Table Request
  fabOps : Table FabOp
  /-- Images on their way through a PEER window: the operation's number, and the SNAPSHOT's record (R78). -/
  imagesOut : Table Nat
  windows : Table Window
  ports : Table Port
  mats : Table Matrix
  /-- Instructions issued so far (R125, R133), and the chosen group. -/
  issueSeq : Nat
  issue : Option Group
  deriving DecidableEq, Repr

/-- What leaves the module for the host, the scan port or a fabric peer. -/
inductive HostOut where
  | data (bs : List Byte)
  | noAnswer
  /-- The scan port: the whole state, or BYPASS and IDCODE alone (R19). -/
  | scan (m : Option Module)
  /-- The answer to a peer's fabric operation: refused, or acknowledged with a GET's data (R34, R345). -/
  | fabric (refused : Bool) (bs : List Byte)
  /-- A snapshot's image written through a PEER window (R78): the operation's number, the window number, the offset in it and the bytes. -/
  | image (op win off : Nat) (bs : List Byte)
  deriving DecidableEq, Repr

/-- The whole module, and what is no part of it: host memory with its spoiled bytes (R165; log 2, DESIGN CHOICE), what has left the module, its interrupts
included, and the model's own fields (log 3, 4, DESIGN CHOICE): the counter of free values and the outside events still to come. -/
structure State extends Module where
  hmem : Memory
  badHost : List Nat
  irqs : List Nat
  i3c : List I3cOut
  hostOut : List HostOut
  free : Nat
  agenda : List Instr
  deriving DecidableEq, Repr

/-- The configuration image a module is delivered with, as far as the model uses it (log 9, DESIGN CHOICE). -/
def CfgImage.delivered : CfgImage :=
  ⟨0, 0, 0x4000000000, false, 1, true, [], []⟩

/-- The reset values of R27. -/
def Dvsec.reset : Dvsec := ⟨false, false, false, 0, 0, 0, false, 0, 0, 0, [], []⟩

/-- The module right after a module reset (R20, R27, R54, R76, R105). -/
def State.reset : State where
  timebase := 0
  mainMHz := 1900
  frozen := false
  freezePin := false
  hold := none
  port1Used := false
  linkUp0 := true
  linkUp1 := false
  i3c := []
  duplicate := false
  errCorrected := []
  errUncorrected := []
  cfg := CfgImage.delivered
  cfgFlash := CfgImage.delivered
  fwVersion := []
  walkVersion := []
  routines := []
  coreMap := []
  retiredCores := []
  newImage := false
  vacant := []
  retiredChannels := []
  irqs := []
  hostOut := []
  dvsec := Dvsec.reset
  playbill := none
  hdmBase := 0x8000000000000
  watch := []
  flags := []
  wake := false
  fullRead := false
  lastRev := 0
  lastPassEnd := 0
  mishap := none
  markSeq := 0
  marksWritten := false
  book := []
  frames := []
  ctxs := []
  maps := []
  snaps := []
  reserved := []
  dmem := []
  hmem := []
  scratch := []
  absent := []
  l1 := []
  rdc := []
  corePhase := []
  rdcPhase := []
  dirPred := []
  passing := []
  early := []
  lateStores := []
  lateLoads := []
  badDev := []
  badHost := []
  badScratch := []
  badRegs := []
  biasHolders := []
  coreTlb := []
  dieTlb := []
  icache := []
  residents := []
  ushers := []
  placeSeq := 0
  classes := []
  troupes := []
  threads := []
  ended := []
  regs := []
  cregs := []
  cregSeq := []
  cregLast := []
  timelines := []
  bins := []
  cores := []
  noteQueues := []
  cbs := []
  nextReq := 0
  reqs := []
  fabOps := []
  imagesOut := []
  windows := []
  ports := []
  mats := []
  free := 0
  issueSeq := 0
  agenda := []
  issue := none

end Sys2Proof.Machine
end

