-- ==== Sys2Proof/Machine/Table.lean ====
section
/-! DEFINITION. Sparse tables, and memory as bytes at addresses (R2). -/

namespace Sys2Proof.Machine

/-- The entry at key `k`, if one is listed. -/
def tfind {α : Type} : Table α → Nat → Option α
  | [], _ => none
  | (j, v) :: r, k => if j = k then some v else tfind r k

/-- What key `k` reads as, where unlisted keys read as `d`. -/
def tget {α : Type} (d : α) (t : Table α) (k : Nat) : α := (tfind t k).getD d

/-- The table with `v` at key `k`, in rising order of keys. -/
def tput {α : Type} : Table α → Nat → α → Table α
  | [], k, v => [(k, v)]
  | (j, u) :: r, k, v => if k < j then (k, v) :: (j, u) :: r else if k = j then (k, v) :: r else (j, u) :: tput r k v

/-- The table with nothing listed at key `k`. -/
def tdel {α : Type} (t : Table α) (k : Nat) : Table α := t.filter (fun c => c.1 != k)

/-- The table where key `k` reads as `v`, and no entry equals what an unlisted key reads as. -/
def tset {α : Type} [DecidableEq α] (d : α) (t : Table α) (k : Nat) (v : α) : Table α :=
  if v = d then tdel t k else tput t k v

/-- The entry at `k`, where there is one, changed by `f`. -/
def tupd {α : Type} (t : Table α) (k : Nat) (f : α → α) : Table α :=
  match tfind t k with
  | some v => tput t k (f v)
  | none => t

/-- The table without the keys that `p` rejects. -/
def tkeep {α : Type} (p : Nat → Bool) (t : Table α) : Table α := t.filter (fun c => p c.1)

/-- Keys strictly rise. -/
def rising {α : Type} : Table α → Bool
  | [] => true
  | [_] => true
  | a :: b :: r => a.1 < b.1 && rising (b :: r)

/-- The canonical form: keys strictly rise, and no entry reads as an unlisted key does. -/
def canonical {α : Type} [DecidableEq α] (d : α) (t : Table α) : Bool := rising t && t.all (fun c => c.2 != d)

/-- What a byte of memory that nothing has written reads as (log 1, 2, DESIGN CHOICE; R104 for scratch). -/
def unwritten : Byte := 0

/-- The canonical form of a memory. -/
def Memory.wf (m : Memory) : Bool := canonical unwritten m

/-- One byte. -/
def rd8 (m : Memory) (a : Nat) : Byte := tget unwritten m a

/-- One byte written. -/
def wr8 (m : Memory) (a : Nat) (v : Byte) : Memory := tset unwritten m a v

/-- `n` bytes from `a` upward. -/
def rdBytes (m : Memory) (a : Nat) : Nat → List Byte
  | 0 => []
  | n + 1 => rd8 m a :: rdBytes m (a + 1) n

/-- Bytes written from `a` upward, the first at `a`. -/
def wrBytes (m : Memory) (a : Nat) : List Byte → Memory
  | [] => m
  | b :: bs => wrBytes (wr8 m a b) (a + 1) bs

/-- The little-endian value of the `n` bytes at `a` (R2). -/
def rdNat (m : Memory) (a n : Nat) : Nat := wordOfBytes (rdBytes m a n)

/-- The `n` low bytes of `v` stored little-endian at `a` (R2). -/
def wrNat (m : Memory) (a n v : Nat) : Memory := wrBytes m a (bytesOfNat n v)

/-- A little-endian field of `n` bytes at offset `o` of a list of bytes. -/
def fieldAt (bs : List Byte) (o n : Nat) : Nat := wordOfBytes ((bs.drop o).take n)

end Sys2Proof.Machine
end

