-- ==== Sys2Proof/Machine/Num.lean ====
section
/-! DEFINITION. Integer helpers of the pseudocode (R5), shared by the instruction entries. -/

namespace Sys2Proof.Machine

/-- `blen(x)` (R5). -/
def blen (x : Nat) : Nat := if x = 0 then 0 else Nat.log2 x + 1

/-- An integer taken modulo 2^32 (R258). -/
def wordOfInt (x : Int) : Word := BitVec.ofInt 32 x

/-- A 64-bit value from its low and high registers (R180). -/
def pairOf (lo hi : Word) : DWord := hi ++ lo

/-- The low half of a pair. -/
def loHalf (v : DWord) : Word := v.setWidth 32

/-- The high half of a pair. -/
def hiHalf (v : DWord) : Word := BitVec.ofNat 32 (v.toNat / 2 ^ 32)

/-- One when the relation holds, zero otherwise (R262). -/
def bool32 (b : Bool) : Word := if b then 1 else 0

/-- `sext` of a register-sized immediate (R250, R265). -/
def sext32 {n : Nat} (i : BitVec n) : Word := i.signExtend 32

/-- Number of 1 bits (R261). -/
def popCount (a : Word) : Nat := ((List.range 32).filter (fun i => a.getLsbD i)).length

/-- Index of the lowest 1 bit; 32 for zero (R261). -/
def countTrailing (a : Word) : Nat := ((List.range 32).find? (fun i => a.getLsbD i)).getD 32

/-- 32 - blen(a) (R261). -/
def countLeading (a : Word) : Nat := 32 - blen a.toNat

/-- Bit i moved to bit 31 - i (R261). -/
def bitReverse (a : Word) : Word :=
  BitVec.ofNat 32 ((List.range 32).foldl (fun acc i => if a.getLsbD i then acc + 2 ^ (31 - i) else acc) 0)

/-- The round-to-nearest-even integer of m / 2^n for a natural m (R5). -/
def rneShift (m n : Nat) : Nat :=
  let q := m / 2 ^ n
  let r := m % 2 ^ n
  if 2 * r > 2 ^ n then q + 1 else if 2 * r = 2 ^ n then q + q % 2 else q

/-- RNE of x / 2^n for an integer x. -/
def rneShiftInt (x : Int) (n : Nat) : Int :=
  if x < 0 then -((rneShift x.natAbs n : Nat) : Int) else (rneShift x.natAbs n : Nat)

/-- floor(q * 2^k) for an integer q and an integer exponent k. -/
def floorScale (q k : Int) : Int :=
  if 0 ≤ k then q * (2 ^ k.toNat : Nat) else q / ((2 ^ (-k).toNat : Nat) : Int)

/-- Ten rounds of Philox-4x32 (R352). -/
def philoxRounds : Nat → Word → Word → List Word → List Word
  | 0, _, _, x => x
  | n + 1, k0, k1, x =>
    let x0 := x.getD 0 0
    let x1 := x.getD 1 0
    let x2 := x.getD 2 0
    let x3 := x.getD 3 0
    let p := 0xD2511F53 * x0.toNat
    let q := 0xCD9E8D57 * x2.toNat
    philoxRounds n (k0 + 0x9E3779B9) (k1 + 0xBB67AE85)
      [BitVec.ofNat 32 (q / 2 ^ 32) ^^^ x1 ^^^ k0, BitVec.ofNat 32 q,
       BitVec.ofNat 32 (p / 2 ^ 32) ^^^ x3 ^^^ k1, BitVec.ofNat 32 p]

/-- Philox-4x32-10 with the counter (c0, c1, 0, 0) (R352). -/
def philox (k c : DWord) : List Word :=
  philoxRounds 10 (loHalf k) (hiHalf k) [loHalf c, hiHalf c, 0, 0]

/-- CRC-32C of bytes, reflected, without the final XOR (R41). -/
def crcByte : Nat → Nat → Nat
  | 0, c => c
  | n + 1, c => crcByte n (if c % 2 = 1 then (c / 2) ^^^ 0x82F63B78 else c / 2)

/-- CRC-32C (R41). -/
def crc32c (bs : List Byte) : Nat :=
  (bs.foldl (fun c b => crcByte 8 (c ^^^ b.toNat)) 0xFFFFFFFF) ^^^ 0xFFFFFFFF

/-- Integer square root, bit by bit from bit `i - 1` down. -/
def isqrtAux : Nat → Nat → Nat → Nat
  | 0, _, r => r
  | i + 1, n, r => if (r + 2 ^ i) * (r + 2 ^ i) ≤ n then isqrtAux i n (r + 2 ^ i) else isqrtAux i n r

/-- The greatest integer whose square is at most n. -/
def isqrt (n : Nat) : Nat := isqrtAux ((blen n + 1) / 2) n 0

end Sys2Proof.Machine
end

