-- ==== Sys2Proof/Machine/Ops.lean ====
section
/-! DEFINITION. The named operations over threads, registers and control state: the keys of the tables, reading and writing
registers (R130 to R134), the outstanding set (R138), taking a trap and returning from one (R142 to R144), the abort of a
region (R221), and what ends an instruction in one lane (R137). -/

namespace Sys2Proof.Machine

/-! ## Keys -/

/-- The key of a class. -/
def ckOf (rid idx : Nat) : Nat := rid * 2 ^ 48 + idx

/-- The record id of a class's RESIDENT. -/
def ridOf (ck : Nat) : Nat := ck / 2 ^ 48

/-- The key of a troupe position of a class. -/
def pkey (ck p : Nat) : Nat := ck * 64 + p

/-- The key of a thread. -/
def tkey (ck p l : Nat) : Nat := pkey ck p * 32 + l

/-- The class, position and lane of a thread's key. -/
def ckOfT (tk : Nat) : Nat := tk / 2048
def posOfT (tk : Nat) : Nat := tk / 32 % 64
def laneOfT (tk : Nat) : Nat := tk % 32

/-- The key of allocation register `a` of lane `l` at position `p`: the word order of the register aperture (R135). -/
def regKey (ck p a l : Nat) : Nat := (pkey ck p * 1024 + a) * 32 + l

/-- The key of a core. -/
def coreKey (die core : Nat) : Nat := die * 64 + core

/-! ## What an unlisted entry reads as -/

/-- A thread at the start of its life, before placement sets its words (R104). -/
def Thread.blank : Thread :=
  ⟨0, 0, 0, 0, 0, false, 0, 0, 0, [], 0, 0, 0, [], none, none, false, 0, none, none, none, false, 0⟩

def Troupe.blank : Troupe := ⟨0, 0, 0, false, [], [], [], []⟩

def Launch.blank : Launch := ⟨[], 0, false, false, 0, 0, 0, 0, 0, 0, 0, []⟩

def Resident.blank : Resident := ⟨0, 0, 0, 0, 0, 0, 0, Launch.blank, 0, [], 0, 0, 0, [], [], none, false⟩

def Cls.blank : Cls := ⟨0, 0, 0, 0, 0, false, 0, 0, [], [], [], [], [], 0, false, false, none, none⟩

def Timeline.blank : Timeline := ⟨0, []⟩

def CoreState.blank : CoreState := ⟨0, [], []⟩

def PhaseState.blank : PhaseState := ⟨0, false⟩

/-- A slate in the state of R192. -/
def Slate.blank : Slate := ⟨[], false, 0, false⟩

/-- A row in the state of R192. -/
def Row.blank : Row := ⟨List.replicate 32 0, 0, true, false, false⟩

def Fifo.blank : Fifo := ⟨[], 0⟩

def Matrix.blank : Matrix := ⟨[], [], [], [], [], [], false, 0, 0⟩

def NoteQueue.blank : NoteQueue := ⟨0, 0, []⟩

def Group.blank : Group := ⟨0, 0, 0, 0⟩

def Usher.blank : Usher := ⟨[], [], [], 0, false, [], none⟩

/-! ## Accessors -/

def threadAt (s : State) (tk : Nat) : Thread := tget Thread.blank s.threads tk
def troupeAt (s : State) (ck p : Nat) : Troupe := tget Troupe.blank s.troupes (pkey ck p)
def clsAt (s : State) (ck : Nat) : Cls := tget Cls.blank s.classes ck
def residentAt (s : State) (rid : Nat) : Resident := tget Resident.blank s.residents rid
def launchOf (s : State) (ck : Nat) : Launch := (residentAt s (ridOf ck)).launch
def timelineAt (s : State) (ck t : Nat) : Timeline := tget Timeline.blank s.timelines (ck * 8 + t)
/-- The class runs: it is placed, and not held for a snapshot (R77). -/
def active (s : State) (ck : Nat) : Bool := (clsAt s ck).placed && !(clsAt s ck).quiesced
def coreOfCls (c : Cls) : Nat := coreKey c.die c.core
def coreOf (s : State) (ck : Nat) : Nat := coreOfCls (clsAt s ck)
/-- The cycle count of a core (R140). -/
def coreCycle (s : State) (core : Nat) : Nat := (tget CoreState.blank s.cores core).cycle
def corePhaseAt (s : State) (core : Nat) : PhaseState := tget PhaseState.blank s.corePhase core
def matrixAt (s : State) (core : Nat) : Matrix := tget Matrix.blank s.mats core
def slateAt (m : Matrix) (n : Nat) : Slate := tget Slate.blank m.slates n
def rowAt (sl : Slate) (i : Nat) : Row := tget Row.blank sl.rows i
def usherAt (s : State) (die : Nat) : Usher := tget Usher.blank s.ushers die
def fifoAt (m : Matrix) (f : Nat) : Fifo := tget Fifo.blank m.fifos f

def setThread (s : State) (tk : Nat) (t : Thread) : State := { s with threads := tput s.threads tk t }
def updThread (s : State) (tk : Nat) (f : Thread → Thread) : State := { s with threads := tupd s.threads tk f }
def updTroupe (s : State) (ck p : Nat) (f : Troupe → Troupe) : State := { s with troupes := tupd s.troupes (pkey ck p) f }
def updCls (s : State) (ck : Nat) (f : Cls → Cls) : State := { s with classes := tupd s.classes ck f }
def updResident (s : State) (rid : Nat) (f : Resident → Resident) : State := { s with residents := tupd s.residents rid f }
def updUsher (s : State) (die : Nat) (f : Usher → Usher) : State := { s with ushers := tput s.ushers die (f (usherAt s die)) }
def setTimeline (s : State) (ck t : Nat) (v : Timeline) : State :=
  { s with timelines := tset Timeline.blank s.timelines (ck * 8 + t) v }
def setMatrix (s : State) (core : Nat) (m : Matrix) : State := { s with mats := tset Matrix.blank s.mats core m }

/-- A free natural, and the state with the counter advanced. -/
def draw (s : State) : Nat × State := (Config.free s.free, { s with free := s.free + 1 })

/-- The group whose instruction executes (R125); a blank one when no instruction is at issue. A position is below 64 (R123). -/
def groupOf (s : State) : Group := let g := s.issue.getD Group.blank; { g with p := g.p % 64 }

def Group.tk (g : Group) (l : Nat) : Nat := tkey g.ck g.p l

/-- A lane of a mask. -/
def inMask (m : Word) (l : Nat) : Bool := m.getLsbD l

/-- The lanes of a mask, ascending. -/
def lanesOf (m : Word) : List Nat := (List.range 32).filter (fun l => inMask m l)

/-- A mask of lanes. -/
def maskOf (ls : List Nat) : Word := BitVec.ofNat 32 (ls.foldl (fun acc l => acc ||| 2 ^ l) 0)

/-- The executing lanes: those of the active mask whose thread is live (R123, R125). -/
def activeLanes (s : State) (g : Group) : List Nat :=
  (lanesOf g.mask).filter (fun l => (tfind s.threads (g.tk l)).isSome)

/-! ## Registers (R130 to R133) -/

/-- The value of register field `n` in lane `l`, through the thread's window (R130). -/
def readReg (s : State) (g : Group) (l n : Nat) : Word :=
  if n = 0 then 0
  else if n < 112 then tget 0 s.regs (regKey g.ck g.p ((threadAt s (g.tk l)).wb.toNat + n) l)
  else if n < 120 then tget 0 (troupeAt s g.ck g.p).kregs (n - 112)
  else tget 0 s.cregs (g.ck * 8 + (n - 120))

/-- A pair as one 64-bit value (R258). -/
def readPair (s : State) (g : Group) (l n : Nat) : DWord := pairOf (readReg s g l n) (readReg s g l (n + 1))

/-- The destination that a field names at issue (R131): none for g0. -/
def destOf (t : Thread) (n : Nat) : Option Dest :=
  if n = 0 then none
  else if n < 112 then some (.alloc (t.wb.toNat + n))
  else if n < 120 then some (.kreg (n - 112))
  else some (.creg (n - 120))

/-- The moment of a c register's write: writes of different sections in one cycle count in ascending section order (R133). -/
def cregStamp (s : State) (ck p : Nat) : Nat := 4 * coreCycle s (coreOf s ck) + p % 4

/-- A write of one destination by a thread's instruction with issue number `seq`. A k or c register keeps a later-issued
write of its troupe or section, and a c register that of a higher section in the same cycle (R132, R133). -/
def writeDest (s : State) (tk seq : Nat) (d : Dest) (v : Word) : State :=
  let ck := ckOfT tk
  let p := posOfT tk
  match d with
  | .zero => s
  | .alloc a =>
    let k := regKey ck p a (laneOfT tk)
    { s with regs := tset 0 s.regs k v, badRegs := s.badRegs.filter (· != k) }
  | .kreg n =>
    updTroupe s ck p (fun t =>
      if tget 0 t.kseq n < seq then { t with kregs := tset 0 t.kregs n v, kseq := tset 0 t.kseq n seq } else t)
  | .creg n =>
    let sk := (ck * 8 + n) * 4 + p % 4
    if tget 0 s.cregSeq sk ≤ seq ∧ tget 0 s.cregLast (ck * 8 + n) ≤ cregStamp s ck p then
      { s with cregs := tset 0 s.cregs (ck * 8 + n) v, cregSeq := tset 0 s.cregSeq sk seq,
               cregLast := tset 0 s.cregLast (ck * 8 + n) (cregStamp s ck p) }
    else s

/-- Writes of several destinations, in order. -/
def writeDests (s : State) (tk seq : Nat) (ws : List (Dest × Word)) : State :=
  ws.foldl (fun s w => writeDest s tk seq w.1 w.2) s

/-- The destinations of writes named by register field; g0 discards (R130). -/
def destsOf (t : Thread) (ws : List (Nat × Word)) : List (Dest × Word) :=
  ws.filterMap (fun w => (destOf t w.1).map (fun d => (d, w.2)))

/-! ## The outstanding set (R138) -/

/-- The bit of the outstanding set for a destination; g0 is never in the set (`outAdd`). -/
def outBit : Dest → Nat
  | .zero => 0
  | .alloc a => a
  | .kreg n => 1024 + n
  | .creg n => 1032 + n

/-- Whether register field `n` is in the thread's outstanding set; g0 never is. -/
def outstanding (t : Thread) (n : Nat) : Bool :=
  match destOf t n with
  | some d => t.out.getLsbD (outBit d)
  | none => false

/-- The set with more destinations in it. -/
def outAdd (o : BitVec 1040) (ds : List Dest) : BitVec 1040 :=
  ds.foldl (fun o d => if d = .zero then o else o ||| BitVec.ofNat 1040 (2 ^ outBit d)) o

/-! ## Regions: the abort (R214, R221) -/

/-- The status word (R214). -/
def statusWord (code detail changed : Nat) : Word := BitVec.ofNat 32 (changed % 65536 * 65536 + detail % 256 * 256 + code % 256)

/-- The registers of one thread, as (allocation register, value), ascending. -/
def threadRegs (s : State) (tk : Nat) : List (Nat × Word) :=
  s.regs.filterMap (fun e =>
    if e.1 / 32768 = tk / 32 && e.1 % 32 = laneOfT tk then some (e.1 / 32 % 1024, e.2) else none)

/-- The registers of one thread replaced. -/
def restoreRegs (s : State) (tk : Nat) (rs : List (Nat × Word)) : State :=
  let kept := s.regs.filter (fun e => !(e.1 / 32768 = tk / 32 && e.1 % 32 = laneOfT tk))
  { s with regs := rs.foldl (fun t r => tset 0 t (regKey (ckOfT tk) (posOfT tk) r.1 (laneOfT tk)) r.2) kept,
           badRegs := s.badRegs.filter (fun k => !(k / 32768 = tk / 32 && k % 32 = laneOfT tk)) }

/-- The status register of a region receives a status word (R214); D = 0 discards it. -/
def writeStatus (s : State) (tk : Nat) (r : Region) (w : Word) : State :=
  match destOf (threadAt s tk) r.status.toNat with
  | some d => writeDest s tk s.issueSeq d w
  | none => s

/-- The abort of a thread's open region (R221): stores are dropped, registers and the window restored, outstanding results
discarded, and the PC is the fallback target. -/
def abortRegion (s : State) (tk code detail : Nat) : State :=
  match tfind s.threads tk with
  | none => s
  | some t =>
    match t.region with
    | none => s
    | some r =>
      let t := { t with region := none, wb := r.ckWb, out := 0, pend := [], markWait := false, park := none, parkSeq := 0,
                        pc := r.fallback }
      let s := restoreRegs (setThread s tk t) tk r.ckRegs
      writeStatus s tk r (statusWord code detail 0)

/-! ## Traps (R141 to R144) -/

/-- The cause codes (R141). -/
def Cause.code : Cause → Nat
  | .illegal => 0x01 | .hazard => 0x02 | .align => 0x03 | .access => 0x04 | .stackLimit => 0x05 | .scratchLimit => 0x06
  | .window => 0x07 | .formatDivergence => 0x08 | .format => 0x09 | .uniformSplit => 0x0A | .bound => 0x0B | .brk => 0x0C
  | .trap => 0x0D | .slateOwner => 0x0E | .memoryError => 0x0F | .queue => 0x10 | .region => 0x11 | .fabric => 0x12
  | .signal => 0x20 | .nested => 0x30 | .vector => 0x31

/-- A trap that goes to the reconciler (R144): the RESIDENT's classes are to be killed, with reason 0x04cc; the first cause
stands. The thread does not go on; the cause and its value are recorded in it (R141). -/
def toReconciler (s : State) (tk : Nat) (c : Cause) (v : DWord) : State :=
  let s := updThread s tk (fun t => { t with park := some .reconciler, markWait := false, cause := BitVec.ofNat 8 c.code, tval := v })
  updResident s (ridOf (ckOfT tk)) (fun r =>
    { r with killPending := some (r.killPending.getD (BitVec.ofNat 16 (0x0400 + c.code))) })

/-- The trap vector of a class (R142). -/
def vectorOf (s : State) (ck : Nat) : DWord :=
  let r := residentAt s (ridOf ck)
  BitVec.ofNat 64 (r.imageVa + r.launch.trapVec)

/-- Trap entry once every deferred result of the thread is written (R142). The outstanding set is empty (R138). -/
def enterTrap (s : State) (tk : Nat) (c : Cause) (v epc : DWord) (toRec : Bool) : State :=
  let t := threadAt s tk
  let s := setThread s tk { t with out := 0, park := none, parkSeq := 0, markWait := false }
  if t.inHandler then toReconciler s tk .nested (BitVec.ofNat 64 c.code)
  else if toRec || (launchOf s (ckOfT tk)).trapVec == 0xFFFFFFFF then toReconciler s tk c v
  else
    updThread s tk (fun t => { t with epc := epc, cause := BitVec.ofNat 8 c.code, tval := v, inHandler := true,
                                      pc := vectorOf s (ckOfT tk) })

/-- A trap at a thread (R142): an open region aborts first, and epc is then its fallback target (R219); entry waits for the
deferred results. -/
def trapAt (s : State) (tk : Nat) (c : Cause) (v epc : DWord) (toRec : Bool) : State :=
  match tfind s.threads tk with
  | none => s
  | some t =>
    match t.region with
    | some r => enterTrap (abortRegion s tk 0x15 c.code) tk c v r.fallback toRec
    | none =>
      if t.pend.isEmpty then enterTrap s tk c v epc toRec
      else setThread s tk { t with park := some (.trapEntry c v epc toRec), markWait := false }

/-- The return from a trap (R143). -/
def trapReturn (t : Thread) : Thread := { t with pc := t.epc, inHandler := false }

/-! ## What ends an instruction in one lane -/

/-- One lane's fate in an instruction. -/
inductive LaneAct where
  /-- It traps, with no effect in this thread (R142). -/
  | trap (c : Cause) (v : DWord)
  /-- Its region aborts (R218, R221). -/
  | abort (code detail : Nat)
  /-- It parks at the instruction (R124). -/
  | park (p : Park)
  /-- It writes registers at once and goes to `pc` (R136 immediate). -/
  | done (ws : List (Nat × Word)) (pc : DWord)
  /-- It leaves a deferred result and goes to the next instruction (R136 deferred). -/
  | defer (ws : List (Nat × Word))
  /-- A deferred result whose values a ticket supplies (R198); the fields are written then. -/
  | ticketed (ds : List Nat) (ticket : Nat)
  /-- It leaves a deferred result and parks, its part of the instruction done (BARSYNC: R314). -/
  | deferPark (ws : List (Nat × Word)) (p : Park)
  /-- It has ended (EXIT). -/
  | gone
  deriving DecidableEq, Repr

/-- The PC after an instruction at the group's PC. -/
def nextPc (g : Group) : DWord := g.pc + 4

/-- The marker (R137): with S = 1 the thread waits for every deferred result, its own included, and the set is then empty. -/
def markThread (m : Bool) (t : Thread) : Thread :=
  if m then (if t.pend.isEmpty then { t with out := 0 } else { t with markWait := true }) else t

/-- A thread goes on at `pc`; the instruction is complete. -/
def goOn (m : Bool) (pc : DWord) (t : Thread) : Thread := markThread m { t with pc := pc, parkSeq := 0 }

/-- A thread parks at its instruction; the marker's wait runs beside the park (R137). -/
def parkThread (m : Bool) (seq : Nat) (p : Park) (t : Thread) : Thread :=
  markThread m { t with park := some p, parkSeq := if t.parkSeq = 0 then seq else t.parkSeq, was := if t.parkSeq = 0 then none else t.was }

/-- A deferred result joins the thread's pending results and its outstanding set (R136, R138); an instruction without a
register result leaves nothing outstanding. -/
def addPend (seq : Nat) (waits : Option Nat) (ws : List (Dest × Word)) (t : Thread) : Thread :=
  if ws.all (fun w => w.1 == .zero) then t
  else { t with pend := t.pend ++ [⟨ws, waits, seq⟩], out := outAdd t.out (ws.map (·.1)) }

/-- One lane's fate applied. -/
def applyAct (g : Group) (m : Bool) (seq : Nat) (s : State) (la : Nat × LaneAct) : State :=
  let tk := g.tk la.1
  match la.2 with
  | .trap c v => trapAt s tk c v g.pc false
  | .abort code detail => abortRegion s tk code detail
  | .park p => updThread s tk (parkThread m seq p)
  | .done ws pc => updThread (writeDests s tk seq (destsOf (threadAt s tk) ws)) tk (goOn m pc)
  | .defer ws => updThread s tk (fun t => goOn m (nextPc g) (addPend seq none (destsOf t ws) t))
  | .ticketed ds n =>
    updThread s tk (fun t => goOn m (nextPc g) (addPend seq (some n) (ds.map (fun d => ((destOf t d).getD .zero, 0))) t))
  | .deferPark ws p => updThread s tk (fun t => parkThread m seq p (addPend seq none (destsOf t ws) t))
  | .gone => s

/-- Every lane of an instruction that writes a k register writes the value of the lowest lane that completes (R132). -/
def uniformValue (n : Nat) : List (Nat × LaneAct) → Option Word
  | [] => none
  | (_, .done ws _) :: r => (ws.find? (fun w => w.1 == n)).map (·.2) <|> uniformValue n r
  | (_, .deferPark ws _) :: r => (ws.find? (fun w => w.1 == n)).map (·.2) <|> uniformValue n r
  | (_, .defer ws) :: r => (ws.find? (fun w => w.1 == n)).map (·.2) <|> uniformValue n r
  | _ :: r => uniformValue n r

/-- The writes of k registers made uniform (R132). -/
def fixWrites (all : List (Nat × LaneAct)) (ws : List (Nat × Word)) : List (Nat × Word) :=
  ws.map (fun w => if 112 ≤ w.1 && w.1 < 120 then (w.1, (uniformValue w.1 all).getD w.2) else w)

/-- One lane's fate with its writes of k registers made uniform. -/
def fixAct (all : List (Nat × LaneAct)) : LaneAct → LaneAct
  | .done ws pc => .done (fixWrites all ws) pc
  | .defer ws => .defer (fixWrites all ws)
  | .deferPark ws p => .deferPark (fixWrites all ws) p
  | a => a

/-- The fates of the lanes applied, in ascending lane order. -/
def applyActs (g : Group) (m : Bool) (seq : Nat) (s : State) (acts : List (Nat × LaneAct)) : State :=
  acts.foldl (fun s la => applyAct g m seq s (la.1, fixAct acts la.2)) s

/-! ## Rejoin masks (R129) -/

def enrolledAt (t : Troupe) (j : Nat) : Word := tget 0 t.enrolled j
def arrivedAt (t : Troupe) (j : Nat) : Word := tget 0 t.arrived j

/-- A lane that waits at a JWAIT on mask j goes on after it; it is ready from cycle `now`. -/
def releaseLane (j now : Nat) (t : Thread) : Thread :=
  if t.park = some (.jwait j) then { t with park := none, parkSeq := 0, pc := t.pc + 4, readySince := now } else t

/-- `check(j)`: when every enrolled lane has arrived, all are released and the mask is empty (R129). -/
def checkMask (s : State) (ck p j : Nat) : State :=
  let t := troupeAt s ck p
  let e := enrolledAt t j
  let a := arrivedAt t j
  if e ≠ 0 ∧ e &&& ~~~a = 0 then
    let s := (lanesOf a).foldl (fun s l => updThread s (tkey ck p l) (releaseLane j (coreCycle s (coreOf s ck)))) s
    updTroupe s ck p (fun t => { t with enrolled := tset 0 t.enrolled j 0, arrived := tset 0 t.arrived j 0 })
  else s

/-- Lanes enrolled on mask j. -/
def enrol (j : Nat) (m : Word) (t : Troupe) : Troupe := { t with enrolled := tset 0 t.enrolled j (enrolledAt t j ||| m) }

/-- Lanes arrived at mask j. -/
def arrive (j : Nat) (m : Word) (t : Troupe) : Troupe := { t with arrived := tset 0 t.arrived j (arrivedAt t j ||| m) }

/-- Lanes struck from mask j. -/
def strike (j : Nat) (m : Word) (t : Troupe) : Troupe :=
  { t with enrolled := tset 0 t.enrolled j (enrolledAt t j &&& ~~~m), arrived := tset 0 t.arrived j (arrivedAt t j &&& ~~~m) }

/-- JSTRIKE of a set of lanes on mask j (R129). -/
def strikeMask (s : State) (ck p j : Nat) (m : Word) : State := checkMask (updTroupe s ck p (strike j m)) ck p j

/-- Lanes taken out of the arrived set: a lane that leaves its JWAIT for a trap has not arrived (R129, R145; log 25, DEDUCED). -/
def unarrive (s : State) (ck p : Nat) (m : Word) : State :=
  updTroupe s ck p (fun t => { t with arrived := (List.range 8).foldl (fun a j => tset 0 a j (arrivedAt t j &&& ~~~m)) t.arrived })

end Sys2Proof.Machine
end

