-- ==== Sys2Proof/Machine/Translate.lean ====
section
/-! DEFINITION. Address translation (R85 to R98): the page-table entry, the native walk, the TLBs, and shootdown of the
translations. -/

namespace Sys2Proof.Machine

/-! ## The entry (R88) -/

/-- Bits of an entry. -/
def eBit (e i : Nat) : Bool := e / 2 ^ i % 2 == 1
def eV (e : Nat) : Bool := eBit e 0
def eR (e : Nat) : Bool := eBit e 1
def eW (e : Nat) : Bool := eBit e 2
def eX (e : Nat) : Bool := eBit e 3
def eD (e : Nat) : Bool := eBit e 5
def eMC (e : Nat) : Nat := e / 2 ^ 7 % 4
def eWP (e : Nat) : Bool := eBit e 9
def eMIG (e : Nat) : Bool := eBit e 10
def eBIAS (e : Nat) : Bool := eBit e 11
def ePFN (e : Nat) : Nat := e / 2 ^ 12 % 2 ^ 40
def ePL (e : Nat) : Nat := e / 2 ^ 52 % 16

/-- The entry with bit i set or clear. -/
def setBitTo (e i : Nat) (b : Bool) : Nat := if eBit e i = b then e else if b then e + 2 ^ i else e - 2 ^ i

/-- A leaf entry made of its fields (R88): A and D are given, the rest from the mapping. -/
def mkEntry (pfn mc pl perms : Nat) (bias cont a d : Bool) : Nat :=
  1 + perms * 2 + a.toNat * 2 ^ 4 + d.toNat * 2 ^ 5 + mc * 2 ^ 7 + bias.toNat * 2 ^ 11 + pfn % 2 ^ 40 * 2 ^ 12 + pl * 2 ^ 52
    + cont.toNat * 2 ^ 56

/-! ## The walk (R92) -/

/-- What a walk returns (R91, R93). -/
inductive Walk where
  | leaf (e lv addr : Nat)
  | miss | migrating | perm | bad
  deriving DecidableEq, Repr

/-- A kind of access that an entry does not permit (R92); fabric operations are exempt from the test for REMOTE. -/
def deniedBy (e : Nat) (kind : Kind) (fab : Bool) : Bool :=
  (match kind with
   | .read => !eR e
   | .write => !eW e
   | .exec => !eX e) || (eMC e == 3 && !fab)

/-- The entry as a successful walk leaves it: A set, and D for a write (R94). -/
def accessed (e : Nat) (kind : Kind) : Nat := if kind = .write then setBitTo (setBitTo e 4 true) 5 true else setBitTo e 4 true

/-- The native routine from a table page at `t`, `lv + 1` levels above the pages (R92). -/
def walkAt (m : Memory) (va : Nat) (kind : Kind) (fab : Bool) : Nat → Nat → Walk
  | 0, _ => .bad
  | lv + 1, t =>
    let a := t + 8 * (va / 2 ^ (12 + 9 * lv) % 512)
    let e := rdNat m a 8
    if !eV e then .miss
    else if !eR e && !eW e && !eX e then
      if lv = 0 ∨ e ≠ 1 + ePFN e * 4096 then .bad else walkAt m va kind fab lv (ePFN e * 4096)
    else if lv = 3 ∨ e / 2 ^ 57 ≠ 0 ∨ (eW e && !eR e) then .bad
    else if deniedBy e kind fab then .perm
    else if kind = .write ∧ eWP e then (if eMIG e then .migrating else .perm)
    else .leaf (accessed e kind) lv a

/-- The bytes a leaf at level `lv` maps (R87). -/
def leafBytes (lv : Nat) : Nat := 2 ^ (12 + 9 * lv)

/-- The physical address a leaf gives (R87). -/
def leafPa (e lv va : Nat) : Nat := ePFN e * 4096 + va % leafBytes lv

/-! ## TLBs (R96) -/

/-- An entry of a TLB that serves this access without a walk: it covers the page, permits the kind, and for a write was filled
with D set (R94). -/
def tlbServes (ctx va : Nat) (kind : Kind) (fab : Bool) (t : TlbEntry) : Bool :=
  t.ctx == ctx && decide (t.page ≤ va / 4096) && decide (va / 4096 < t.page + t.pages) && !deniedBy t.leaf.toNat kind fab
    && (kind != .write || (eD t.leaf.toNat && !eWP t.leaf.toNat))

/-- The level of a TLB entry's leaf. -/
def tlbLevel (t : TlbEntry) : Nat := if t.pages = 1 then 0 else if t.pages = 512 then 1 else 2

/-- A TLB with one more entry, within its size; the oldest leave. -/
def tlbPush (n : Nat) (t : TlbEntry) (ts : List TlbEntry) : List TlbEntry :=
  (t :: ts.filter (fun u => !(u.ctx == t.ctx && u.page == t.page))).take n

/-- The entry a walk's leaf makes. -/
def tlbOf (ctx va e lv addr : Nat) : TlbEntry :=
  ⟨ctx, va / leafBytes lv * (leafBytes lv / 4096), leafBytes lv / 4096, BitVec.ofNat 64 e, addr⟩

/-- The root of a context's tables; zero where the context has none built. -/
def rootOf (s : State) (ctx : Nat) : Option Nat := (tfind s.ctxs ctx).bind (fun c => if c.root = 0 then none else some c.root)

/-- A walk by a die's walker: A and D are set by CAS, and the die TLB is filled (R91, R94, R96). -/
def walkFill (s : State) (die ctx va : Nat) (kind : Kind) (fab : Bool) : State × Walk :=
  match rootOf s ctx with
  | none => (s, .miss)
  | some root =>
    match walkAt s.dmem va kind fab 4 root with
    | .leaf e lv a =>
      let s := if rdNat s.dmem a 8 = e then s else { s with dmem := wrNat s.dmem a 8 e }
      ({ s with dieTlb := tput s.dieTlb die (tlbPush 16384 (tlbOf ctx va e lv a) (tget [] s.dieTlb die)) }, .leaf e lv a)
    | w => (s, w)

/-- A translation for a core: its TLB, then its die's, then the walker (R96). -/
def translate (s : State) (core ctx va : Nat) (kind : Kind) (fab : Bool) : State × Walk :=
  match (tget [] s.coreTlb core).find? (tlbServes ctx va kind fab) with
  | some t => (s, .leaf t.leaf.toNat (tlbLevel t) t.entryAddr)
  | none =>
    let fillCore (s : State) (t : TlbEntry) : State :=
      { s with coreTlb := tput s.coreTlb core (tlbPush 256 t (tget [] s.coreTlb core)) }
    match (tget [] s.dieTlb (core / 64)).find? (tlbServes ctx va kind fab) with
    | some t => (fillCore s t, .leaf t.leaf.toNat (tlbLevel t) t.entryAddr)
    | none =>
      match walkFill s (core / 64) ctx va kind fab with
      | (s, .leaf e lv a) => (fillCore s (tlbOf ctx va e lv a), .leaf e lv a)
      | (s, w) => (s, w)

/-- Translations of every context leave a die's TLB and those of its cores (R91). -/
def dropDieTlbs (s : State) (die : Nat) : State :=
  { s with coreTlb := s.coreTlb.filter (fun e => e.1 / 64 != die), dieTlb := tdel s.dieTlb die }

/-- Translations of a context leave every TLB (R98, step 1). -/
def dropTlbs (s : State) (ctx : Nat) : State :=
  let f (t : Table (List TlbEntry)) : Table (List TlbEntry) := t.map (fun e => (e.1, e.2.filter (fun u => u.ctx != ctx)))
  { s with coreTlb := f s.coreTlb, dieTlb := f s.dieTlb }

/-- Both links that the module uses are up (R23, R24). -/
def linksUp (s : State) : Bool := s.linkUp0 && (!s.port1Used || s.linkUp1)

/-- The latched playbill let go: PBEN and PBLIVE fall, and nothing of it is watched (R24, R25, R28). Its pages are again under the bias of
their frame records (log 58, DEDUCED). -/
def dropPlaybill (s : State) : State :=
  { s with playbill := none, fullRead := false, flags := [], watch := [], dvsec := { s.dvsec with pben := false, pblive := false } }

/-- A port belongs to the configuration in use (R23). -/
def portUsed (s : State) (port : Nat) : Bool := port == 0 || (port == 1 && s.port1Used)

/-- A link lost, with the effects of R24 where its port is in use. -/
def dropLink (s : State) (port : Nat) : State :=
  let s' := if port = 0 then { s with linkUp0 := false } else { s with linkUp1 := false }
  if portUsed s port then dropPlaybill s' else s'

/-- The resident frame record of an exported page (R90): interleaved and device-biased while it was never allocated. -/
def frameAt (s : State) (page : Nat) : Frame := tget ⟨0, false, 0⟩ s.frames page

/-! ## Where an address lives -/

/-- The place a leaf gives (R88). -/
def placeOf (e lv va : Nat) : Place := ⟨eMC e == 2, eMC e, ePL e, eBIAS e, leafPa e lv va⟩

/-- The home die of a device-physical address under a placement (R151). -/
def homeDie (pa pl : Nat) : Nat :=
  if 8 ≤ pl then pl % 8
  else
    let g := pa / 1024
    (g % 512 ^^^ g / 2 ^ 9 % 512 ^^^ g / 2 ^ 18 % 512 ^^^ g / 2 ^ 27 % 512 ^^^ g / 2 ^ 36 % 64) / 64

/-- The home channel (R151). -/
def homeChannel (pa pl : Nat) : Nat :=
  let g := pa / 1024
  if 8 ≤ pl then
    64 * (pl % 8) + (g % 64 ^^^ g / 2 ^ 6 % 64 ^^^ g / 2 ^ 12 % 64 ^^^ g / 2 ^ 18 % 64 ^^^ g / 2 ^ 24 % 64 ^^^ g / 2 ^ 30 % 64
      ^^^ g / 2 ^ 36 % 64)
  else g % 512 ^^^ g / 2 ^ 9 % 512 ^^^ g / 2 ^ 18 % 512 ^^^ g / 2 ^ 27 % 512 ^^^ g / 2 ^ 36 % 64

/-! ## Device memory and its reserved part (R12, R90, R151) -/

/-- Bytes of device memory: two stacks for each of eight dies, each of 20 dies of 4 GiB (R12). -/
def deviceBytes : Nat := 16 * (20 * (4 * 2 ^ 30))

/-- Whether a page's granules lie on a retired channel under a placement (R81). -/
def onRetired (s : State) (page pl : Nat) : Bool :=
  !s.retiredChannels.isEmpty && (List.range 4).any (fun k => s.retiredChannels.contains (homeChannel (page * 4096 + k * 1024) pl))

/-- The first `n` free pages of the reserved part, one after the other, from page `p` on, on no retired channel (R90, R151; log 9, DESIGN
CHOICE). -/
def findReserved (s : State) (n pl : Nat) : Nat → Nat → Option Nat
  | 0, _ => none
  | f + 1, p =>
    if deviceBytes < (p + n) * 4096 then none
    else
      match s.reserved.find? (fun r => decide (p < r.page + r.count) && decide (r.page < p + n)) with
      | some r => findReserved s n pl f (r.page + r.count)
      | none =>
        match (List.range n).find? (fun j => onRetired s (p + j) pl) with
        | some j => findReserved s n pl f (p + j + 1)
        | none => some p

/-- Pages of the reserved part taken for an owner: their address; none where there is no room. -/
def takeReserved (s : State) (n pl owner : Nat) : Option (State × Nat) :=
  (findReserved s n pl (s.reserved.length + 4096) (s.cfg.hdmSize / 4096)).map (fun p =>
    ({ s with reserved := s.reserved ++ [⟨p, n, owner⟩] }, p * 4096))

/-- Pages of the reserved part still free. -/
def reservedLeft (s : State) : Nat := (deviceBytes - s.cfg.hdmSize) / 4096 - (s.reserved.map (·.count)).sum

/-- An owner's pages of the reserved part given back. -/
def freeReserved (s : State) (owner : Nat) : State := { s with reserved := s.reserved.filter (fun r => r.for_ != owner) }

/-! ## The host's view of exported memory (R25, R28, R90) -/

/-- A host physical address in the range that the host sees as HDM names device memory (R28, R90; log 9, DESIGN CHOICE). -/
def hdmOffset (s : State) (a : Nat) : Option Nat := if s.hdmBase ≤ a ∧ a < s.hdmBase + s.cfg.hdmSize then some (a - s.hdmBase) else none

/-- The page holds part of the playbill in force (R25). -/
def playbillPage (s : State) (page : Nat) : Bool :=
  match s.playbill with
  | none => false
  | some (b, n) =>
    match hdmOffset s b with
    | some o => decide (o / 4096 ≤ page) && decide (page * 4096 < o + n * 128)
    | none => false

/-- The bias of an exported page: that of its frame record, but host while the page holds the playbill in force (R25; log 58, DEDUCED). -/
def pageBias (s : State) (page : Nat) : Bool := (frameAt s page).bias || playbillPage s page

/-- The CXL lines of a range of device memory. -/
def cxlLines (a n : Nat) : List Nat := if n = 0 then [] else (List.range ((a + n - 1) / 64 + 1 - a / 64)).map (· + a / 64)

/-- The two CXL lines of every 128-byte device line that a range touches (R25). -/
def deviceLines (a n : Nat) : List Nat := if n = 0 then [] else cxlLines (a / 128 * 128) ((a + n + 127) / 128 * 128 - a / 128 * 128)

/-- The device uses `n` bytes of a place: lines of a device-biased page that the host is recorded as holding are back-invalidated first, both of each
device line (R25). While a link is down no BISnp is sent, and the host stays recorded (R24; log 50, DESIGN CHOICE). -/
def recallHost (s : State) (pl : Place) (n : Nat) : State :=
  if pl.host || s.biasHolders.isEmpty || !linksUp s then s
  else { s with biasHolders := s.biasHolders.filter (fun x => !(deviceLines pl.pa n).contains x) }

end Sys2Proof.Machine
end

