-- ==== Sys2Proof/Machine/Cache.lean ====
section
/-! DEFINITION. The caches (R147 to R163): the L1 of each core, the remote-data cache of each die, phases, releases and acquires,
write tokens and CXL.cache ownership. `dmem` is what the home L2 slices and their channels hold, `hmem` host memory. -/

namespace Sys2Proof.Machine

/-- The key of a line in a core's L1. -/
def lineKey (core : Nat) (host : Bool) (line : Nat) : Nat := (core * 2 + host.toNat) * 2 ^ 60 + line

/-- The core, memory and line of a key. -/
def coreOfLine (k : Nat) : Nat := k / 2 ^ 61
def hostOfLine (k : Nat) : Bool := k / 2 ^ 60 % 2 == 1
def lineOfKey (k : Nat) : Nat := k % 2 ^ 60

/-- The home memory of a line. -/
def homeMem (s : State) (host : Bool) : Memory := if host then s.hmem else s.dmem

/-- The home memory replaced. -/
def setHome (s : State) (host : Bool) (m : Memory) : State := if host then { s with hmem := m } else { s with dmem := m }

/-- A line's 128 bytes at its home. -/
def homeLine (s : State) (host : Bool) (line : Nat) : List Byte := rdBytes (homeMem s host) (line * 128) 128

/-! ## Spoiled bytes (R165; log 40, DESIGN CHOICE) -/

/-- The spoiled bytes of a memory. -/
def badOf (s : State) (host : Bool) : List Nat := if host then s.badHost else s.badDev

/-- Some of `n` bytes of a memory are spoiled. -/
def spoiledAt (s : State) (host : Bool) (a n : Nat) : Bool := (badOf s host).any (fun x => decide (a ≤ x) && decide (x < a + n))

/-- Bytes of a memory that have been written are good again. -/
def mended (s : State) (host : Bool) (written : Nat → Bool) : State :=
  if host then { s with badHost := s.badHost.filter (fun x => !written x) } else { s with badDev := s.badDev.filter (fun x => !written x) }

/-- `n` bytes of a memory written whole. -/
def mendRange (s : State) (host : Bool) (a n : Nat) : State := mended s host (fun x => decide (a ≤ x) && decide (x < a + n))

/-- The key of a line in a die's remote-data cache. -/
def rdcKey (die line : Nat) : Nat := die * 2 ^ 60 + line

/-- The phase of a remote-data cache. -/
def rdcPhaseAt (s : State) (die : Nat) : PhaseState := tget PhaseState.blank s.rdcPhase die

/-- Bytes written at a home address, byte by byte where the mask says (R148). -/
def maskedWrite : Memory → Nat → List Byte → List Bool → Memory
  | m, a, b :: bs, d :: ds => maskedWrite (if d then wr8 m a b else m) (a + 1) bs ds
  | m, _, _, _ => m

/-- Bytes laid over a line's bytes where the mask says. -/
def maskedBytes : List Byte → List Byte → List Bool → List Byte
  | o :: os, b :: bs, d :: ds => (if d then b else o) :: maskedBytes os bs ds
  | os, _, _ => os

/-- Items laid over a line from an offset; the line keeps its length. -/
def overlay {α : Type} (line : List α) (off : Nat) (bs : List α) : List α :=
  (line.take off ++ bs ++ line.drop (off + bs.length)).take line.length

/-- No dirty byte. -/
def allClean : List Bool := List.replicate 128 false

/-- A HOST line stays where it is while a link is down: no CXL.cache traffic flows (R24). -/
def linkStuck (s : State) (k : Nat) : Bool := hostOfLine k && !linksUp s

/-- The dirty bytes of a write-back arrive at the home slice, a copy that the host holds invalidated first (R25, R148). -/
def landHome (s : State) (host : Bool) (line : Nat) (bs : List Byte) (dirty : List Bool) : State :=
  let s := mended (recallHost s ⟨host, 0, 0, false, line * 128⟩ 128) host (fun x => decide (line * 128 ≤ x) && dirty.getD (x - line * 128) false)
  setHome s host (maskedWrite (homeMem s host) (line * 128) bs dirty)

/-- One write that has passed through a remote-data cache arrives (R153). -/
def landPassing (s : State) (w : Passing) : State := { landHome s false w.line w.bytes w.dirty with passing := s.passing.erase w }

/-- Every write on its way that `p` names arrives, in order (R153, R155). -/
def settlePassing (s : State) (p : Passing → Bool) : State := (s.passing.filter p).foldl landPassing s

/-- Writes of a die to a line arrive before anything else of that die reaches the line's home (R153). -/
def settleLine (s : State) (die line : Nat) : State := settlePassing s (fun w => w.die == die && w.line == line)

/-- The dirty bytes of one L1 line leave it for its home. A PHASED line of another die passes through the remote-data cache, whose copy takes
them; the home has them later (R148, R153). -/
def sendBack (s : State) (k : Nat) (ln : L1Line) : State :=
  if ln.dirty.all (!·) || linkStuck s k then s
  else
    let line := lineOfKey k
    let die := coreOfLine k / 64
    let s :=
      if hostOfLine k then s
      else { s with rdc := tupd s.rdc (rdcKey die line) (fun r => { r with bytes := maskedBytes r.bytes ln.bytes ln.dirty }) }
    let s :=
      if !hostOfLine k && ln.mc == 0 then { s with passing := s.passing ++ [⟨die, line, ln.bytes, ln.dirty⟩] }
      else landHome s (hostOfLine k) line ln.bytes ln.dirty
    { s with l1 := tput s.l1 k { ln with dirty := allClean } }

/-- The dirty bytes of one L1 line written to its home, and acknowledged (R148, R153, R155). -/
def writeBack (s : State) (k : Nat) (ln : L1Line) : State := settleLine (sendBack s k ln) (coreOfLine k / 64) (lineOfKey k)

/-- One L1 line sent back and dropped; its bytes may still be on their way (R148, R153). -/
def evictLine (s : State) (k : Nat) : State :=
  match tfind s.l1 k with
  | none => s
  | some ln =>
    if linkStuck s k && ln.dirty.any id then s
    else
      let s := sendBack s k ln
      { s with l1 := tdel s.l1 k }

/-- One L1 line written back and dropped. -/
def flushLine (s : State) (k : Nat) : State :=
  match tfind s.l1 k with
  | none => s
  | some ln =>
    if linkStuck s k && ln.dirty.any id then s
    else
      let s := writeBack s k ln
      { s with l1 := tdel s.l1 k }

/-- One L1 line written back; the copy stays, clean, and no longer for writing (R158, R160). -/
def cleanLine (s : State) (k : Nat) : State :=
  match tfind s.l1 k with
  | none => s
  | some ln =>
    if linkStuck s k then s
    else
      let s := writeBack s k ln
      { s with l1 := tupd s.l1 k (fun ln => { ln with token := false }) }

/-- The keys of a line in the L1s of the module. -/
def holders (s : State) (host : Bool) (line : Nat) : List Nat :=
  (s.l1.map (·.1)).filter (fun k => hostOfLine k == host && lineOfKey k == line)

/-- The keys of a line in other cores' L1s. -/
def otherHolders (s : State) (core : Nat) (host : Bool) (line : Nat) : List Nat :=
  (holders s host line).filter (fun k => coreOfLine k != core)

/-- Every remote-data cache's copy of a line dropped. -/
def dropRdc (s : State) (line : Nat) : State := { s with rdc := s.rdc.filter (fun e => e.1 % 2 ^ 60 != line) }

/-- Before a coherent read is answered, other cores' dirty bytes reach the home; they keep clean copies (R158). -/
def recallForRead (s : State) (core : Nat) (host : Bool) (line : Nat) : State :=
  (otherHolders s core host line).foldl cleanLine s

/-- Every other copy of a coherent line invalidated, its dirty bytes at the home first (R159). -/
def invalidateOthers (s : State) (core : Nat) (host : Bool) (line : Nat) : State :=
  let s := (otherHolders s core host line).foldl flushLine s
  if host then s else dropRdc s line

/-- A line's bytes as its home or the die's remote-data cache gives them, which a miss fills (R153). A miss follows the die's own write-backs to
the line; a line with spoiled bytes is not kept (R165). -/
def fetchLine (s : State) (core : Nat) (pl : Place) : State × List Byte :=
  let line := pl.pa / 128
  let die := core / 64
  let miss (s : State) : State × List Byte :=
    let s := if pl.host then s else settleLine s die line
    let bs := homeLine s pl.host line
    if pl.host || homeDie pl.pa pl.pl == die || spoiledAt s false (line * 128) 128 then (s, bs)
    else ({ s with rdc := tput s.rdc (rdcKey die line) ⟨(rdcPhaseAt s die).p, bs⟩ }, bs)
  if pl.host || homeDie pl.pa pl.pl == die then miss s
  else
    match tfind s.rdc (rdcKey die line) with
    | some r => if pl.mc = 1 ∨ r.tag = (rdcPhaseAt s die).p then (s, r.bytes) else miss s
    | none => miss s

/-- The clean bytes of a line may be used: a COHERENT or HOST copy while it is held, a PHASED one under the current phase, or
one tagged read-only by the class whose `.ro` load this is (R155, R157; log 26, DEDUCED). -/
def lineHits (s : State) (core : Nat) (ro : Option Nat) (ln : L1Line) : Bool :=
  ln.valid && (ln.mc != 0 || ln.tag == (corePhaseAt s core).p || (match ro with | some ck => ln.ro.contains ck | none => false))

/-- The classes that have tagged a line read-only, with one more. -/
def tagRo (ro : Option Nat) (cks : List Nat) : List Nat :=
  match ro with
  | some ck => if cks.contains ck then cks else cks ++ [ck]
  | none => cks

/-- The line present with usable clean bytes, filled under its dirty bytes where it was not (R155, R158). Clean bytes of a line that has spoiled
bytes at its home serve this access alone (R165). -/
def fillLine (s : State) (core : Nat) (pl : Place) (ro : Option Nat) : State :=
  let k := lineKey core pl.host (pl.pa / 128)
  let p := (corePhaseAt s core).p
  let good := !spoiledAt s pl.host (pl.pa / 128 * 128) 128
  match tfind s.l1 k with
  | some ln =>
    if lineHits s core ro ln then { s with l1 := tput s.l1 k { ln with ro := tagRo ro ln.ro } }
    else
      let s := if pl.mc = 0 then s else recallForRead s core pl.host (pl.pa / 128)
      let q := fetchLine s core pl
      { q.1 with l1 := tput q.1.l1 k { ln with tag := p, ro := tagRo ro ln.ro, mc := pl.mc, bytes := maskedBytes q.2 ln.bytes ln.dirty, valid := good } }
  | none =>
    let s := if pl.mc = 0 then s else recallForRead s core pl.host (pl.pa / 128)
    let q := fetchLine s core pl
    { q.1 with l1 := tput q.1.l1 k ⟨p, tagRo ro [], pl.mc, q.2, allClean, false, good⟩ }

/-- The bytes at an offset of a line that a core holds. -/
def lineBytes (s : State) (core : Nat) (pl : Place) (n : Nat) : List Byte :=
  match tfind s.l1 (lineKey core pl.host (pl.pa / 128)) with
  | some ln => (ln.bytes.drop (pl.pa % 128)).take n
  | none => List.replicate n 0

/-- Every one of `n` bytes of a line is dirty in the core's L1, and so hits whatever the tag (R155). -/
def allDirty (s : State) (core : Nat) (pl : Place) (n : Nat) : Bool :=
  match tfind s.l1 (lineKey core pl.host (pl.pa / 128)) with
  | some ln => ((ln.dirty.drop (pl.pa % 128)).take n).all id && decide (pl.pa % 128 + n ≤ ln.dirty.length)
  | none => false

/-- A late store is to a line of its core. -/
def ofLine (k : Nat) (e : LateStore) : Bool := lineKey e.core e.pl.host (e.pl.pa / 128) == k

/-- A late load takes bytes of a line of its core. -/
def takesLine (k : Nat) (e : LateLoad) : Bool := e.pls.any (fun x => lineKey e.core x.1.host (x.1.pa / 128) == k)

/-- The core's next access of a line is to come (R167): loads of it that have issued are performed by now, and what the core has read ahead of it serves no
later load. -/
def dropEarly (s : State) (k : Nat) : State := { s with early := tdel s.early k, lateLoads := s.lateLoads.filter (fun e => !takesLine k e) }

/-- A byte of a line that the core does not take from the home as it stands: it is dirty in its own L1, or, on the way to the home before it is read, in
another's or under way from its die (R153, R155, R158). -/
def supplied (s : State) (core : Nat) (pl : Place) (x : Nat) : Bool :=
  let line := pl.pa / 128
  (holders s pl.host line).any (fun k => (coreOfLine k == core || pl.mc != 0) && (match tfind s.l1 k with | some ln => ln.dirty.getD (x % 128) false | none => false))
    || s.lateStores.any (fun e => ofLine (lineKey core pl.host line) e && decide (e.pl.pa ≤ x) && decide (x < e.pl.pa + e.bytes.length))
    || (!pl.host && s.passing.any (fun w => w.die == core / 64 && w.line == line && w.dirty.getD (x % 128) false))

/-- The die's remote-data cache serves a core's miss (R153). -/
def rdcServes (s : State) (core : Nat) (pl : Place) : Bool :=
  !pl.host && homeDie pl.pa pl.pl != core / 64 &&
    (match tfind s.rdc (rdcKey (core / 64) (pl.pa / 128)) with
     | some r => pl.mc == 1 || r.tag == (rdcPhaseAt s (core / 64)).p
     | none => false)

/-- Some of `n` bytes that a core would take from a line's home are spoiled (R165). -/
def wouldSpoil (s : State) (core : Nat) (pl : Place) (ro : Option Nat) (n : Nat) : Bool :=
  (badOf s pl.host).any (fun x => decide (pl.pa ≤ x) && decide (x < pl.pa + n) && !supplied s core pl x) && !rdcServes s core pl &&
    !(match tfind s.l1 (lineKey core pl.host (pl.pa / 128)) with | some ln => lineHits s core ro ln | none => false)

/-- The write token of a COHERENT line, or ownership of a HOST line: no other copy is left, and nothing read ahead of it (R25, R159, R160, R167). -/
def takeToken (s : State) (core : Nat) (pl : Place) : State :=
  let k := lineKey core pl.host (pl.pa / 128)
  let s := fillLine (invalidateOthers (recallHost (dropEarly s k) pl 1) core pl.host (pl.pa / 128)) core pl none
  { s with l1 := tupd s.l1 k (fun ln => { ln with token := true }) }

/-- Whether the core holds the line for writing. -/
def holdsToken (s : State) (core : Nat) (pl : Place) : Bool :=
  match tfind s.l1 (lineKey core pl.host (pl.pa / 128)) with
  | some ln => ln.token && ln.valid
  | none => false

/-- The line made ready to be written by this core. -/
def readyToWrite (s : State) (core : Nat) (pl : Place) : State :=
  if pl.mc = 0 then fillLine s core pl none
  else if holdsToken s core pl then s else takeToken s core pl

/-- A store of bytes within one line performed; `wt` also writes them to the home, and leaves them clean (R157). -/
def performStore (s : State) (core : Nat) (pl : Place) (wt : Bool) (bs : List Byte) : State :=
  let k := lineKey core pl.host (pl.pa / 128)
  let off := pl.pa % 128
  let s := readyToWrite (recallHost (dropEarly s k) pl bs.length) core pl
  let s := { s with l1 := tupd s.l1 k (fun ln =>
    { ln with bytes := overlay ln.bytes off bs,
              dirty := overlay ln.dirty off (List.replicate bs.length true) }) }
  if wt && !pl.host then
    match tfind s.l1 k with
    | some ln => writeBack s k ln
    | none => s
  else s

/-- The stores that have issued and that `p` names are performed, in the order they issued (R167). -/
def settleStores (s : State) (p : LateStore → Bool) : State :=
  (s.lateStores.filter p).foldl (fun s e => performStore s e.core e.pl e.wt e.bytes) { s with lateStores := s.lateStores.filter (fun e => !p e) }

/-- A core's next access of a line is to come: the stores of it that have issued are performed, and the loads (R167). -/
def inTurn (s : State) (core : Nat) (pl : Place) : State :=
  dropEarly (settleStores s (ofLine (lineKey core pl.host (pl.pa / 128)))) (lineKey core pl.host (pl.pa / 128))

/-- A load of `n` bytes of one line, performed now (R154 to R160). -/
def loadNow (s : State) (core : Nat) (pl : Place) (ro : Option Nat) (n : Nat) : State × List Byte :=
  let s := recallHost (inTurn s core pl) pl n
  let s := if allDirty s core pl n then s else fillLine s core pl ro
  (s, lineBytes s core pl n)

/-- A load of `n` bytes of one line: performed now, or, where the core has read the line ahead and has not accessed it since, then (R167,
R172). -/
def loadLine (s : State) (core : Nat) (pl : Place) (ro : Option Nat) (n : Nat) : State × List Byte :=
  match tfind s.early (lineKey core pl.host (pl.pa / 128)) with
  | some bs => (dropEarly s (lineKey core pl.host (pl.pa / 128)), (bs.drop (pl.pa % 128)).take n)
  | none => loadNow s core pl ro n

/-- A store of bytes within one line, performed now in its turn (R157, R167). -/
def storeLine (s : State) (core : Nat) (pl : Place) (wt : Bool) (bs : List Byte) : State := performStore (inTurn s core pl) core pl wt bs

/-- A store of bytes within one line issues: it is performed then or later, before the core's next access of the line (R167, R172; log 59, DEDUCED). -/
def issueStore (s : State) (core : Nat) (pl : Place) (wt : Bool) (bs : List Byte) : State :=
  let s := dropEarly s (lineKey core pl.host (pl.pa / 128))
  { s with lateStores := s.lateStores ++ [⟨core, pl, wt, bs, s.timebase⟩] }

/-- Stores that have stood for as long as they may are performed: each becomes visible within a bounded time, without any fence (R173; log 59, DEDUCED,
for its form). -/
def settleOverdue (s : State) : State := settleStores s (fun e => decide (e.since + Config.storeBound ≤ s.timebase))

/-- Every access that the core has issued is performed (R168; log 59, DEDUCED: the whole core's, not one thread's). -/
def settleCore (s : State) (core : Nat) : State :=
  let s := settleStores s (fun e => e.core == core)
  { s with lateLoads := s.lateLoads.filter (fun e => e.core != core) }

/-! ## Accesses of several lines (R164) -/

/-- The pieces of `n` bytes at `a` in lines: address and length. -/
def splitLines (a : Nat) : Nat → Nat → List (Nat × Nat)
  | 0, _ => []
  | _, 0 => []
  | f + 1, n =>
    let k := min n (128 - a % 128)
    (a, k) :: splitLines (a + k) f (n - k)

/-! ## Releases and acquires (R155, R168) -/

/-- Every dirty PHASED byte of a core written back to its home slice (R155), and every write that its die has under way: a thread may have seen
it in the remote-data cache (R170). -/
def releaseCore (s : State) (core : Nat) : State :=
  settlePassing (s.l1.foldl (fun s e => if coreOfLine e.1 = core ∧ e.2.mc = 0 then writeBack s e.1 e.2 else s) s) (fun w => w.die == core / 64)

/-- The release action at a scope: from troupe scope on what has issued is performed (R168); from cluster scope on dirty PHASED bytes go home (R155). HOST
lines are held in M or written back already (R160). -/
def releaseAt (s : State) (core scope : Nat) : State :=
  if 3 ≤ scope then releaseCore (settleCore s core) core else if 1 ≤ scope then settleCore s core else s

/-- An acquire at a scope waits for the sweep of the last advance (R156). -/
def sweepOwed (s : State) (core scope : Nat) : Bool :=
  (decide (3 ≤ scope) && (corePhaseAt s core).owed) || (decide (4 ≤ scope) && (rdcPhaseAt s (core / 64)).owed)

/-- A phase advanced; its sweep is owed (R156). -/
def advancePhase (p : PhaseState) : PhaseState := ⟨p.p + 1, true⟩

/-- The acquire action at a scope (R155), and the instruction cache (R127). From troupe scope on, no load after it is performed before it
(R168). -/
def acquireAt (s : State) (core scope : Nat) : State :=
  let s := if 1 ≤ scope then { s with early := s.early.filter (fun e => coreOfLine e.1 != core) } else s
  let s := if 3 ≤ scope then { s with corePhase := tput s.corePhase core (advancePhase (corePhaseAt s core)) } else s
  if 4 ≤ scope then
    { s with rdcPhase := tput s.rdcPhase (core / 64) (advancePhase (rdcPhaseAt s (core / 64))),
             icache := s.icache.filter (fun e => e.1 / 2 ^ 60 != core) }
  else s

/-- The sweep of a core's L1 (R156): PHASED lines tagged P - 2 lose their clean bytes; those with dirty bytes are retagged P. -/
def sweepCore (s : State) (core : Nat) : State :=
  let ps := corePhaseAt s core
  let old := ps.p - 2
  let f (e : Nat × L1Line) : Option (Nat × L1Line) :=
    if coreOfLine e.1 = core ∧ e.2.mc = 0 ∧ e.2.tag = old ∧ e.2.ro = [] then
      (if e.2.dirty.any id then some (e.1, { e.2 with tag := ps.p, valid := false }) else none)
    else if coreOfLine e.1 = core ∧ e.2.mc = 0 ∧ e.2.tag = old then some (e.1, { e.2 with tag := ps.p - 1 })
    else some e
  { s with l1 := s.l1.filterMap f, corePhase := tput s.corePhase core ⟨ps.p, false⟩ }

/-- The sweep of a remote-data cache, which holds no dirty bytes (R153, R156). -/
def sweepRdc (s : State) (die : Nat) : State :=
  let ps := rdcPhaseAt s die
  { s with rdc := s.rdc.filter (fun e => !(e.1 / 2 ^ 60 == die && e.2.tag == ps.p - 2)), rdcPhase := tput s.rdcPhase die ⟨ps.p, false⟩ }

/-! ## Accesses at the home (R163, R175) -/

/-- `n` bytes read at the home slices by an agent that holds no copy: coherent holders are probed first, PHASED dirty bytes are not
seen (R175). -/
def homeRead (s : State) (pl : Place) (n : Nat) : State × List Byte :=
  let lines := (splitLines pl.pa (n + 1) n).map (fun x => x.1 / 128)
  let s := recallHost s pl n
  let s := if pl.mc = 0 then s else lines.foldl (fun s ln => (holders s pl.host ln).foldl cleanLine s) s
  (s, rdBytes (homeMem s pl.host) pl.pa n)

/-- Bytes written at the home slices: coherent copies are invalidated first; PHASED copies stay (R161, R175). -/
def homeWrite (s : State) (pl : Place) (bs : List Byte) : State :=
  let lines := (splitLines pl.pa (bs.length + 1) bs.length).map (fun x => x.1 / 128)
  let s := recallHost s pl bs.length
  let s := if pl.mc = 0 then s
           else lines.foldl (fun s ln =>
             let s := (holders s pl.host ln).foldl flushLine s
             if pl.host then s else dropRdc s ln) s
  let s := mendRange s pl.host pl.pa bs.length
  setHome s pl.host (wrBytes (homeMem s pl.host) pl.pa bs)

/-- Lines an engine wrote leave the issuing core's L1 and its die's remote-data cache, before the operation counts as complete
(R175); bytes still dirty there are kept. -/
def dropCopies (s : State) (core : Nat) (pl : Place) (n : Nat) : State :=
  let lines := (splitLines pl.pa (n + 1) n).map (fun x => x.1 / 128)
  lines.foldl (fun s ln =>
    let k := lineKey core pl.host ln
    let l1 :=
      match tfind s.l1 k with
      | some l => if l.dirty.any id then tput s.l1 k { l with valid := false } else tdel s.l1 k
      | none => s.l1
    { s with l1 := l1, rdc := if pl.host then s.rdc else tdel s.rdc (rdcKey (core / 64) ln) }) s

/-- Every line of a page leaves every cache, dirty bytes at the home first (R26, R98, R99). -/
def flushPage (s : State) (host : Bool) (page : Nat) : State :=
  let inPage (line : Nat) : Bool := line / 32 == page
  let s := settleStores s (fun e => e.pl.host == host && inPage (e.pl.pa / 128))
  let s := ((s.l1.map (·.1)).filter (fun k => hostOfLine k == host && inPage (lineOfKey k))).foldl flushLine s
  let s := { s with lateLoads := s.lateLoads.filter (fun e => !e.pls.any (fun x => x.1.host == host && inPage (x.1.pa / 128))) }
  let s := { s with early := s.early.filter (fun e => !(hostOfLine e.1 == host && inPage (lineOfKey e.1))) }
  if host then s
  else
    let s := settlePassing s (fun w => inPage w.line)
    { s with rdc := s.rdc.filter (fun e => !inPage (e.1 % 2 ^ 60)) }

/-- A shootdown of a context (R98): TLBs emptied of it, dirty L1 lines of device and host written back, instruction caches
invalidated (R127). -/
def shootdown (s : State) (ctx : Nat) : State :=
  let s := settleStores (dropTlbs s ctx) (fun _ => true)
  let s := settlePassing (s.l1.foldl (fun s e => writeBack s e.1 e.2) s) (fun _ => true)
  { s with icache := [], early := [], lateLoads := [] }

/-- A shootdown of every context in one die (R91): TLBs of the die and its cores emptied, dirty L1 lines of its cores at their homes, and their instruction
caches invalidated (R98, R127). -/
def shootdownDie (s : State) (die : Nat) : State :=
  let s := settleStores (dropDieTlbs s die) (fun e => e.core / 64 == die)
  let s := s.l1.foldl (fun s e => if coreOfLine e.1 / 64 = die then writeBack s e.1 e.2 else s) s
  let s := settlePassing s (fun w => w.die == die)
  { s with icache := s.icache.filter (fun e => e.1 / 2 ^ 60 / 64 != die), early := s.early.filter (fun e => coreOfLine e.1 / 64 != die),
           lateLoads := s.lateLoads.filter (fun e => e.core / 64 != die) }

/-- A core's lines leave its L1, dirty bytes at the home first (R147, R119). -/
def flushCore (s : State) (core : Nat) : State :=
  let s := settleCore s core
  let s := ((s.l1.map (·.1)).filter (fun k => coreOfLine k == core)).foldl flushLine s
  { s with early := s.early.filter (fun e => coreOfLine e.1 != core) }

/-- A thread that comes to a core finds no line there, nor in its die's remote-data cache, older than what it has seen elsewhere (R167, R170,
R176). -/
def arriveAt (s : State) (core : Nat) : State :=
  let s := settlePassing (flushCore s core) (fun w => w.die == core / 64)
  { s with rdc := s.rdc.filter (fun e => e.1 / 2 ^ 60 != core / 64) }

/-- A word read at its coherence point by a thread of a core: the die's own writes to the line arrive first, and copies that may be older are not
used after it (R167, R170). -/
def seenAtHome (s : State) (core : Nat) (pl : Place) : State :=
  if pl.host then s
  else
    let line := pl.pa / 128
    let s := settleLine (inTurn s core pl) (core / 64) line
    { s with l1 := if pl.mc = 0 then tupd s.l1 (lineKey core false line) (fun ln => { ln with valid := false }) else s.l1,
             rdc := if pl.mc = 0 then tdel s.rdc (rdcKey (core / 64) line) else s.rdc }

/-- A link lost: stores to host memory and to host-biased pages that issued before it are performed before it (R24; log 59, DEDUCED). -/
def loseLink (s : State) (port : Nat) : State :=
  dropLink (if portUsed s port then settleStores s (fun e => e.pl.host || e.pl.bias) else s) port

end Sys2Proof.Machine
end

