-- ==== Sys2Proof/Machine/Operands.lean ====
section
/-! DEFINITION. The operands of each instruction: the registers it reads and writes (R138, R258), each as the first field and
the number of registers, and the checks of R259 on them. -/

namespace Sys2Proof.Machine

/-- Registers that data of width W takes (R252, R297). -/
def dataRegs (w : BitVec 3) : Nat := if w == 5 then 2 else if w == 6 then 4 else 1

/-- The registers an instruction reads: first field and count, in the order A, B, D. -/
def readsOf : Instr → List (Nat × Nat)
  | .add _ _ a b => [(a.toNat, 1), (b.toNat, 1)]
  | .sub _ _ a b => [(a.toNat, 1), (b.toNat, 1)]
  | .mul _ _ a b => [(a.toNat, 1), (b.toNat, 1)]
  | .mulh _ _ a b => [(a.toNat, 1), (b.toNat, 1)]
  | .mulhn _ _ a b => [(a.toNat, 1), (b.toNat, 1)]
  | .mad _ d a b => [(a.toNat, 1), (b.toNat, 1), (d.toNat, 1)]
  | .min _ _ a b => [(a.toNat, 1), (b.toNat, 1)]
  | .max _ _ a b => [(a.toNat, 1), (b.toNat, 1)]
  | .minn _ _ a b => [(a.toNat, 1), (b.toNat, 1)]
  | .maxn _ _ a b => [(a.toNat, 1), (b.toNat, 1)]
  | .adif _ _ a b => [(a.toNat, 1), (b.toNat, 1)]
  | .adds _ _ a b => [(a.toNat, 1), (b.toNat, 1)]
  | .subs _ _ a b => [(a.toNat, 1), (b.toNat, 1)]
  | .and _ _ a b => [(a.toNat, 1), (b.toNat, 1)]
  | .or _ _ a b => [(a.toNat, 1), (b.toNat, 1)]
  | .xor _ _ a b => [(a.toNat, 1), (b.toNat, 1)]
  | .andn _ _ a b => [(a.toNat, 1), (b.toNat, 1)]
  | .shl _ _ a b => [(a.toNat, 1), (b.toNat, 1)]
  | .shr _ _ a b => [(a.toNat, 1), (b.toNat, 1)]
  | .shra _ _ a b => [(a.toNat, 1), (b.toNat, 1)]
  | .rotl _ _ a b => [(a.toNat, 1), (b.toNat, 1)]
  | .sel _ d a b => [(a.toNat, 1), (b.toNat, 1), (d.toNat, 1)]
  | .popc _ _ a => [(a.toNat, 1)]
  | .clz _ _ a => [(a.toNat, 1)]
  | .ctz _ _ a => [(a.toNat, 1)]
  | .brev _ _ a => [(a.toNat, 1)]
  | .seq _ _ a b => [(a.toNat, 1), (b.toNat, 1)]
  | .sne _ _ a b => [(a.toNat, 1), (b.toNat, 1)]
  | .slt _ _ a b => [(a.toNat, 1), (b.toNat, 1)]
  | .sle _ _ a b => [(a.toNat, 1), (b.toNat, 1)]
  | .sltn _ _ a b => [(a.toNat, 1), (b.toNat, 1)]
  | .slen _ _ a b => [(a.toNat, 1), (b.toNat, 1)]
  | .add64 _ _ a b => [(a.toNat, 2), (b.toNat, 2)]
  | .sub64 _ _ a b => [(a.toNat, 2), (b.toNat, 2)]
  | .mul64 _ _ a b => [(a.toNat, 2), (b.toNat, 2)]
  | .addx _ _ a b => [(a.toNat, 2), (b.toNat, 1)]
  | .addxn _ _ a b => [(a.toNat, 2), (b.toNat, 1)]
  | .shl64 _ _ a b => [(a.toNat, 2), (b.toNat, 1)]
  | .shr64 _ _ a b => [(a.toNat, 2), (b.toNat, 1)]
  | .shra64 _ _ a b => [(a.toNat, 2), (b.toNat, 1)]
  | .div _ _ a b => [(a.toNat, 2), (b.toNat, 2)]
  | .divn _ _ a b => [(a.toNat, 2), (b.toNat, 2)]
  | .rem _ _ a b => [(a.toNat, 2), (b.toNat, 2)]
  | .remn _ _ a b => [(a.toNat, 2), (b.toNat, 2)]
  | .seq64 _ _ a b => [(a.toNat, 2), (b.toNat, 2)]
  | .slt64 _ _ a b => [(a.toNat, 2), (b.toNat, 2)]
  | .sltn64 _ _ a b => [(a.toNat, 2), (b.toNat, 2)]
  | .addi _ _ a _ => [(a.toNat, 1)]
  | .andi _ _ a _ => [(a.toNat, 1)]
  | .ori _ _ a _ => [(a.toNat, 1)]
  | .xori _ _ a _ => [(a.toNat, 1)]
  | .slti _ _ a _ => [(a.toNat, 1)]
  | .sltni _ _ a _ => [(a.toNat, 1)]
  | .muli _ _ a _ => [(a.toNat, 1)]
  | .shli _ _ a _ => [(a.toNat, 1)]
  | .shri _ _ a _ => [(a.toNat, 1)]
  | .shrai _ _ a _ => [(a.toNat, 1)]
  | .rotli _ _ a _ => [(a.toNat, 1)]
  | .bfx _ _ a _ _ _ => [(a.toNat, 1)]
  | .bfi _ d a _ _ => [(a.toNat, 1), (d.toNat, 1)]
  | .addxi _ _ a _ => [(a.toNat, 2)]
  | .lui _ _ _ => []
  | .lapc _ _ _ => []
  | .fadd _ _ a b => [(a.toNat, 1), (b.toNat, 1)]
  | .fsub _ _ a b => [(a.toNat, 1), (b.toNat, 1)]
  | .fmul _ _ a b => [(a.toNat, 1), (b.toNat, 1)]
  | .fma _ d a b => [(a.toNat, 1), (b.toNat, 1), (d.toNat, 1)]
  | .fmin _ _ a b => [(a.toNat, 1), (b.toNat, 1)]
  | .fmax _ _ a b => [(a.toNat, 1), (b.toNat, 1)]
  | .fabs _ _ a => [(a.toNat, 1)]
  | .fneg _ _ a => [(a.toNat, 1)]
  | .fsgn _ _ a b => [(a.toNat, 1), (b.toNat, 1)]
  | .feq _ _ a b => [(a.toNat, 1), (b.toNat, 1)]
  | .flt _ _ a b => [(a.toNat, 1), (b.toNat, 1)]
  | .fle _ _ a b => [(a.toNat, 1), (b.toNat, 1)]
  | .fclass _ _ a => [(a.toNat, 1)]
  | .fnma _ d a b => [(a.toNat, 1), (b.toNat, 1), (d.toNat, 1)]
  | .ftoi _ _ a _ => [(a.toNat, 1)]
  | .fton _ _ a _ => [(a.toNat, 1)]
  | .itof _ _ a _ => [(a.toNat, 1)]
  | .ntof _ _ a _ => [(a.toNat, 1)]
  | .f2bf _ _ a _ => [(a.toNat, 1)]
  | .bf2f _ _ a => [(a.toNat, 1)]
  | .f2h _ _ a _ => [(a.toNat, 1)]
  | .h2f _ _ a => [(a.toNat, 1)]
  | .f2e4 _ _ a _ => [(a.toNat, 1)]
  | .e42f _ _ a => [(a.toNat, 1)]
  | .f2e5 _ _ a _ => [(a.toNat, 1)]
  | .e52f _ _ a => [(a.toNat, 1)]
  | .frcp _ _ a => [(a.toNat, 1)]
  | .frsq _ _ a => [(a.toNat, 1)]
  | .fsqrt _ _ a => [(a.toNat, 1)]
  | .fexp2 _ _ a => [(a.toNat, 1)]
  | .flog2 _ _ a => [(a.toNat, 1)]
  | .badd2 _ _ a b => [(a.toNat, 1), (b.toNat, 1)]
  | .bmul2 _ _ a b => [(a.toNat, 1), (b.toNat, 1)]
  | .bfma2 _ d a b => [(a.toNat, 1), (b.toNat, 1), (d.toNat, 1)]
  | .bmax2 _ _ a b => [(a.toNat, 1), (b.toNat, 1)]
  | .dxq _ _ a _ => [(a.toNat, 1)]
  | .dxd _ _ a _ => [(a.toNat, 1)]
  | .ballot _ _ a => [(a.toNat, 1)]
  | .vany _ _ a => [(a.toNat, 1)]
  | .vall _ _ a => [(a.toNat, 1)]
  | .shfl _ _ a b => [(a.toNat, 1), (b.toNat, 1)]
  | .shflx _ _ a b => [(a.toNat, 1), (b.toNat, 1)]
  | .shflup _ _ a b => [(a.toNat, 1), (b.toNat, 1)]
  | .shfldn _ _ a b => [(a.toNat, 1), (b.toNat, 1)]
  | .redadd _ _ a => [(a.toNat, 1)]
  | .redmin _ _ a => [(a.toNat, 1)]
  | .redmax _ _ a => [(a.toNat, 1)]
  | .redfadd _ _ a => [(a.toNat, 1)]
  | .scanadd _ _ a => [(a.toNat, 1)]
  | .scanaddx _ _ a => [(a.toNat, 1)]
  | .movix _ _ a => [(a.toNat, 1)]
  | .movixw _ d a => [(a.toNat, 1), (d.toNat, 1)]
  | .lmask _ _ => []
  | .beq _ a b _ => [(a.toNat, 1), (b.toNat, 1)]
  | .bne _ a b _ => [(a.toNat, 1), (b.toNat, 1)]
  | .blt _ a b _ => [(a.toNat, 1), (b.toNat, 1)]
  | .bge _ a b _ => [(a.toNat, 1), (b.toNat, 1)]
  | .bltn _ a b _ => [(a.toNat, 1), (b.toNat, 1)]
  | .bgen _ a b _ => [(a.toNat, 1), (b.toNat, 1)]
  | .br _ _ => []
  | .jal _ _ => []
  | .jr _ a => [(a.toNat, 2)]
  | .jalr _ _ a => [(a.toNat, 2)]
  | .nop _ => []
  | .exit _ => []
  | .yield _ => []
  | .trapI _ _ => []
  | .brk _ => []
  | .eret _ => []
  | .wbase _ a => [(a.toNat, 1)]
  | .chk _ a b => [(a.toNat, 1), (b.toNat, 1)]
  | .spawn _ d a c => ((a.toNat, 2) :: (List.range c.toNat).map (fun k => (d.toNat + k, 1)))
  | .jenrol _ _ => []
  | .jwait _ _ => []
  | .jstrike _ _ => []
  | .tickwait _ => []
  | .rdcw _ _ _ => []
  | .wrcw _ a _ => [(a.toNat, 1)]
  | .ldg _ _ a _ _ _ => [(a.toNat, 2)]
  | .stg _ d a w _ _ => [(a.toNat, 2), (d.toNat, dataRegs w)]
  | .lds _ _ a _ _ _ => [(a.toNat, 1)]
  | .sts _ d a w _ _ => [(a.toNat, 1), (d.toNat, dataRegs w)]
  | .ldp _ _ a _ _ _ => [(a.toNat, 1)]
  | .stp _ d a w _ _ => [(a.toNat, 1), (d.toNat, dataRegs w)]
  | .pf _ a => [(a.toNat, 2)]
  | .cwb _ a => [(a.toNat, 2)]
  | .cinv _ a => [(a.toNat, 2)]
  | .cflush _ a => [(a.toNat, 2)]
  | .aadd _ _ a b _ => [(2 * a.toNat, 2), (2 * b.toNat, 1)]
  | .aand _ _ a b _ => [(2 * a.toNat, 2), (2 * b.toNat, 1)]
  | .aor _ _ a b _ => [(2 * a.toNat, 2), (2 * b.toNat, 1)]
  | .axor _ _ a b _ => [(2 * a.toNat, 2), (2 * b.toNat, 1)]
  | .amin _ _ a b _ => [(2 * a.toNat, 2), (2 * b.toNat, 1)]
  | .amax _ _ a b _ => [(2 * a.toNat, 2), (2 * b.toNat, 1)]
  | .aminn _ _ a b _ => [(2 * a.toNat, 2), (2 * b.toNat, 1)]
  | .amaxn _ _ a b _ => [(2 * a.toNat, 2), (2 * b.toNat, 1)]
  | .aswap _ _ a b _ => [(2 * a.toNat, 2), (2 * b.toNat, 1)]
  | .acas _ _ a b _ => [(2 * a.toNat, 2), (2 * b.toNat, 2)]
  | .acasgt _ _ a b _ => [(2 * a.toNat, 2), (2 * b.toNat, 2)]
  | .acasgtn _ _ a b _ => [(2 * a.toNat, 2), (2 * b.toNat, 2)]
  | .aaddD _ _ a b _ => [(2 * a.toNat, 2), (2 * b.toNat, 2)]
  | .aandD _ _ a b _ => [(2 * a.toNat, 2), (2 * b.toNat, 2)]
  | .aorD _ _ a b _ => [(2 * a.toNat, 2), (2 * b.toNat, 2)]
  | .axorD _ _ a b _ => [(2 * a.toNat, 2), (2 * b.toNat, 2)]
  | .aminD _ _ a b _ => [(2 * a.toNat, 2), (2 * b.toNat, 2)]
  | .amaxD _ _ a b _ => [(2 * a.toNat, 2), (2 * b.toNat, 2)]
  | .aminnD _ _ a b _ => [(2 * a.toNat, 2), (2 * b.toNat, 2)]
  | .amaxnD _ _ a b _ => [(2 * a.toNat, 2), (2 * b.toNat, 2)]
  | .aswapD _ _ a b _ => [(2 * a.toNat, 2), (2 * b.toNat, 2)]
  | .acasD _ _ a b _ => [(2 * a.toNat, 2), (2 * b.toNat, 2), (2 * b.toNat + 2, 2)]
  | .acasgtD _ _ a b _ => [(2 * a.toNat, 2), (2 * b.toNat, 2), (2 * b.toNat + 2, 2)]
  | .acasgtnD _ _ a b _ => [(2 * a.toNat, 2), (2 * b.toNat, 2), (2 * b.toNat + 2, 2)]
  | .acasver _ _ a b _ => [(2 * a.toNat, 2), (2 * b.toNat, 2), (2 * b.toNat + 2, 2)]
  | .acastag _ _ a b _ => [(2 * a.toNat, 2), (2 * b.toNat, 2), (2 * b.toNat + 2, 2)]
  | .atbeg _ _ _ => []
  | .atend _ => []
  | .atabort _ _ => []
  | .atstat _ _ => []
  | .fenceRel _ _ => []
  | .fenceAcq _ _ => []
  | .fenceAr _ _ => []
  | .phase _ _ a => [(a.toNat, 1)]
  | .bararv _ d a _ => [(d.toNat, 1), (a.toNat, 1)]
  | .barwait _ d a _ => [(d.toNat, 1), (a.toNat, 1)]
  | .barsync _ d a _ => [(d.toNat, 1), (a.toNat, 1)]
  | .barinit _ d a _ => [(d.toNat, 1), (a.toNat, 1)]
  | .waiteq _ _ a b => [(a.toNat, 2), (b.toNat, 1)]
  | .waitne _ _ a b => [(a.toNat, 2), (b.toNat, 1)]
  | .waitge _ _ a b => [(a.toNat, 2), (b.toNat, 1)]
  | .tlwait _ a _ => [(a.toNat, 2)]
  | .tlread _ _ _ => []
  | .qpush _ a _ => [(a.toNat, 1)]
  | .qpop _ _ _ => []
  | .qtake _ _ a => [(a.toNat, 1)]
  | .copy _ _ a => [(a.toNat, 1)]
  | .copyg _ _ a => [(a.toNat, 1)]
  | .prefa _ _ a => [(a.toNat, 1)]
  | .fetchw _ a b => [(a.toNat, 1), (b.toNat, 1)]
  | .put _ _ a => [(a.toNat, 1)]
  | .puts _ _ a => [(a.toNat, 1)]
  | .get _ _ a => [(a.toNat, 1)]
  | .wincnt _ d a g _ => (if g then [(a.toNat, 1), (d.toNat, 2)] else [(a.toNat, 1)])
  | .mloop _ _ _ _ a b => [(a.toNat, 1), (b.toNat, 1)]
  | .slclr _ _ => []
  | .slrd _ _ a _ _ => [(a.toNat, 1)]
  | .slwr _ d a _ => [(a.toNat, 1), (d.toNat, 1)]
  | .slstat _ _ a _ => [(a.toNat, 1)]
  | .slevt _ _ => []
  | .fifoclr _ _ => []
  | .rand _ _ a b => [(a.toNat, 2), (b.toNat, 2)]
  | .randf _ _ a b => [(a.toNat, 2), (b.toNat, 2)]
  | .pbenSet => []
  | .pbenClear => []
  | .dvsecRegisterWrite _ _ _ => []
  | .mbwrWrite _ => []
  | .mbrdWrite _ => []
  | .doeAbort => []
  | .doeDiscovery => []
  | .spdmDoeRequest => []
  | .spdmMctpRequest _ => []
  | .telemetryRead => []
  | .i3cReset => []
  | .powerOn => []
  | .perst => []
  | .cxlReset => []
  | .functionLevelReset => []
  | .port1Reset => []
  | .holdEnd => []
  | .powerFault => []
  | .thermalTrip => []
  | .clockThrottle => []
  | .clockRestore => []
  | .freeze => []
  | .freezeRelease => []
  | .scanShift => []
  | .linkDown _ => []
  | .linkRetrain _ => []
  | .bisnpTimeout _ _ => []
  | .playbillWriteSnoop _ _ => []
  | .queueTailWrite _ => []
  | .hostMemRead _ _ => []
  | .hostMemWrite _ _ => []
  | .hostSnoop _ _ => []
  | .backstopSweep => []
  | .passStep => []
  | .snapshotQuiesce _ => []
  | .classPlace _ => []
  | .steal _ => []
  | .classEnd _ => []
  | .preempt _ => []
  | .residentKill _ => []
  | .fifoFeedFault _ => []
  | .fetchwAnswer _ => []
  | .tickBoundary _ => []
  | .binTimerExpire _ => []
  | .binLaunch _ => []
  | .issueSelect _ _ => []
  | .threadStarved _ => []
  | .laneWake _ => []
  | .pageWalk _ _ _ _ => []
  | .translationFaultResolve _ => []
  | .phaseSweep _ => []
  | .monitorFire _ => []
  | .signalDelivery _ => []
  | .copyRequestStart _ => []
  | .copyComplete _ => []
  | .matrixStep _ _ => []
  | .ticketedSlateAct _ _ => []
  | .fabricOpArrival _ _ _ _ _ _ => []
  | .fabricOpSettle _ _ _ => []
  | .fabricPathTimeout _ => []
  | .gratricPortFail _ => []
  | .flitResend _ => []
  | .deviceNumberConflict => []
  | .uncorrectableError _ _ _ => []
  | .correctedError _ => []
  | .illegalWord _ => []
  | .deferredResultWrite _ _ => []
  | .fabricOpSend _ => []
  | .gratricPortTrain _ => []

/-- The registers an instruction writes. -/
def writesOf : Instr → List (Nat × Nat)
  | .add _ d _ _ => [(d.toNat, 1)]
  | .sub _ d _ _ => [(d.toNat, 1)]
  | .mul _ d _ _ => [(d.toNat, 1)]
  | .mulh _ d _ _ => [(d.toNat, 1)]
  | .mulhn _ d _ _ => [(d.toNat, 1)]
  | .mad _ d _ _ => [(d.toNat, 1)]
  | .min _ d _ _ => [(d.toNat, 1)]
  | .max _ d _ _ => [(d.toNat, 1)]
  | .minn _ d _ _ => [(d.toNat, 1)]
  | .maxn _ d _ _ => [(d.toNat, 1)]
  | .adif _ d _ _ => [(d.toNat, 1)]
  | .adds _ d _ _ => [(d.toNat, 1)]
  | .subs _ d _ _ => [(d.toNat, 1)]
  | .and _ d _ _ => [(d.toNat, 1)]
  | .or _ d _ _ => [(d.toNat, 1)]
  | .xor _ d _ _ => [(d.toNat, 1)]
  | .andn _ d _ _ => [(d.toNat, 1)]
  | .shl _ d _ _ => [(d.toNat, 1)]
  | .shr _ d _ _ => [(d.toNat, 1)]
  | .shra _ d _ _ => [(d.toNat, 1)]
  | .rotl _ d _ _ => [(d.toNat, 1)]
  | .sel _ d _ _ => [(d.toNat, 1)]
  | .popc _ d _ => [(d.toNat, 1)]
  | .clz _ d _ => [(d.toNat, 1)]
  | .ctz _ d _ => [(d.toNat, 1)]
  | .brev _ d _ => [(d.toNat, 1)]
  | .seq _ d _ _ => [(d.toNat, 1)]
  | .sne _ d _ _ => [(d.toNat, 1)]
  | .slt _ d _ _ => [(d.toNat, 1)]
  | .sle _ d _ _ => [(d.toNat, 1)]
  | .sltn _ d _ _ => [(d.toNat, 1)]
  | .slen _ d _ _ => [(d.toNat, 1)]
  | .add64 _ d _ _ => [(d.toNat, 2)]
  | .sub64 _ d _ _ => [(d.toNat, 2)]
  | .mul64 _ d _ _ => [(d.toNat, 2)]
  | .addx _ d _ _ => [(d.toNat, 2)]
  | .addxn _ d _ _ => [(d.toNat, 2)]
  | .shl64 _ d _ _ => [(d.toNat, 2)]
  | .shr64 _ d _ _ => [(d.toNat, 2)]
  | .shra64 _ d _ _ => [(d.toNat, 2)]
  | .div _ d _ _ => [(d.toNat, 2)]
  | .divn _ d _ _ => [(d.toNat, 2)]
  | .rem _ d _ _ => [(d.toNat, 2)]
  | .remn _ d _ _ => [(d.toNat, 2)]
  | .seq64 _ d _ _ => [(d.toNat, 1)]
  | .slt64 _ d _ _ => [(d.toNat, 1)]
  | .sltn64 _ d _ _ => [(d.toNat, 1)]
  | .addi _ d _ _ => [(d.toNat, 1)]
  | .andi _ d _ _ => [(d.toNat, 1)]
  | .ori _ d _ _ => [(d.toNat, 1)]
  | .xori _ d _ _ => [(d.toNat, 1)]
  | .slti _ d _ _ => [(d.toNat, 1)]
  | .sltni _ d _ _ => [(d.toNat, 1)]
  | .muli _ d _ _ => [(d.toNat, 1)]
  | .shli _ d _ _ => [(d.toNat, 1)]
  | .shri _ d _ _ => [(d.toNat, 1)]
  | .shrai _ d _ _ => [(d.toNat, 1)]
  | .rotli _ d _ _ => [(d.toNat, 1)]
  | .bfx _ d _ _ _ _ => [(d.toNat, 1)]
  | .bfi _ d _ _ _ => [(d.toNat, 1)]
  | .addxi _ d _ _ => [(d.toNat, 2)]
  | .lui _ d _ => [(d.toNat, 1)]
  | .lapc _ d _ => [(d.toNat, 2)]
  | .fadd _ d _ _ => [(d.toNat, 1)]
  | .fsub _ d _ _ => [(d.toNat, 1)]
  | .fmul _ d _ _ => [(d.toNat, 1)]
  | .fma _ d _ _ => [(d.toNat, 1)]
  | .fmin _ d _ _ => [(d.toNat, 1)]
  | .fmax _ d _ _ => [(d.toNat, 1)]
  | .fabs _ d _ => [(d.toNat, 1)]
  | .fneg _ d _ => [(d.toNat, 1)]
  | .fsgn _ d _ _ => [(d.toNat, 1)]
  | .feq _ d _ _ => [(d.toNat, 1)]
  | .flt _ d _ _ => [(d.toNat, 1)]
  | .fle _ d _ _ => [(d.toNat, 1)]
  | .fclass _ d _ => [(d.toNat, 1)]
  | .fnma _ d _ _ => [(d.toNat, 1)]
  | .ftoi _ d _ _ => [(d.toNat, 1)]
  | .fton _ d _ _ => [(d.toNat, 1)]
  | .itof _ d _ _ => [(d.toNat, 1)]
  | .ntof _ d _ _ => [(d.toNat, 1)]
  | .f2bf _ d _ _ => [(d.toNat, 1)]
  | .bf2f _ d _ => [(d.toNat, 1)]
  | .f2h _ d _ _ => [(d.toNat, 1)]
  | .h2f _ d _ => [(d.toNat, 1)]
  | .f2e4 _ d _ _ => [(d.toNat, 1)]
  | .e42f _ d _ => [(d.toNat, 1)]
  | .f2e5 _ d _ _ => [(d.toNat, 1)]
  | .e52f _ d _ => [(d.toNat, 1)]
  | .frcp _ d _ => [(d.toNat, 1)]
  | .frsq _ d _ => [(d.toNat, 1)]
  | .fsqrt _ d _ => [(d.toNat, 1)]
  | .fexp2 _ d _ => [(d.toNat, 1)]
  | .flog2 _ d _ => [(d.toNat, 1)]
  | .badd2 _ d _ _ => [(d.toNat, 1)]
  | .bmul2 _ d _ _ => [(d.toNat, 1)]
  | .bfma2 _ d _ _ => [(d.toNat, 1)]
  | .bmax2 _ d _ _ => [(d.toNat, 1)]
  | .dxq _ d _ _ => [(d.toNat, 1)]
  | .dxd _ d _ _ => [(d.toNat, 1)]
  | .ballot _ d _ => [(d.toNat, 1)]
  | .vany _ d _ => [(d.toNat, 1)]
  | .vall _ d _ => [(d.toNat, 1)]
  | .shfl _ d _ _ => [(d.toNat, 1)]
  | .shflx _ d _ _ => [(d.toNat, 1)]
  | .shflup _ d _ _ => [(d.toNat, 1)]
  | .shfldn _ d _ _ => [(d.toNat, 1)]
  | .redadd _ d _ => [(d.toNat, 1)]
  | .redmin _ d _ => [(d.toNat, 1)]
  | .redmax _ d _ => [(d.toNat, 1)]
  | .redfadd _ d _ => [(d.toNat, 1)]
  | .scanadd _ d _ => [(d.toNat, 1)]
  | .scanaddx _ d _ => [(d.toNat, 1)]
  | .movix _ d _ => [(d.toNat, 1)]
  | .movixw _ _ _ => []
  | .lmask _ d => [(d.toNat, 1)]
  | .beq _ _ _ _ => []
  | .bne _ _ _ _ => []
  | .blt _ _ _ _ => []
  | .bge _ _ _ _ => []
  | .bltn _ _ _ _ => []
  | .bgen _ _ _ _ => []
  | .br _ _ => []
  | .jal _ _ => [(2, 2)]
  | .jr _ _ => []
  | .jalr _ d _ => [(d.toNat, 2)]
  | .nop _ => []
  | .exit _ => []
  | .yield _ => []
  | .trapI _ _ => []
  | .brk _ => []
  | .eret _ => []
  | .wbase _ _ => []
  | .chk _ _ _ => []
  | .spawn _ _ _ _ => []
  | .jenrol _ _ => []
  | .jwait _ _ => []
  | .jstrike _ _ => []
  | .tickwait _ => []
  | .rdcw _ d _ => [(d.toNat, 1)]
  | .wrcw _ _ _ => []
  | .ldg _ d _ w _ _ => [(d.toNat, dataRegs w)]
  | .stg _ _ _ _ _ _ => []
  | .lds _ d _ w _ _ => [(d.toNat, dataRegs w)]
  | .sts _ _ _ _ _ _ => []
  | .ldp _ d _ w _ _ => [(d.toNat, dataRegs w)]
  | .stp _ _ _ _ _ _ => []
  | .pf _ _ => []
  | .cwb _ _ => []
  | .cinv _ _ => []
  | .cflush _ _ => []
  | .aadd _ d _ _ _ => (if d = 0 then [] else [(2 * d.toNat, 1)])
  | .aand _ d _ _ _ => (if d = 0 then [] else [(2 * d.toNat, 1)])
  | .aor _ d _ _ _ => (if d = 0 then [] else [(2 * d.toNat, 1)])
  | .axor _ d _ _ _ => (if d = 0 then [] else [(2 * d.toNat, 1)])
  | .amin _ d _ _ _ => (if d = 0 then [] else [(2 * d.toNat, 1)])
  | .amax _ d _ _ _ => (if d = 0 then [] else [(2 * d.toNat, 1)])
  | .aminn _ d _ _ _ => (if d = 0 then [] else [(2 * d.toNat, 1)])
  | .amaxn _ d _ _ _ => (if d = 0 then [] else [(2 * d.toNat, 1)])
  | .aswap _ d _ _ _ => (if d = 0 then [] else [(2 * d.toNat, 1)])
  | .acas _ d _ _ _ => (if d = 0 then [] else [(2 * d.toNat, 1)])
  | .acasgt _ d _ _ _ => (if d = 0 then [] else [(2 * d.toNat, 1)])
  | .acasgtn _ d _ _ _ => (if d = 0 then [] else [(2 * d.toNat, 1)])
  | .aaddD _ d _ _ _ => (if d = 0 then [] else [(2 * d.toNat, 2)])
  | .aandD _ d _ _ _ => (if d = 0 then [] else [(2 * d.toNat, 2)])
  | .aorD _ d _ _ _ => (if d = 0 then [] else [(2 * d.toNat, 2)])
  | .axorD _ d _ _ _ => (if d = 0 then [] else [(2 * d.toNat, 2)])
  | .aminD _ d _ _ _ => (if d = 0 then [] else [(2 * d.toNat, 2)])
  | .amaxD _ d _ _ _ => (if d = 0 then [] else [(2 * d.toNat, 2)])
  | .aminnD _ d _ _ _ => (if d = 0 then [] else [(2 * d.toNat, 2)])
  | .amaxnD _ d _ _ _ => (if d = 0 then [] else [(2 * d.toNat, 2)])
  | .aswapD _ d _ _ _ => (if d = 0 then [] else [(2 * d.toNat, 2)])
  | .acasD _ d _ _ _ => (if d = 0 then [] else [(2 * d.toNat, 2)])
  | .acasgtD _ d _ _ _ => (if d = 0 then [] else [(2 * d.toNat, 2)])
  | .acasgtnD _ d _ _ _ => (if d = 0 then [] else [(2 * d.toNat, 2)])
  | .acasver _ d _ _ _ => (if d = 0 then [] else [(2 * d.toNat, 2)])
  | .acastag _ d _ _ _ => (if d = 0 then [] else [(2 * d.toNat, 2)])
  | .atbeg _ d _ => [(d.toNat, 1)]
  | .atend _ => []
  | .atabort _ _ => []
  | .atstat _ d => [(d.toNat, 1)]
  | .fenceRel _ _ => []
  | .fenceAcq _ _ => []
  | .fenceAr _ _ => []
  | .phase _ _ _ => []
  | .bararv _ d _ _ => [(d.toNat, 1)]
  | .barwait _ _ _ _ => []
  | .barsync _ d _ _ => [(d.toNat, 1)]
  | .barinit _ _ _ _ => []
  | .waiteq _ d _ _ => [(d.toNat, 1)]
  | .waitne _ d _ _ => [(d.toNat, 1)]
  | .waitge _ d _ _ => [(d.toNat, 1)]
  | .tlwait _ _ _ => []
  | .tlread _ d _ => [(d.toNat, 2)]
  | .qpush _ _ _ => []
  | .qpop _ d _ => [(d.toNat, 1)]
  | .qtake _ d _ => [(d.toNat, 2)]
  | .copy _ d _ => (if d = 0 then [] else [(d.toNat, 2)])
  | .copyg _ d _ => (if d = 0 then [] else [(d.toNat, 2)])
  | .prefa _ d _ => (if d = 0 then [] else [(d.toNat, 2)])
  | .fetchw _ _ _ => []
  | .put _ d _ => (if d = 0 then [] else [(d.toNat, 2)])
  | .puts _ d _ => (if d = 0 then [] else [(d.toNat, 2)])
  | .get _ d _ => (if d = 0 then [] else [(d.toNat, 2)])
  | .wincnt _ d _ _ _ => [(d.toNat, 2)]
  | .mloop _ _ _ _ _ _ => []
  | .slclr _ _ => []
  | .slrd _ d _ _ _ => [(d.toNat, 1)]
  | .slwr _ _ _ _ => []
  | .slstat _ d _ _ => [(d.toNat, 2)]
  | .slevt _ d => [(d.toNat, 4)]
  | .fifoclr _ _ => []
  | .rand _ d _ _ => [(d.toNat, 4)]
  | .randf _ d _ _ => [(d.toNat, 1)]
  | .pbenSet => []
  | .pbenClear => []
  | .dvsecRegisterWrite _ _ _ => []
  | .mbwrWrite _ => []
  | .mbrdWrite _ => []
  | .doeAbort => []
  | .doeDiscovery => []
  | .spdmDoeRequest => []
  | .spdmMctpRequest _ => []
  | .telemetryRead => []
  | .i3cReset => []
  | .powerOn => []
  | .perst => []
  | .cxlReset => []
  | .functionLevelReset => []
  | .port1Reset => []
  | .holdEnd => []
  | .powerFault => []
  | .thermalTrip => []
  | .clockThrottle => []
  | .clockRestore => []
  | .freeze => []
  | .freezeRelease => []
  | .scanShift => []
  | .linkDown _ => []
  | .linkRetrain _ => []
  | .bisnpTimeout _ _ => []
  | .playbillWriteSnoop _ _ => []
  | .queueTailWrite _ => []
  | .hostMemRead _ _ => []
  | .hostMemWrite _ _ => []
  | .hostSnoop _ _ => []
  | .backstopSweep => []
  | .passStep => []
  | .snapshotQuiesce _ => []
  | .classPlace _ => []
  | .steal _ => []
  | .classEnd _ => []
  | .preempt _ => []
  | .residentKill _ => []
  | .fifoFeedFault _ => []
  | .fetchwAnswer _ => []
  | .tickBoundary _ => []
  | .binTimerExpire _ => []
  | .binLaunch _ => []
  | .issueSelect _ _ => []
  | .threadStarved _ => []
  | .laneWake _ => []
  | .pageWalk _ _ _ _ => []
  | .translationFaultResolve _ => []
  | .phaseSweep _ => []
  | .monitorFire _ => []
  | .signalDelivery _ => []
  | .copyRequestStart _ => []
  | .copyComplete _ => []
  | .matrixStep _ _ => []
  | .ticketedSlateAct _ _ => []
  | .fabricOpArrival _ _ _ _ _ _ => []
  | .fabricOpSettle _ _ _ => []
  | .fabricPathTimeout _ => []
  | .gratricPortFail _ => []
  | .flitResend _ => []
  | .deviceNumberConflict => []
  | .uncorrectableError _ _ _ => []
  | .correctedError _ => []
  | .illegalWord _ => []
  | .deferredResultWrite _ _ => []
  | .fabricOpSend _ => []
  | .gratricPortTrain _ => []

/-- The fields of an operand. -/
def fieldsOf (r : Nat × Nat) : List Nat := (List.range r.2).map (fun k => r.1 + k)

/-- The register number that a HAZARD on this operand records: the lower of a pair (R138). -/
def hazardsIn (t : Thread) (r : Nat × Nat) : List Nat :=
  let hit := (fieldsOf r).filter (outstanding t)
  if r.2 = 2 then (if hit.isEmpty then [] else [r.1]) else hit.take 1

/-- One of several register numbers; where there is one, that one (log 24, DESIGN CHOICE). -/
def pickHazard : List Nat → Option Nat
  | [] => none
  | [n] => some n
  | ns => some (ns.getD (Config.hazardPick ns % ns.length) 0)

/-- HAZARD (R138): the register number recorded, if a register the instruction reads or writes is outstanding. -/
def hazardOf (t : Thread) (rs : List (Nat × Nat)) : Option Nat := pickHazard ((rs.flatMap (hazardsIn t)).eraseDups)

/-- Whether an instruction writes a k register (R132). -/
def writesK (i : Instr) : Bool :=
  (writesOf i).any (fun r => (fieldsOf r).any (fun n => decide (112 ≤ n) && decide (n < 120)))

/-- Whether an instruction writes a k or c register (R217). -/
def writesUniform (i : Instr) : Bool := (writesOf i).any (fun r => (fieldsOf r).any (fun n => decide (112 ≤ n)))

/-- The 64-bit value of a signed offset or immediate (R250). -/
def sext64 {n : Nat} (i : BitVec n) : DWord := i.signExtend 64

/-- The access size of width code W in bytes (R252). -/
def widthBytes (w : BitVec 3) : Nat :=
  if w == 0 || w == 1 then 1 else if w == 2 || w == 3 then 2 else if w == 4 then 4 else if w == 5 then 8 else 16

/-- The registers a load writes, from its bytes (R299). -/
def widen (w : BitVec 3) (d : Nat) (bs : List Byte) : List (Nat × Word) :=
  let v := wordOfBytes bs
  if w == 0 then [(d, (BitVec.ofNat 8 v).signExtend 32)]
  else if w == 1 then [(d, BitVec.ofNat 32 v)]
  else if w == 2 then [(d, (BitVec.ofNat 16 v).signExtend 32)]
  else if w == 3 then [(d, BitVec.ofNat 32 v)]
  else (List.range (widthBytes w / 4)).map (fun k => (d + k, BitVec.ofNat 32 (wordOfBytes ((bs.drop (4 * k)).take 4))))

/-- The bytes a store writes, from its data registers (R299). -/
def storeBytes (w : BitVec 3) (rd : Nat → Word) (d : Nat) : List Byte :=
  let z := widthBytes w
  if z ≤ 4 then bytesOfNat z (rd d).toNat
  else (List.range (z / 4)).flatMap (fun k => bytesOfNat 4 (rd (d + k)).toNat)

end Sys2Proof.Machine
end

