-- ==== Sys2Proof/Machine/Flags.lean ====
section
/-! DEFINITION. The relations of compares and branches (R262, R269), and what an atomic region records of each instruction
(R215 to R218): tags, rigidity and constraints. -/

namespace Sys2Proof.Machine

/-- A relation on wrapped w-bit values, with its signedness (R216). -/
def relHolds (rel : Rel) (wide : Bool) (x y : DWord) : Bool :=
  let sx : Int := if wide then x.toInt else (loHalf x).toInt
  let sy : Int := if wide then y.toInt else (loHalf y).toInt
  let nx : Nat := if wide then x.toNat else (loHalf x).toNat
  let ny : Nat := if wide then y.toNat else (loHalf y).toNat
  match rel with
  | .eq => nx = ny
  | .ne => nx ≠ ny
  | .lt => sx < sy
  | .ge => sx ≥ sy
  | .le => sx ≤ sy
  | .ltn => nx < ny
  | .gen => nx ≥ ny
  | .len => nx ≤ ny

/-- A relation on two 32-bit registers. -/
def rel32 (rel : Rel) (a b : Word) : Bool := relHolds rel false (a.setWidth 64) (b.setWidth 64)

/-- What a region knows of an operand: no tag, a value tag of its width, or a tag in any other shape (R215, R216). -/
inductive TagRead where
  | plain | tag (t : Tag) | bad
  deriving DecidableEq, Repr

/-- The tag of one register; only g1 to g111 hold tags (R215). -/
def tagAt (r : Region) (n : Nat) : Option Tag := if n = 0 ∨ 111 < n then none else tfind r.tags n

/-- The tag of an operand of `cnt` registers. A pair's tag is held by both halves (R215). -/
def tagOf (r : Region) (n cnt : Nat) : TagRead :=
  if cnt = 1 then
    match tagAt r n with
    | none => .plain
    | some t => if t.wide then .bad else .tag t
  else if cnt = 2 then
    match tagAt r n, tagAt r (n + 1) with
    | none, none => .plain
    | some t, some u => if t = u ∧ t.wide then .tag t else .bad
    | _, _ => .bad
  else if (fieldsOf (n, cnt)).all (fun k => (tagAt r k).isNone) then .plain else .bad

/-- Registers lose their tags. -/
def dropTags (r : Region) (ns : List Nat) : Region := { r with tags := r.tags.filter (fun e => !(ns.contains e.1)) }

/-- A register, or a pair, gains a tag; g0 and k and c registers hold none. -/
def putTag (r : Region) (n : Nat) (t : Tag) : Region :=
  let ns := if t.wide then [n, n + 1] else [n]
  ns.foldl (fun r k => if k = 0 ∨ 111 < k then r else { r with tags := tput r.tags k t }) (dropTags r ns)

/-- An operand of a relation. -/
inductive RelArg where
  | reg (n : Nat) | imm (v : DWord)
  deriving DecidableEq, Repr

/-- The relation that a branch or a set-compare evaluates (R216), its width and its operands. -/
def relationOf : Instr → Option (Rel × Bool × RelArg × RelArg)
  | .beq _ a b _ => some (.eq, false, .reg a.toNat, .reg b.toNat)
  | .bne _ a b _ => some (.ne, false, .reg a.toNat, .reg b.toNat)
  | .blt _ a b _ => some (.lt, false, .reg a.toNat, .reg b.toNat)
  | .bge _ a b _ => some (.ge, false, .reg a.toNat, .reg b.toNat)
  | .bltn _ a b _ => some (.ltn, false, .reg a.toNat, .reg b.toNat)
  | .bgen _ a b _ => some (.gen, false, .reg a.toNat, .reg b.toNat)
  | .seq _ _ a b => some (.eq, false, .reg a.toNat, .reg b.toNat)
  | .sne _ _ a b => some (.ne, false, .reg a.toNat, .reg b.toNat)
  | .slt _ _ a b => some (.lt, false, .reg a.toNat, .reg b.toNat)
  | .sle _ _ a b => some (.le, false, .reg a.toNat, .reg b.toNat)
  | .sltn _ _ a b => some (.ltn, false, .reg a.toNat, .reg b.toNat)
  | .slen _ _ a b => some (.len, false, .reg a.toNat, .reg b.toNat)
  | .slti _ _ a i => some (.lt, false, .reg a.toNat, .imm (sext64 i))
  | .sltni _ _ a i => some (.ltn, false, .reg a.toNat, .imm (sext64 i))
  | .seq64 _ _ a b => some (.eq, true, .reg a.toNat, .reg b.toNat)
  | .slt64 _ _ a b => some (.lt, true, .reg a.toNat, .reg b.toNat)
  | .sltn64 _ _ a b => some (.ltn, true, .reg a.toNat, .reg b.toNat)
  | _ => none

/-- The value of an operand of a relation. -/
def relVal (rd : Nat → Word) (wide : Bool) : RelArg → DWord
  | .reg n => if wide then pairOf (rd n) (rd (n + 1)) else (rd n).setWidth 64
  | .imm v => v

/-- The tag of an operand of a relation; an immediate is plain. -/
def relTag (r : Region) (wide : Bool) : RelArg → TagRead
  | .reg n => tagOf r n (if wide then 2 else 1)
  | .imm _ => .plain

/-- The operand as a constraint records it. -/
def relOperand (r : Region) (rd : Nat → Word) (wide : Bool) (x : RelArg) : Operand :=
  match relTag r wide x with
  | .tag t => .tagged t
  | _ => .plain (relVal rd wide x)

/-- Whether the instruction records a constraint: an operand is tagged and none is in another shape (R216). -/
def recordsConstraint (r : Region) (i : Instr) : Bool :=
  match relationOf i with
  | none => false
  | some (_, w, x, y) =>
    match relTag r w x, relTag r w y with
    | .bad, _ => false
    | _, .bad => false
    | .plain, .plain => false
    | _, _ => true

/-- The instruction would exceed the 16 constraints of a region (R218). -/
def constraintFull (r : Region) (i : Instr) : Bool := recordsConstraint r i && decide (16 ≤ r.constraints.length)

/-- The fields an instruction writes. -/
def writtenFields (i : Instr) : List Nat := (writesOf i).flatMap fieldsOf

/-- The rule for an instruction with no row of its own: any tagged operand makes the region rigid, and what it writes is plain
(R216). -/
def regionGeneric (r : Region) (i : Instr) : Region :=
  let tagged := (readsOf i).any (fun o => decide (tagOf r o.1 o.2 ≠ .plain))
  let r := dropTags r (writtenFields i)
  if tagged then { r with rigid := true } else r

/-- A tag with a constant added, in its width (R216). -/
def tagPlus (t : Tag) (u : DWord) : Tag := { t with c := t.c + u }

/-- What a region records of an instruction that has completed (R216); `rd` reads the registers as they stood before it.
Region loads and stores record their own effects. -/
def regionAfter (r : Region) (i : Instr) (rd : Nat → Word) : Region :=
  match i with
  | .add _ d a b =>
    match tagOf r a.toNat 1, tagOf r b.toNat 1 with
    | .tag t, .plain => putTag r d.toNat (tagPlus t ((rd b.toNat).setWidth 64))
    | .plain, .tag t => putTag r d.toNat (tagPlus t ((rd a.toNat).setWidth 64))
    | _, _ => regionGeneric r i
  | .sub _ d a b =>
    match tagOf r a.toNat 1, tagOf r b.toNat 1 with
    | .tag t, .plain => putTag r d.toNat (tagPlus t (0 - (rd b.toNat).setWidth 64))
    | _, _ => regionGeneric r i
  | .addi _ d a j =>
    match tagOf r a.toNat 1 with
    | .tag t => putTag r d.toNat (tagPlus t (sext64 j))
    | _ => regionGeneric r i
  | .addxi _ d a j =>
    match tagOf r a.toNat 2 with
    | .tag t => putTag r d.toNat (tagPlus t (sext64 j))
    | _ => regionGeneric r i
  | .or _ d a b =>
    match tagOf r a.toNat 1, tagOf r b.toNat 1 with
    | .tag t, .plain => if b.toNat = 0 then putTag r d.toNat t else regionGeneric r i
    | .plain, .tag t => if a.toNat = 0 then putTag r d.toNat t else regionGeneric r i
    | _, _ => regionGeneric r i
  | .movix _ _ a =>
    let n := (rd a.toNat).toNat
    let r' := regionGeneric r i
    if tagOf r n 1 = .plain then r' else { r' with rigid := true }
  | .movixw _ d _ => dropTags (regionGeneric r i) [(rd d.toNat).toNat]
  | .ldg .. => r
  | .stg .. => r
  | _ =>
    if recordsConstraint r i then
      match relationOf i with
      | some (rel, w, x, y) =>
        let c : Constraint := ⟨rel, relOperand r rd w x, relOperand r rd w y, w, relHolds rel w (relVal rd w x) (relVal rd w y)⟩
        dropTags { r with constraints := r.constraints ++ [c] } (writtenFields i)
      | none => regionGeneric r i
    else regionGeneric r i

/-- The major opcode of an instruction word (R254). -/
def majorOf (i : Instr) : Nat := fld (encode i) 25 6

/-- The instructions that trap REGION inside a region (R217). -/
def forbiddenInRegion (i : Instr) : Bool :=
  [41, 42, 45, 46, 47, 48, 49, 50, 51].contains (majorOf i) || writesUniform i ||
  match i with
  | .tickwait _ | .jwait _ _ | .spawn _ _ _ _ | .exit _ | .wbase _ _ | .atbeg _ _ _ => true
  | .wrcw _ _ n => n == 0x010
  | _ => false

/-- REGION (R217): forbidden inside a region, or ATEND or ATABORT outside one. -/
def regionTraps (t : Thread) (i : Instr) : Bool :=
  match t.region with
  | some _ => forbiddenInRegion i
  | none =>
    match i with
    | .atend _ | .atabort _ _ => true
    | _ => false

/-! ## One instruction of a troupe -/

/-- The instruction word as a trap value (R141). -/
def wordVal (i : Instr) : DWord := BitVec.ofNat 64 (encode i)

/-- The register that MOVIX or MOVIXW names by number (R296). -/
def indirectReg (s : State) (g : Group) (i : Instr) (l : Nat) : List (Nat × Nat) :=
  let named (r : RegNo) : List (Nat × Nat) := if (readReg s g l r.toNat).toNat ≤ 127 then [((readReg s g l r.toNat).toNat, 1)] else []
  match i with
  | .movix _ _ a => named a
  | .movixw _ d _ => named d
  | _ => []

/-- The register number of a HAZARD in one lane: of the instruction's own registers, then of the one it names by number (R138, R259, R291). -/
def hazardIn (s : State) (g : Group) (i : Instr) (l : Nat) : Option Nat :=
  let t := threadAt s (g.tk l)
  match hazardOf t (readsOf i ++ writesOf i) with
  | some n => some n
  | none => hazardOf t (indirectReg s g i l)

/-- The base of the scratch aperture (R86). -/
def apertureBase : Nat := 0xFE0000000000

/-- The aperture address of register field `n` of lane `l`, where an error has spoiled that register (R135, R165). -/
def badField (s : State) (g : Group) (n l : Nat) : Option Nat :=
  let a := (threadAt s (g.tk l)).wb.toNat + n
  if n = 0 ∨ 112 ≤ n ∨ !s.badRegs.contains (regKey g.ck g.p a l) then none
  else some (apertureBase + 0x80000000 + ((g.p * 1024 + a) * 32 + l) * 4)

/-- The aperture address of a spoiled register that a lane would read, if one is spoiled (R135, R165). -/
def badSource (s : State) (g : Group) (i : Instr) (l : Nat) : Option Nat :=
  if s.badRegs.isEmpty then none
  else
    ((readsOf i).flatMap fieldsOf ++ (indirectReg s g i l).map (·.1)).findSome? (fun n => badField s g n l)

/-- What an instruction waits for that is a release at core scope or wider, or a fence that acquires: the thread's c writes, and with `true` also
its loads and atomics (R133, R168, R169, R175). -/
def fenceOf : Instr → Option Bool
  | .fenceRel _ c => if 2 ≤ c.toNat then some false else none
  | .fenceAcq _ c => if 1 ≤ c.toNat then some true else none
  | .fenceAr _ c => if 1 ≤ c.toNat then some true else none
  | .phase .. | .bararv .. | .barsync .. | .qpush .. | .qtake .. | .spawn .. => some false
  | .copy .. | .copyg .. | .prefa .. | .put .. | .puts .. | .get .. => some false
  | _ => none

/-- A pending result writes a c register. -/
def writesC (d : Deferred) : Bool := d.ws.any (fun w => match w.1 with | .creg _ => true | _ => false)

/-- Some of what a fence waits for is still to come. -/
def fenceOwed (acq : Bool) (t : Thread) : Bool := t.pend.any (fun d => writesC d || (acq && d.waits.isNone))

/-- A lane that parks before a release or a fence. -/
def fencePark (t : Thread) (i : Instr) : Option LaneAct :=
  match fenceOf i with
  | some acq => if fenceOwed acq t then some (.park (.fence acq)) else none
  | none => none

/-- Steps 2 and 3 of R259 in one lane, then the check of R132, the sources (R165), the room of a region (R218) and what a release waits for
(R133, R168): the fate of a lane that does not reach the instruction's own checks. -/
def preAct (s : State) (g : Group) (i : Instr) (l : Nat) : Option LaneAct :=
  let t := threadAt s (g.tk l)
  match hazardIn s g i l with
  | some n => some (.trap .hazard (BitVec.ofNat 64 n))
  | none =>
    if regionTraps t i then some (.trap .region (wordVal i))
    else if writesK i && g.mask != (troupeAt s g.ck g.p).lmask then some (.trap .uniformSplit (g.mask.setWidth 64))
    else
      match badSource s g i l, t.region with
      | some v, _ => some (.trap .memoryError (BitVec.ofNat 64 v))
      | none, some r => if constraintFull r i then some (.abort 0x12 4) else fencePark t i
      | none, none => fencePark t i

/-- The lanes that reach the instruction's own checks. -/
def goLanes (s : State) (g : Group) (i : Instr) : List Nat := (activeLanes s g).filter (fun l => (preAct s g i l).isNone)

/-- The lanes' fates in ascending order, threading the state through those that reach the instruction. -/
def laneFates (f : State → Nat → State × LaneAct) : State → List (Nat × Option LaneAct) → State × List (Nat × LaneAct)
  | s, [] => (s, [])
  | s, (l, some a) :: r =>
    let q := laneFates f s r
    (q.1, (l, a) :: q.2)
  | s, (l, none) :: r =>
    let p := f s l
    let q := laneFates f p.1 r
    (q.1, (l, p.2) :: q.2)

/-- Whether a fate completes the instruction. -/
def completes : LaneAct → Bool
  | .done _ _ => true
  | .defer _ => true
  | .ticketed _ _ => true
  | _ => false

/-- The open regions of the lanes that completed record the instruction (R216); `b` is the state before it. -/
def regionPass (b : State) (g : Group) (i : Instr) (acts : List (Nat × LaneAct)) (s : State) : State :=
  acts.foldl (fun s la =>
    if completes la.2 && (threadAt b (g.tk la.1)).region.isSome then
      updThread s (g.tk la.1) (fun t => { t with region := t.region.map (fun r => regionAfter r i (readReg b g la.1)) })
    else s) s

/-- The state while an instruction executes: it has issued. -/
def issued (s : State) : State := { s with issue := none, issueSeq := s.issueSeq + 1 }

/-- One instruction on behalf of the group at issue (R125, R259): each lane's checks, its own effect `f`, and what it leaves in
the thread, in ascending lane order. `f` is given the state so far and the lane. -/
def runWord (i : Instr) (s : State) (f : State → Nat → State × LaneAct) : State :=
  let g := groupOf s
  let q := laneFates f (issued s) ((activeLanes s g).map (fun l => (l, preAct s g i l)))
  regionPass s g i q.2 (applyActs g i.marker (s.issueSeq + 1) q.1 q.2)

/-- The park of a fate that parks. -/
def parkOf : LaneAct → Option Park
  | .park k => some k
  | _ => none

/-- How a lane that is held back by a lower lane's park waits: for what the lane below waits for, where that is of the troupe or the core; behind it, where it
is that lane's own translation or results (R97; log 29, DEDUCED). -/
def heldBy : Park → Park
  | .translation .. => .behind
  | .fence _ => .behind
  | p => p

/-- The lanes' fates where a lane that parks holds back every lane above it (R279, R320, R339). -/
def orderedFates (f : State → Nat → State × LaneAct) : Option Park → State → List (Nat × Option LaneAct) → State × List (Nat × LaneAct)
  | _, s, [] => (s, [])
  | h, s, (l, some a) :: r =>
    let q := orderedFates f (h.or (parkOf a)) s r
    (q.1, (l, a) :: q.2)
  | some p, s, (l, none) :: r =>
    let q := orderedFates f (some p) s r
    (q.1, (l, .park (heldBy p)) :: q.2)
  | none, s, (l, none) :: r =>
    let p := f s l
    let q := orderedFates f (parkOf p.2) p.1 r
    (q.1, (l, p.2) :: q.2)

/-- One instruction whose lanes are served strictly in ascending order: `chk` is each lane's own check, `f` its service. -/
def runOrdered (i : Instr) (s : State) (chk : Nat → Option LaneAct) (f : State → Nat → State × LaneAct) : State :=
  let g := groupOf s
  let q := orderedFates f none (issued s) ((activeLanes s g).map (fun l => (l, (preAct s g i l).or (chk l))))
  regionPass s g i q.2 (applyActs g i.marker (s.issueSeq + 1) q.1 q.2)

/-- What a meaning answers. -/
abbrev Out := Host.Outcome State Fault Refusal

/-- An instruction whose effect lies in the registers of its own lane. -/
def runRegs (i : Instr) (s : State) (f : Nat → LaneAct) : State := runWord i s (fun s' l => (s', f l))

end Sys2Proof.Machine
end

