-- ==== Sys2Proof/Machine/Access.lean ====
section
/-! DEFINITION. One lane's access to memory: global space (R298, R164), scratch and the register aperture (R149, R301, R135),
private segments (R150), and region accesses (R213 to R218). -/

namespace Sys2Proof.Machine

/-! ## Scratch -/

/-- The key of byte `o` of a class's scratch. -/
def scratchKey (ck o : Nat) : Nat := ck * 2 ^ 32 + o

/-- An address in the scratch aperture (R86). -/
def inAperture (va : Nat) : Bool := decide (apertureBase ≤ va) && decide (va < apertureBase + 2 ^ 32)

/-- Bytes of a class's scratch. -/
def readScratch (s : State) (ck o n : Nat) : List Byte := rdBytes s.scratch (scratchKey ck o) n
def writeScratch (s : State) (ck o : Nat) (bs : List Byte) : State :=
  let k := scratchKey ck o
  { s with scratch := wrBytes s.scratch k bs, badScratch := s.badScratch.filter (fun x => !(decide (k ≤ x) && decide (x < k + bs.length))) }
def scratchNat (s : State) (ck o n : Nat) : Nat := wordOfBytes (readScratch s ck o n)

/-- Some of `n` bytes of a class's scratch are spoiled (R165). -/
def badScratchAt (s : State) (ck o n : Nat) : Bool :=
  s.badScratch.any (fun x => decide (scratchKey ck o ≤ x) && decide (x < scratchKey ck o + n))

/-- Requests that still hold a scratch line absent (R149). -/
def absentAt (s : State) (ck line : Nat) : Nat := tget 0 s.absent (ck * 2 ^ 25 + line)

/-- The first absent line among those of `n` bytes at `o`. -/
def absentLine (s : State) (ck o n : Nat) : Option Nat :=
  ((List.range ((o % 128 + n + 127) / 128)).map (fun k => o / 128 + k)).find? (fun ln => absentAt s ck ln != 0)

/-- What an access does. -/
inductive AccessOp where
  | load | store (bs : List Byte)
  deriving DecidableEq, Repr

/-- What an access answers. -/
inductive Access where
  | loaded (bs : List Byte) | stored
  | trap (c : Cause) (v : DWord)
  | park (p : Park)
  /-- The region would exceed a limit of R218: it aborts with this DETAIL. -/
  | full (detail : Nat)
  deriving DecidableEq, Repr

/-- The scratch size of a class. -/
def scratchSize (s : State) (ck : Nat) : Nat := (launchOf s ck).scratch

/-- A trap with a natural as its value. -/
def trapNat (c : Cause) (v : Nat) : Access := .trap c (BitVec.ofNat 64 v)

/-- An access to scratch below 0x8000_0000 (R149, R301). -/
def scratchAccess (s : State) (ck o n : Nat) (op : AccessOp) : State × Access :=
  if scratchSize s ck < o + n then (s, trapNat .scratchLimit o)
  else
    match absentLine s ck o n with
    | some ln => (s, .park (.absent ck ln))
    | none =>
      match op with
      | .load => (s, if badScratchAt s ck o n then trapNat .memoryError (apertureBase + o) else .loaded (readScratch s ck o n))
      | .store bs => (writeScratch s ck o bs, .stored)

/-- A word of the register aperture names a register of a troupe position of the class (R135). -/
def apertureOk (s : State) (ck q : Nat) : Bool :=
  decide (q / 32 % 1024 < (launchOf s ck).regs) &&
    ((clsAt s ck).troupePos.contains (q / 32768) || (clsAt s ck).spawnPos.contains (q / 32768))

/-- The key of word `q` of a class's register aperture: the same order as its registers. -/
def apertureKey (ck q : Nat) : Nat := ck * 64 * 32768 + q

/-- A register that an aperture store has written holds no tag in its thread's region (R215). -/
def untagWord (s : State) (ck q : Nat) : State :=
  updThread s (tkey ck (q / 32768) (q % 32)) (fun t =>
    { t with region := t.region.map (fun r => if t.wb.toNat < q / 32 % 1024 then dropTags r [q / 32 % 1024 - t.wb.toNat] else r) })

/-- An access to the register aperture (R135, R301). -/
def apertureAccess (s : State) (ck o n : Nat) (op : AccessOp) : State × Access :=
  if o % 4 ≠ 0 ∨ n < 4 then (s, trapNat .align o)
  else
    let q := (o - 0x80000000) / 4
    let ws := List.range (n / 4)
    if !(ws.all (fun k => apertureOk s ck (q + k))) then (s, trapNat .scratchLimit o)
    else
      match op with
      | .load =>
        (s, match ws.find? (fun k => s.badRegs.contains (apertureKey ck (q + k))) with
            | some k => trapNat .memoryError (apertureBase + o + 4 * k)
            | none => .loaded (ws.flatMap (fun k => bytesOfNat 4 (tget 0 s.regs (apertureKey ck (q + k))).toNat)))
      | .store bs =>
        let s := { s with
          regs := ws.foldl (fun r k => tset 0 r (apertureKey ck (q + k)) (BitVec.ofNat 32 (wordOfBytes ((bs.drop (4 * k)).take 4)))) s.regs,
          badRegs := s.badRegs.filter (fun x => !ws.any (fun k => x == apertureKey ck (q + k))) }
        (ws.foldl (fun s k => untagWord s ck (q + k)) s, .stored)

/-- An access at a scratch offset (R301). -/
def offsetAccess (s : State) (ck o n : Nat) (op : AccessOp) : State × Access :=
  if o < 0x80000000 then scratchAccess s ck o n op else apertureAccess s ck o n op

/-! ## Global space -/

/-- The pages of `n` bytes at `a`: the first byte of the access in each (R164). -/
def pagesOf (a n : Nat) : List Nat := if a / 4096 = (a + n - 1) / 4096 then [a] else [a, (a + n - 1) / 4096 * 4096]

/-- What the page walks of one access decide (R93, R164). -/
inductive Pages where
  | ok (ps : List (Nat × Nat × Nat))
  | trap (v : Nat)
  | park (v : Nat)
  deriving DecidableEq, Repr

/-- The walks of the pages of an access, made together: the first that fails at once traps; else the first that parks parks. -/
def walkPages (s : State) (core ctx : Nat) (kind : Kind) (fab : Bool) : List Nat → State × Pages
  | [] => (s, .ok [])
  | va :: r =>
    let p := if va / 2 ^ 48 ≠ 0 then (s, .bad) else translate s core ctx va kind fab
    let q := walkPages p.1 core ctx kind fab r
    (q.1,
      match p.2 with
      | .perm => .trap va
      | .bad => .trap va
      | .leaf e lv _ =>
        (match q.2 with
         | .ok ps => .ok ((va, e, lv) :: ps)
         | x => x)
      | _ =>
        (match q.2 with
         | .trap v => .trap v
         | _ => .park va))

/-- Two pages of one access agree in memory class and permissions (R164). -/
def samePage (x y : Nat × Nat × Nat) : Bool :=
  eMC x.2.1 == eMC y.2.1 && eR x.2.1 == eR y.2.1 && eW x.2.1 == eW y.2.1 && eX x.2.1 == eX y.2.1

/-- The place of an address from the pages of its access. -/
def placeIn (ps : List (Nat × Nat × Nat)) (va : Nat) : Place :=
  match ps.reverse.find? (fun x => decide (x.1 / 4096 ≤ va / 4096)) with
  | some (_, e, lv) => placeOf e lv va
  | none => ⟨false, 0, 0, false, 0⟩

/-- The link is needed and down: HOST memory, or a host-biased page (R24). -/
def linkDenied (s : State) (pl : Place) : Bool := (pl.host || pl.bias) && !linksUp s

/-- The pages of a global access found and checked: the places by line, or the lane's fate (R164, R298, R24). `fab` exempts a walk from the test
for REMOTE (R92). -/
def globalPages (s : State) (core ctx a n : Nat) (kind : Kind) (fab : Bool := false) : State × (Access ⊕ List (Place × Nat)) :=
  match walkPages s core ctx kind fab (pagesOf a n) with
  | (s, .trap v) => (s, .inl (trapNat .access v))
  | (s, .park v) => (s, .inl (.park (.translation (BitVec.ofNat 64 v) kind)))
  | (s, .ok ps) =>
    if !(ps.all (fun x => ps.all (samePage x))) then (s, .inl (trapNat .align a))
    else
      let pls := (splitLines a (n + 1) n).map (fun x => (placeIn ps x.1, x.2))
      if pls.any (fun x => linkDenied s x.1) then (s, .inl (trapNat .access a))
      else (s, .inr pls)

/-- The bytes of a global load, line by line. -/
def loadPlaces (s : State) (core : Nat) (ro : Option Nat) : List (Place × Nat) → State × List Byte
  | [] => (s, [])
  | (pl, n) :: r =>
    let p := loadLine s core pl ro n
    let q := loadPlaces p.1 core ro r
    (q.1, p.2 ++ q.2)

/-- The bytes of a global store, line by line. -/
def storePlaces (s : State) (core : Nat) (wt : Bool) : List (Place × Nat) → List Byte → State
  | [], _ => s
  | (pl, n) :: r, bs => storePlaces (storeLine s core pl wt (bs.take n)) core wt r (bs.drop n)

/-- A global store issues, line by line (R172). -/
def issuePlaces (s : State) (core : Nat) (wt : Bool) : List (Place × Nat) → List Byte → State
  | [], _ => s
  | (pl, n) :: r, bs => issuePlaces (issueStore s core pl wt (bs.take n)) core wt r (bs.drop n)

/-- A global access outside the scratch aperture, after the address checks (R298). -/
def globalAccess (s : State) (ck a n : Nat) (hint : Bool) (op : AccessOp) : State × Access :=
  let core := coreOf s ck
  let ctx := (clsAt s ck).ctx
  match op with
  | .load =>
    (match globalPages s core ctx a n .read with
     | (s, .inl x) => (s, x)
     | (s, .inr pls) =>
       let ro := if hint then some ck else none
       if pls.any (fun x => wouldSpoil s core x.1 ro x.2) then (s, trapNat .memoryError a)
       else (let q := loadPlaces s core ro pls; (q.1, .loaded q.2)))
  | .store bs =>
    (match globalPages s core ctx a n .write with
     | (s, .inl x) => (s, x)
     | (s, .inr pls) => (issuePlaces s core hint pls bs, .stored))

/-! ## Private segments (R150) -/

/-- The device-physical address of byte `o` of a thread's segment. -/
def ownAddr (s : State) (ck p l o : Nat) : Nat := tget 0 (clsAt s ck).segBase p + (o / 4 * 32 + l) * 4 + o % 4

/-- The place of a byte of a segment: PHASED, die-homed. -/
def ownPlace (s : State) (ck p l o : Nat) : Place := ⟨false, 0, 8 + (clsAt s ck).segDie, false, ownAddr s ck p l o⟩

/-- An access to a segment at offset `o` (R150). -/
def ownAccess (s : State) (ck p l : Nat) (o : Int) (n : Nat) (op : AccessOp) : State × Access :=
  let v : DWord := (BitVec.ofInt 32 o).setWidth 64
  if o % (min n 4 : Nat) ≠ 0 then (s, .trap .align v)
  else if o < 0 ∨ ((launchOf s ck).ownBytes : Int) < o + n then (s, .trap .stackLimit v)
  else
    let b := o.toNat
    let core := coreOf s ck
    let pls := if n < 4 then [(ownPlace s ck p l b, n)]
               else (List.range (n / 4)).map (fun k => (ownPlace s ck p l (b + 4 * k), 4))
    match op with
    | .load =>
      if pls.any (fun x => wouldSpoil s core x.1 none x.2) then (s, .trap .memoryError v)
      else (let q := loadPlaces s core none pls; (q.1, .loaded q.2))
    | .store bs => (storePlaces s core false pls bs, .stored)

/-! ## Region accesses (R213 to R218) -/

/-- The bytes of a load that the region's buffered stores wrote: the index of the last store that covers each. -/
def coveredBy (r : Region) (pl : Place) (n : Nat) : List (Option Nat) :=
  (List.range n).map (fun j =>
    ((List.range r.stores.length).reverse.find? (fun i =>
      match r.stores[i]? with
      | some b => b.host == pl.host && decide (b.pa ≤ pl.pa + j) && decide (pl.pa + j < b.pa + b.size)
      | none => false)))

/-- Memory's bytes with the buffered bytes over them. -/
def mergeBuffered (r : Region) (pl : Place) (cov : List (Option Nat)) (bs : List Byte) : List Byte :=
  (List.range bs.length).map (fun j =>
    match (cov.getD j none).bind (fun i => r.stores[i]?) with
    | some b => b.data.getD (pl.pa + j - b.pa) 0
    | none => bs.getD j 0)

/-- The read-set entry of a line, by its place. -/
def readLineOf (r : Region) (pl : Place) : Option ReadLine :=
  r.reads.find? (fun x => x.host == pl.host && x.line == pl.pa / 128)

/-- The destination's tag, or rigidity, of a load that only buffered stores supplied (R213). -/
def bufferedTag (r : Region) (d : Nat) (pl : Place) (n cnt : Nat) (cov : List (Option Nat)) : Region :=
  let fields := fieldsOf (d, cnt)
  let used := (cov.filterMap id).eraseDups
  let whole :=
    match used with
    | [i] =>
      (match r.stores[i]? with
       | some b => if b.pa = pl.pa ∧ b.size = n then some b.tag else none
       | none => none)
    | _ => none
  match whole with
  | some (some t) => putTag r d t
  | some none => dropTags r fields
  | none =>
    if used.any (fun i => ((r.stores[i]?).bind (·.tag)).isSome) then { dropTags r fields with rigid := true }
    else dropTags r fields

/-- Whether two byte ranges overlap. -/
def overlaps (a n b m : Nat) : Bool := decide (a < b + m) && decide (b < a + n)

/-- Sizes of a region against R218: the DETAIL of CAPACITY, if a limit is exceeded. -/
def overLimit (r : Region) : Option Nat :=
  if 8 < r.inputs.length then some 1
  else if 8 < r.reads.length then some 2
  else if 8 < ((r.stores.map (fun b => (b.host, b.pa / 128))).eraseDups).length then some 3
  else if 16 < r.constraints.length then some 4
  else if 8 < r.stores.length then some 5
  else none

/-- A region load of memory (R213, R215): the region after it, from the line's snapshot (a line in the read set keeps the bytes it
had; log 27, DEDUCED). -/
def recordLoad (r : Region) (pl : Place) (va n : Nat) (line : List Byte) (d cnt : Nat) (partly : Bool) : Region :=
  let fields := fieldsOf (d, cnt)
  let r := if (readLineOf r pl).isSome then r else { r with reads := r.reads ++ [⟨va, pl.host, pl.pa / 128, line⟩] }
  if partly ∨ (n ≠ 4 ∧ n ≠ 8) then { dropTags r fields with rigid := true }
  else
    let wide := n == 8
    match (List.range r.inputs.length).find? (fun k => ((r.inputs[k]?).map (fun x => (x.host, x.pa, x.wide))) == some (pl.host, pl.pa, wide)) with
    | some k => putTag r d ⟨k, 0, wide⟩
    | none =>
      if r.inputs.any (fun x => x.host == pl.host && overlaps pl.pa n x.pa (if x.wide then 8 else 4)) then { dropTags r fields with rigid := true }
      else putTag { r with inputs := r.inputs ++ [⟨va, pl.host, pl.pa, wide⟩] } d ⟨r.inputs.length, 0, wide⟩

/-- A region load in one lane (R213): the fate, with the region's record of it. One of a REMOTE page traps REGION, whatever R35 says of LDG and STG outside a
region (log 27, DEDUCED). -/
def regionLoad (s : State) (tk : Nat) (r : Region) (i : Instr) (ck a n d cnt : Nat) (tagged : Bool) : State × Access :=
  let core := coreOf s ck
  if a % n ≠ 0 then (s, trapNat .align a)
  else
    match globalPages s core (clsAt s ck).ctx a n .read true with
    | (s, .inl x) => (s, x)
    | (s, .inr pls) =>
      let pl := (pls.getD 0 (⟨false, 0, 0, false, 0⟩, 0)).1
      if pl.mc = 0 ∨ pl.mc = 3 then (s, .trap .region (wordVal i))
      else
        let r := if tagged then { r with rigid := true } else r
        let cov := coveredBy r pl n
        if cov.all (·.isSome) then
          let r := bufferedTag r d pl n cnt cov
          (updThread s tk (fun t => { t with region := some r }), .loaded (mergeBuffered r pl cov (List.replicate n 0)))
        else if wouldSpoil s core pl none n then (s, trapNat .memoryError a)
        else
          let q := loadNow s core { pl with pa := pl.pa / 128 * 128 } none 128
          let line := ((readLineOf r pl).map (·.snap)).getD q.2
          let r' := recordLoad r pl a n line d cnt (cov.any (·.isSome))
          match overLimit r' with
          | some k => (s, .full k)
          | none =>
            (updThread q.1 tk (fun t => { t with region := some r' }),
             .loaded (mergeBuffered r' pl cov ((line.drop (a % 128)).take n)))

/-- The buffered stores of a region STG; a 128-bit store counts as two (R216, R218). -/
def bufferStores (a : Nat) (pl : Place) (bs : List Byte) (tag : Option Tag) : List BufStore :=
  if bs.length = 16 then [⟨a, pl.host, pl.pa, 8, bs.take 8, none⟩, ⟨a + 8, pl.host, pl.pa + 8, 8, bs.drop 8, none⟩]
  else [⟨a, pl.host, pl.pa, bs.length, bs, tag⟩]

/-- A region store in one lane, of data with the tag `data` (R213, R216). One to a REMOTE page traps REGION too, whatever R35 says of LDG and STG outside a
region (log 27, DEDUCED). -/
def regionStore (s : State) (tk : Nat) (r : Region) (i : Instr) (ck a : Nat) (data : TagRead) (bs : List Byte) (tagged : Bool) :
    State × Access :=
  let n := bs.length
  if a % n ≠ 0 then (s, trapNat .align a)
  else
    match globalPages s (coreOf s ck) (clsAt s ck).ctx a n .write true with
    | (s, .inl x) => (s, x)
    | (s, .inr pls) =>
      let pl := (pls.getD 0 (⟨false, 0, 0, false, 0⟩, 0)).1
      if pl.mc = 0 ∨ pl.mc = 3 then (s, .trap .region (wordVal i))
      else
        let r := if tagged then { r with rigid := true } else r
        let r' :=
          match data with
          | .plain => { r with stores := r.stores ++ bufferStores a pl bs none }
          | .tag t => if n = 4 ∨ n = 8 then { r with stores := r.stores ++ bufferStores a pl bs (some t) }
                      else { r with rigid := true, stores := r.stores ++ bufferStores a pl bs none }
          | .bad => { r with rigid := true, stores := r.stores ++ bufferStores a pl bs none }
        match overLimit r' with
        | some k => (s, .full k)
        | none => (updThread s tk (fun t => { t with region := some r' }), .stored)

end Sys2Proof.Machine
end

