-- ==== Sys2Proof/Machine/Memory.lean ====
section
/-! DEFINITION. The meanings of loads and stores (R297 to R303), cache control (R304) and atomics (R305 to R308). -/

namespace Sys2Proof.Machine

/-! ## Loads and stores -/

/-- A lane's fate from its access. -/
def accessAct (g : Group) (w : BitVec 3) (d : RegNo) : Access → LaneAct
  | .loaded bs => .defer (widen w d.toNat bs)
  | .stored => .done [] (nextPc g)
  | .trap c v => .trap c v
  | .park p => .park p
  | .full k => .abort 0x12 k

/-- The address of LDG and STG, and the sum of an address pair (R298). -/
def globalAddr (s : State) (g : Group) (l : Nat) (a : RegNo) (w : BitVec 3) (o : BitVec 6) : Nat :=
  (readPair s g l a.toNat + sext64 o * BitVec.ofNat 64 (widthBytes w)).toNat

/-- The scratch offset of LDS and STS (R301). -/
def scratchAddr (s : State) (g : Group) (l : Nat) (a : RegNo) (w : BitVec 3) (o : BitVec 6) : Nat :=
  (readReg s g l a.toNat + sext32 o * BitVec.ofNat 32 (widthBytes w)).toNat

/-- The offset of LDP and STP, exact (R150). -/
def ownOffset (s : State) (g : Group) (l : Nat) (a : RegNo) (w : BitVec 3) (o : BitVec 6) : Int :=
  (readReg s g l a.toNat).toInt + o.toInt * (widthBytes w : Int)

/-- The bytes a store moves. -/
def storeData (s : State) (g : Group) (l : Nat) (d : RegNo) (w : BitVec 3) : List Byte :=
  storeBytes w (readReg s g l) d.toNat

/-- A region keeps of an access outside it what R216 says of any instruction. -/
def noteOutside (s : State) (tk : Nat) (i : Instr) : State :=
  updThread s tk (fun t => { t with region := t.region.map (fun r => regionGeneric r i) })

/-- An access that was made. -/
def made : Access → Bool
  | .loaded _ => true
  | .stored => true
  | _ => false

/-- An access at a scratch offset by an instruction `i` of a region's thread: a tagged operand makes the region rigid, by the tags that stood before the
instruction (`b`), whatever register the access overwrites through the aperture (R216). -/
def noteOperands (b : State) (tk : Nat) (i : Instr) (q : State × Access) : State × Access :=
  match (threadAt b tk).region with
  | none => q
  | some r =>
    if (regionGeneric r i).rigid && made q.2 then
      (updThread q.1 tk (fun t => { t with region := t.region.map (fun x => { x with rigid := true }) }), q.2)
    else q

/-- The address operand of LDG or STG carries a tag (R216). -/
def addrTagged (r : Region) (a : RegNo) : Bool := decide (tagOf r a.toNat 2 ≠ .plain)

/-- One lane of LDG or STG (R298): the address checks, the aperture, then global space, in the region where one is open. Its operands have the tags that
they had before the instruction; the region is as lower lanes' stores have left it (R215). -/
def globalLane (s s' : State) (i : Instr) (g : Group) (l : Nat) (d a : RegNo) (w : BitVec 3) (h : BitVec 2) (o : BitVec 6)
    (op : AccessOp) : State × Access :=
  let va := globalAddr s g l a w o
  let n := widthBytes w
  let tk := g.tk l
  if va / 2 ^ 48 ≠ 0 then (s', trapNat .access va)
  else if inAperture va then
    let q := noteOperands s tk i (offsetAccess s' g.ck (va - apertureBase) n op)
    if made q.2 then (noteOutside q.1 tk i, q.2) else q
  else
    match (threadAt s tk).region, (threadAt s' tk).region, op with
    | some b, some r, .load => regionLoad s' tk r i g.ck va n d.toNat (dataRegs w) (addrTagged b a)
    | some b, some r, .store bs => regionStore s' tk r i g.ck va (tagOf b d.toNat (dataRegs w)) bs (addrTagged b a)
    | _, _, _ => globalAccess s' g.ck va n (h == 1) op

/-- Lanes that each make an access. -/
def opAccess (i : Instr) (w : BitVec 3) (d : RegNo) (f : State → Nat → State × Access) (s : State) : Out :=
  .next (runWord i s (fun s' l => let q := f s' l; (q.1, accessAct (groupOf s) w d q.2)))

/-- The loads of an instruction that left results pending may be performed later than they issued, for as long as the results are pending (R167, R172;
log 59, DEDUCED). A region's loads are performed as they issue. -/
def noteLate (s : State) (ro : Option Nat) (w : BitVec 3) (d : Nat) (va : Nat → Nat) (t : State) : State :=
  let g := groupOf s
  let core := coreOf s g.ck
  let one (l : Nat) : Option LateLoad :=
    if (threadAt t (g.tk l)).pend.any (fun p => p.seq == s.issueSeq + 1) && (threadAt s (g.tk l)).region.isNone && !inAperture (va l) then
      match (globalPages t core (clsAt s g.ck).ctx (va l) (widthBytes w) .read).2 with
      | .inr pls => some ⟨g.tk l, core, s.issueSeq + 1, ro, w, d, pls⟩
      | .inl _ => none
    else none
  { t with lateLoads := t.lateLoads ++ (activeLanes s g).filterMap one }

/-! ## Cache control (R304) -/

/-- The remote-data cache of the core's die drops a line homed elsewhere (R304). -/
def dropOwnRdc (s : State) (core : Nat) (pl : Place) : State :=
  if pl.host then s else { s with rdc := tdel s.rdc (rdcKey (core / 64) (pl.pa / 128)) }

/-- CWB: dirty bytes written back; the copy stays (R304). -/
def cwbLine (s : State) (core : Nat) (pl : Place) : State :=
  let s := inTurn s core pl
  match tfind s.l1 (lineKey core pl.host (pl.pa / 128)) with
  | some ln => writeBack s (lineKey core pl.host (pl.pa / 128)) ln
  | none => s

/-- CINV: clean bytes dropped, dirty bytes stay; a HOST line in M is left (R304). -/
def cinvLine (s : State) (core : Nat) (pl : Place) : State :=
  let k := lineKey core pl.host (pl.pa / 128)
  let s := inTurn s core pl
  let s :=
    match tfind s.l1 k with
    | some ln =>
      if ln.dirty.any id then (if pl.host then s else { s with l1 := tput s.l1 k { ln with valid := false } })
      else { s with l1 := tdel s.l1 k }
    | none => s
  dropOwnRdc s core pl

/-- CFLUSH: CWB, then the whole line dropped (R304). -/
def cflushLine (s : State) (core : Nat) (pl : Place) : State :=
  let k := lineKey core pl.host (pl.pa / 128)
  dropOwnRdc (flushLine (inTurn s core pl) k) core pl

/-- One lane of CWB, CINV or CFLUSH: translated as a load is (R304). -/
def cacheLane (s s' : State) (g : Group) (l : Nat) (a : RegNo) (f : State → Nat → Place → State) : State × LaneAct :=
  let va := (readPair s g l a.toNat).toNat
  let core := coreOf s g.ck
  if va / 2 ^ 48 ≠ 0 then (s', .trap .access (BitVec.ofNat 64 va))
  else if inAperture va then (s', .done [] (nextPc g))
  else
    match globalPages s' core (clsAt s g.ck).ctx va 1 .read with
    | (s', .inr pls) => (pls.foldl (fun s x => f s core x.1) s', .done [] (nextPc g))
    | (s', .inl (.trap c v)) => (s', .trap c v)
    | (s', .inl (.park p)) => (s', .park p)
    | (s', .inl _) => (s', .done [] (nextPc g))

/-- One lane of PF: it never traps and never parks (R304). -/
def prefetchLane (s s' : State) (g : Group) (l : Nat) (a : RegNo) : State × LaneAct :=
  let va := (readPair s g l a.toNat).toNat
  let core := coreOf s g.ck
  if va / 2 ^ 48 ≠ 0 ∨ inAperture va then (s', .done [] (nextPc g))
  else
    match globalPages s' core (clsAt s g.ck).ctx va 1 .read with
    | (s', .inr pls) => (pls.foldl (fun s x => fillLine s core x.1 none) s', .done [] (nextPc g))
    | (s', .inl _) => (s', .done [] (nextPc g))

/-! ## Atomics -/

/-- The location's value after one lane (R306): `x` is the operand or the compare value, `y` the new value. -/
def atomNew (op : Nat) (wide : Bool) (v x y : DWord) : DWord :=
  let same := relHolds .eq wide v x
  let tagged : DWord := BitVec.ofNat 64 ((v.toNat / 2 ^ 48 + 1) % 65536 * 2 ^ 48 + y.toNat % 2 ^ 48)
  match op with
  | 0 => v + x
  | 1 => v &&& x
  | 2 => v ||| x
  | 3 => v ^^^ x
  | 4 => if relHolds .le wide v x then v else x
  | 5 => if relHolds .ge wide v x then v else x
  | 6 => if relHolds .len wide v x then v else x
  | 7 => if relHolds .gen wide v x then v else x
  | 8 => x
  | 9 => if same then y else v
  | 10 => if same && relHolds .lt wide v y then y else v
  | 11 => if same && relHolds .ltn wide v y then y else v
  | 12 => if v.toNat / 2 ^ 48 = x.toNat / 2 ^ 48 then tagged else v
  | _ => if same then tagged else v

/-- An atomic performed in the issuing core's L1 (R163, near). -/
def atomNear (s : State) (core : Nat) (pl : Place) (n : Nat) (f : DWord → DWord) : State × DWord :=
  let s := if pl.mc = 0 then s else readyToWrite s core pl
  let q := loadNow s core pl none n
  let v := BitVec.ofNat 64 (wordOfBytes q.2)
  (storeLine q.1 core pl false (bytesOfNat n (f v).toNat), v)

/-- The line made ready for an atomic at its home slice (R163): no L1 copy of a COHERENT line is left; of a PHASED line the issuing core's,
and its die's remote-data copy, leave (log 20, DEDUCED). -/
def farReady (s : State) (core : Nat) (pl : Place) (n : Nat) : State :=
  let line := pl.pa / 128
  let k := lineKey core pl.host line
  let s := recallHost (inTurn s core pl) pl n
  if pl.mc = 0 then settleLine (dropOwnRdc (flushLine s k) core pl) (core / 64) line
  else dropRdc ((holders s pl.host line).foldl flushLine s) line

/-- An atomic performed at the home slice (R163, far). -/
def atomFar (s : State) (core : Nat) (pl : Place) (n : Nat) (f : DWord → DWord) : State × DWord :=
  let s := farReady s core pl n
  let v := BitVec.ofNat 64 (rdNat s.dmem pl.pa n)
  ({ s with dmem := wrNat s.dmem pl.pa n (f v).toNat }, v)

/-- Another core holds the write token of a line. -/
def tokenElsewhere (s : State) (core : Nat) (pl : Place) : Bool :=
  (otherHolders s core pl.host (pl.pa / 128)).any (fun k => ((tfind s.l1 k).map (·.token)).getD false)

/-- No other core holds the line, and no other die's remote-data cache. -/
def noSharer (s : State) (core : Nat) (pl : Place) : Bool :=
  (otherHolders s core pl.host (pl.pa / 128)).isEmpty
    && s.rdc.all (fun e => e.1 % 2 ^ 60 != pl.pa / 128 || e.1 / 2 ^ 60 == core / 64)

/-- A COHERENT atomic is performed near (R163): by the region's predictor, which the request's first lane asks; the lanes after it in one
request where the first was. -/
def coherentNear (s : State) (core : Nat) (pl : Place) (first : Bool) : Bool :=
  if first then decide (tget 0 s.dirPred (pl.pa / 512) ≤ 1) else holdsToken s core pl

/-- The predictor of the region after a request (R163). -/
def predAfter (s : State) (core : Nat) (pl : Place) : Nat :=
  let c := tget 0 s.dirPred (pl.pa / 512)
  if c ≤ 1 then (if tokenElsewhere s core pl then min 3 (c + 1) else c) else if noSharer s core pl then c - 1 else c

/-- Where an atomic is performed, and the predictor of its region, which moves once for a request (R162, R163). -/
def performAtomic (s : State) (core : Nat) (pl : Place) (scope n : Nat) (first : Bool) (f : DWord → DWord) : State × DWord :=
  if pl.mc = 0 then (if scope = 2 then atomNear s core pl n f else atomFar s core pl n f)
  else if pl.host then atomNear s core pl n f
  else
    let near := coherentNear s core pl first
    let s := if first then { s with dirPred := tset 0 s.dirPred (pl.pa / 512) (predAfter s core pl) } else s
    if near then atomNear s core pl n f else atomFar s core pl n f

/-- The old value that an atomic would take, in the L1 or at the home as it stands once the line is ready, is spoiled (R165). -/
def atomSpoils (s : State) (core : Nat) (pl : Place) (scope n : Nat) (first : Bool) : Bool :=
  let near := if pl.mc = 0 then scope == 2 else pl.host || coherentNear s core pl first
  if near then wouldSpoil s core pl none n else spoiledAt (farReady s core pl n) pl.host pl.pa n

/-- An atomic on scratch through the aperture (R307). -/
def scratchAtomic (s : State) (ck o n : Nat) (f : DWord → DWord) : State × (Access ⊕ DWord) :=
  if 0x80000000 ≤ o then (s, .inl (trapNat .scratchLimit o))
  else
    match scratchAccess s ck o n .load with
    | (s, .loaded bs) =>
      let v := BitVec.ofNat 64 (wordOfBytes bs)
      (writeScratch s ck o (bytesOfNat n (f v).toNat), .inr v)
    | (s, x) => (s, .inl x)

/-- One lane of an atomic after its operands are read (R307, R308); `first` says that its request begins with it. One on spoiled data leaves
memory unchanged (R165). -/
def atomicLane (s : State) (ck va scope n : Nat) (first : Bool) (f : DWord → DWord) : State × (Access ⊕ DWord) :=
  let core := coreOf s ck
  if va / 2 ^ 48 ≠ 0 then (s, .inl (trapNat .access va))
  else if va % n ≠ 0 then (s, .inl (trapNat .align va))
  else if inAperture va then scratchAtomic s ck (va - apertureBase) n f
  else
    match globalPages s core (clsAt s ck).ctx va n .write with
    | (s, .inl x) => (s, .inl x)
    | (s, .inr pls) =>
      let pl := (pls.getD 0 (⟨false, 0, 0, false, 0⟩, 0)).1
      if atomSpoils s core pl scope n first then (s, .inl (trapNat .memoryError va))
      else
        let q := performAtomic s core pl scope n first f
        (q.1, .inr q.2)

/-- The old value's write: none for D pair index 0 (R305). -/
def atomResult (g : Group) (wide : Bool) (d : BitVec 6) (v : DWord) : LaneAct :=
  if d = 0 then .done [] (nextPc g)
  else if wide then .defer [(2 * d.toNat, loHalf v), (2 * d.toNat + 1, hiHalf v)]
  else .defer [(2 * d.toNat, loHalf v)]

/-- The operand registers of an atomic (R305): the operand or compare value, and the new value. -/
def atomOperands (s : State) (g : Group) (l : Nat) (wide : Bool) (b : BitVec 6) : DWord × DWord :=
  if wide then (readPair s g l (2 * b.toNat), readPair s g l (2 * b.toNat + 2))
  else ((readReg s g l (2 * b.toNat)).setWidth 64, (readReg s g l (2 * b.toNat + 1)).setWidth 64)

/-- The address of a lane of an atomic. -/
def atomAddr (s : State) (g : Group) (a : BitVec 6) (l : Nat) : Nat := (readPair s g l (2 * a.toNat)).toNat

/-- A lane is the lowest of those that name its address: the request for it begins with this lane (R162). -/
def firstOf (s : State) (g : Group) (i : Instr) (a : BitVec 6) (l : Nat) : Bool :=
  (goLanes s g i).find? (fun k => atomAddr s g a k == atomAddr s g a l) == some l

/-- An atomic of the troupe: its lanes in ascending order, each applied to what the one before left (R162, R308). -/
def opAtomic (i : Instr) (op : Nat) (wide : Bool) (d a b : BitVec 6) (c : BitVec 3) (s : State) : Out :=
  let g := groupOf s
  .next (runWord i s (fun s' l =>
    let xy := atomOperands s g l wide b
    let q := atomicLane s' g.ck (atomAddr s g a l) c.toNat (if wide then 8 else 4) (firstOf s g i a l)
      (fun v => atomNew op wide v xy.1 xy.2)
    (q.1,
      match q.2 with
      | .inr v => atomResult g wide d v
      | .inl x => accessAct g 4 0 x)))

/-! ## The instructions -/

/-- LDG (R298). -/
def execLdg (m : Bool) (d a : RegNo) (w : BitVec 3) (h : BitVec 2) (o : BitVec 6) (s : State) : Out :=
  .next (noteLate s (if h = 1 then some (groupOf s).ck else none) w d.toNat (globalAddr s (groupOf s) · a w o)
    (runWord (.ldg m d a w h o) s (fun s' l =>
      let q := globalLane s s' (.ldg m d a w h o) (groupOf s) l d a w h o .load
      (q.1, accessAct (groupOf s) w d q.2))))

/-- STG (R298). -/
def execStg (m : Bool) (d a : RegNo) (w : BitVec 3) (h : BitVec 2) (o : BitVec 6) (s : State) : Out :=
  opAccess (.stg m d a w h o) w d (fun s' l =>
    globalLane s s' (.stg m d a w h o) (groupOf s) l d a w h o (.store (storeData s (groupOf s) l d w))) s

/-- LDS (R301). -/
def execLds (m : Bool) (d a : RegNo) (w : BitVec 3) (h : BitVec 2) (o : BitVec 6) (s : State) : Out :=
  opAccess (.lds m d a w h o) w d (fun s' l =>
    offsetAccess s' (groupOf s).ck (scratchAddr s (groupOf s) l a w o) (widthBytes w) .load) s

/-- STS (R301). -/
def execSts (m : Bool) (d a : RegNo) (w : BitVec 3) (h : BitVec 2) (o : BitVec 6) (s : State) : Out :=
  opAccess (.sts m d a w h o) w d (fun s' l =>
    noteOperands s ((groupOf s).tk l) (.sts m d a w h o)
      (offsetAccess s' (groupOf s).ck (scratchAddr s (groupOf s) l a w o) (widthBytes w) (.store (storeData s (groupOf s) l d w)))) s

/-- LDP (R302). -/
def execLdp (m : Bool) (d a : RegNo) (w : BitVec 3) (h : BitVec 2) (o : BitVec 6) (s : State) : Out :=
  opAccess (.ldp m d a w h o) w d (fun s' l =>
    ownAccess s' (groupOf s).ck (groupOf s).p l (ownOffset s (groupOf s) l a w o) (widthBytes w) .load) s

/-- STP (R302). -/
def execStp (m : Bool) (d a : RegNo) (w : BitVec 3) (h : BitVec 2) (o : BitVec 6) (s : State) : Out :=
  opAccess (.stp m d a w h o) w d (fun s' l =>
    ownAccess s' (groupOf s).ck (groupOf s).p l (ownOffset s (groupOf s) l a w o) (widthBytes w) (.store (storeData s (groupOf s) l d w))) s

/-- PF (R304). -/
def execPf (m : Bool) (a : RegNo) (s : State) : Out :=
  .next (runWord (.pf m a) s (fun s' l => prefetchLane s s' (groupOf s) l a))

/-- CWB (R304). -/
def execCwb (m : Bool) (a : RegNo) (s : State) : Out :=
  .next (runWord (.cwb m a) s (fun s' l => cacheLane s s' (groupOf s) l a cwbLine))

/-- CINV (R304). -/
def execCinv (m : Bool) (a : RegNo) (s : State) : Out :=
  .next (runWord (.cinv m a) s (fun s' l => cacheLane s s' (groupOf s) l a cinvLine))

/-- CFLUSH (R304). -/
def execCflush (m : Bool) (a : RegNo) (s : State) : Out :=
  .next (runWord (.cflush m a) s (fun s' l => cacheLane s s' (groupOf s) l a cflushLine))

/-- AADD (R306). -/
def execAadd (m : Bool) (d a b : BitVec 6) (c : BitVec 3) (s : State) : Out :=
  opAtomic (.aadd m d a b c) 0 false d a b c s

/-- AAND (R306). -/
def execAand (m : Bool) (d a b : BitVec 6) (c : BitVec 3) (s : State) : Out :=
  opAtomic (.aand m d a b c) 1 false d a b c s

/-- AOR (R306). -/
def execAor (m : Bool) (d a b : BitVec 6) (c : BitVec 3) (s : State) : Out :=
  opAtomic (.aor m d a b c) 2 false d a b c s

/-- AXOR (R306). -/
def execAxor (m : Bool) (d a b : BitVec 6) (c : BitVec 3) (s : State) : Out :=
  opAtomic (.axor m d a b c) 3 false d a b c s

/-- AMIN (R306). -/
def execAmin (m : Bool) (d a b : BitVec 6) (c : BitVec 3) (s : State) : Out :=
  opAtomic (.amin m d a b c) 4 false d a b c s

/-- AMAX (R306). -/
def execAmax (m : Bool) (d a b : BitVec 6) (c : BitVec 3) (s : State) : Out :=
  opAtomic (.amax m d a b c) 5 false d a b c s

/-- AMINN (R306). -/
def execAminn (m : Bool) (d a b : BitVec 6) (c : BitVec 3) (s : State) : Out :=
  opAtomic (.aminn m d a b c) 6 false d a b c s

/-- AMAXN (R306). -/
def execAmaxn (m : Bool) (d a b : BitVec 6) (c : BitVec 3) (s : State) : Out :=
  opAtomic (.amaxn m d a b c) 7 false d a b c s

/-- ASWAP (R306). -/
def execAswap (m : Bool) (d a b : BitVec 6) (c : BitVec 3) (s : State) : Out :=
  opAtomic (.aswap m d a b c) 8 false d a b c s

/-- ACAS (R306). -/
def execAcas (m : Bool) (d a b : BitVec 6) (c : BitVec 3) (s : State) : Out :=
  opAtomic (.acas m d a b c) 9 false d a b c s

/-- ACASGT (R306). -/
def execAcasgt (m : Bool) (d a b : BitVec 6) (c : BitVec 3) (s : State) : Out :=
  opAtomic (.acasgt m d a b c) 10 false d a b c s

/-- ACASGTN (R306). -/
def execAcasgtn (m : Bool) (d a b : BitVec 6) (c : BitVec 3) (s : State) : Out :=
  opAtomic (.acasgtn m d a b c) 11 false d a b c s

/-- AADD.D (R306). -/
def execAaddD (m : Bool) (d a b : BitVec 6) (c : BitVec 3) (s : State) : Out :=
  opAtomic (.aaddD m d a b c) 0 true d a b c s

/-- AAND.D (R306). -/
def execAandD (m : Bool) (d a b : BitVec 6) (c : BitVec 3) (s : State) : Out :=
  opAtomic (.aandD m d a b c) 1 true d a b c s

/-- AOR.D (R306). -/
def execAorD (m : Bool) (d a b : BitVec 6) (c : BitVec 3) (s : State) : Out :=
  opAtomic (.aorD m d a b c) 2 true d a b c s

/-- AXOR.D (R306). -/
def execAxorD (m : Bool) (d a b : BitVec 6) (c : BitVec 3) (s : State) : Out :=
  opAtomic (.axorD m d a b c) 3 true d a b c s

/-- AMIN.D (R306). -/
def execAminD (m : Bool) (d a b : BitVec 6) (c : BitVec 3) (s : State) : Out :=
  opAtomic (.aminD m d a b c) 4 true d a b c s

/-- AMAX.D (R306). -/
def execAmaxD (m : Bool) (d a b : BitVec 6) (c : BitVec 3) (s : State) : Out :=
  opAtomic (.amaxD m d a b c) 5 true d a b c s

/-- AMINN.D (R306). -/
def execAminnD (m : Bool) (d a b : BitVec 6) (c : BitVec 3) (s : State) : Out :=
  opAtomic (.aminnD m d a b c) 6 true d a b c s

/-- AMAXN.D (R306). -/
def execAmaxnD (m : Bool) (d a b : BitVec 6) (c : BitVec 3) (s : State) : Out :=
  opAtomic (.amaxnD m d a b c) 7 true d a b c s

/-- ASWAP.D (R306). -/
def execAswapD (m : Bool) (d a b : BitVec 6) (c : BitVec 3) (s : State) : Out :=
  opAtomic (.aswapD m d a b c) 8 true d a b c s

/-- ACAS.D (R306). -/
def execAcasD (m : Bool) (d a b : BitVec 6) (c : BitVec 3) (s : State) : Out :=
  opAtomic (.acasD m d a b c) 9 true d a b c s

/-- ACASGT.D (R306). -/
def execAcasgtD (m : Bool) (d a b : BitVec 6) (c : BitVec 3) (s : State) : Out :=
  opAtomic (.acasgtD m d a b c) 10 true d a b c s

/-- ACASGTN.D (R306). -/
def execAcasgtnD (m : Bool) (d a b : BitVec 6) (c : BitVec 3) (s : State) : Out :=
  opAtomic (.acasgtnD m d a b c) 11 true d a b c s

/-- ACASVER (R306). -/
def execAcasver (m : Bool) (d a b : BitVec 6) (c : BitVec 3) (s : State) : Out :=
  opAtomic (.acasver m d a b c) 12 true d a b c s

/-- ACASTAG (R306). -/
def execAcastag (m : Bool) (d a b : BitVec 6) (c : BitVec 3) (s : State) : Out :=
  opAtomic (.acastag m d a b c) 13 true d a b c s

end Sys2Proof.Machine
end

