-- ==== Sys2Proof/Machine/Fetch.lean ====
section
/-! DEFINITION. Fetching the instruction at issue (R127), and what a fetch that fails does (R93, R141, R142). -/

namespace Sys2Proof.Machine

/-- The key of a line in a core's instruction cache. -/
def icacheKey (core : Nat) (host : Bool) (line : Nat) : Nat := core * 2 ^ 60 + host.toNat * 2 ^ 59 + line

/-- A line's bytes for a fetch: from the instruction cache, else from L2, which fills it (R127); none where the word fetched is spoiled, and a line
with spoiled bytes is not kept (R165). -/
def fetchCode (s : State) (core : Nat) (pl : Place) : State × Option (List Byte) :=
  match tfind s.icache (icacheKey core pl.host (pl.pa / 128)) with
  | some bs => (s, some bs)
  | none =>
    let q := homeRead s { pl with pa := pl.pa / 128 * 128 } 128
    if spoiledAt q.1 pl.host pl.pa 4 then (q.1, none)
    else if spoiledAt q.1 pl.host (pl.pa / 128 * 128) 128 then (q.1, some q.2)
    else ({ q.1 with icache := tput q.1.icache (icacheKey core pl.host (pl.pa / 128)) q.2 }, some q.2)

/-- What a fetch answers. -/
inductive Fetched where
  | word (w : Word)
  /-- The page misses, or migrates: the threads park (R93). -/
  | park
  /-- ACCESS, or MEMORY_ERROR: the trap goes to the reconciler (R141). -/
  | fault (c : Cause)
  deriving DecidableEq, Repr

/-- The word at a program counter. No rule gives a word at an address that is not a multiple of 4, which an ERET can reach: it is a
free value (log 31, DESIGN CHOICE). -/
def fetchWord (s : State) (g : Group) : State × Fetched :=
  let core := coreOf s g.ck
  let va := g.pc.toNat
  if va / 2 ^ 48 ≠ 0 ∨ inAperture va then (s, .fault .access)
  else if va % 4 ≠ 0 then
    let q := draw s
    (q.2, .word (BitVec.ofNat 32 q.1))
  else
    match translate s core (clsAt s g.ck).ctx va .exec false with
    | (s, .leaf e lv _) =>
      let pl := placeOf e lv va
      if linkDenied s pl then (s, .fault .access)
      else
        let q := fetchCode s core pl
        (q.1, match q.2 with
              | some bs => .word (BitVec.ofNat 32 (wordOfBytes ((bs.drop (va % 128)).take 4)))
              | none => .fault .memoryError)
    | (s, .miss) => (s, .park)
    | (s, .migrating) => (s, .park)
    | (s, .perm) => (s, .fault .access)
    | (s, .bad) => (s, .fault .access)

/-- A fetch fault in one thread: VECTOR where the handler's first fetch faults, else the fault's own cause (R141, R142). -/
def fetchFault (s : State) (tk : Nat) (c : Cause) (pc : DWord) : State :=
  if (threadAt s tk).inHandler && pc == vectorOf s (ckOfT tk) then toReconciler s tk .vector pc else trapAt s tk c pc pc true

/-- The threads of a group whose fetch failed: they park, or trap to the reconciler; nothing issues. -/
def failFetch (s : State) (g : Group) : Fetched → State
  | .word _ => s
  | .park => (activeLanes s g).foldl (fun s l => updThread s (g.tk l) (fun t => { t with park := some (.translation g.pc .exec) })) { s with issue := none }
  | .fault c => (activeLanes s g).foldl (fun s l => fetchFault s (g.tk l) c g.pc) { s with issue := none }

/-- ILLEGAL_WORD: a word that decodes to no instruction traps ILLEGAL in every thread that executes it (R257). -/
def execIllegalWord (w : Word) (s : State) : Out :=
  let g := groupOf s
  .next ((activeLanes s g).foldl (fun s l => trapAt s (g.tk l) .illegal (w.setWidth 64) g.pc false) (issued s))

/-- The instruction that a fetched word stands for. -/
def instrOf (w : Word) : Instr :=
  match decode w.toNat with
  | .instr i => i
  | .reject _ => .illegalWord w

end Sys2Proof.Machine
end

