-- ==== Sys2Proof/Machine/Records.lean ====
section
/-! DEFINITION. Playbill records (R36 to R52, R371): their fields, the checks of R43, the clashes of R44; and the marks (R53 to
R58). -/

namespace Sys2Proof.Machine

/-! ## The header (R37) -/

/-- A record's 128 bytes. -/
abbrev Rec := List Byte

def recLayout (r : Rec) : Nat := fieldAt r 0 2
def recKind (r : Rec) : Nat := fieldAt r 2 1
def recIntent (r : Rec) : Nat := fieldAt r 3 1
def recVersion (r : Rec) : Nat := fieldAt r 4 4
def recId (r : Rec) : Nat := fieldAt r 8 4
def recParent (r : Rec) : Nat := fieldAt r 12 4
def recWriter (r : Rec) : Nat := fieldAt r 16 2
def recFlags (r : Rec) : Nat := fieldAt r 18 2
def recSeal (r : Rec) : Nat := fieldAt r 20 4
def recForce (r : Rec) : Bool := recFlags r % 2 == 1
def recQuiet (r : Rec) : Bool := recFlags r / 2 % 2 == 1

/-- No byte is set. -/
def allZero (bs : List Byte) : Bool := bs.all (· == 0)

/-- The seal of R41. -/
def sealOf (r : Rec) : Nat := crc32c (r.take 20 ++ [0, 0, 0, 0] ++ (r.drop 24).take 104)

/-! ## Kinds and bodies (R47 to R52) -/

def kContext : Nat := 1
def kMapping : Nat := 2
def kWindow : Nat := 3
def kQueue : Nat := 4
def kResident : Nat := 5
def kSnapshot : Nat := 6
def kFirmware : Nat := 7

def cxPriority (r : Rec) : Nat := fieldAt r 0x20 1
def cxCoreQuota (r : Rec) : Nat := fieldAt r 0x22 2
def cxTick (r : Rec) : Nat := fieldAt r 0x24 4
def cxL2 (r : Rec) : Nat := fieldAt r 0x28 2
def cxSaveArea (r : Rec) : Nat := fieldAt r 0x30 8
def cxSaveSize (r : Rec) : Nat := fieldAt r 0x38 8
def cxRestore (r : Rec) : Nat := fieldAt r 0x40 4
def cxMemQuota (r : Rec) : Nat := fieldAt r 0x48 8

def mpVa (r : Rec) : Nat := fieldAt r 0x20 8
def mpLen (r : Rec) : Nat := fieldAt r 0x28 8
def mpSrcKind (r : Rec) : Nat := fieldAt r 0x30 1
def mpClass (r : Rec) : Nat := fieldAt r 0x31 1
def mpPlace (r : Rec) : Nat := fieldAt r 0x32 1
def mpPerms (r : Rec) : Nat := fieldAt r 0x33 1
def mpPageSize (r : Rec) : Nat := fieldAt r 0x34 1
def mpBias (r : Rec) : Nat := fieldAt r 0x35 1
def mpDirty (r : Rec) : Nat := fieldAt r 0x36 1
def mpSource (r : Rec) : Nat := fieldAt r 0x38 8

def wdNo (r : Rec) : Nat := fieldAt r 0x20 2
def wdRole (r : Rec) : Nat := fieldAt r 0x22 1
def wdPerms (r : Rec) : Nat := fieldAt r 0x23 1
def wdPeerDev (r : Rec) : Nat := fieldAt r 0x24 2
def wdPeerWin (r : Rec) : Nat := fieldAt r 0x26 2
def wdVa (r : Rec) : Nat := fieldAt r 0x28 8
def wdSize (r : Rec) : Nat := fieldAt r 0x30 8

def quRing (r : Rec) : Nat := fieldAt r 0x20 8
def quItemSize (r : Rec) : Nat := fieldAt r 0x28 4
def quItems (r : Rec) : Nat := fieldAt r 0x2C 4
def quCb (r : Rec) : Nat := fieldAt r 0x30 4
def quFlags (r : Rec) : Nat := fieldAt r 0x34 1
def quTail (r : Rec) : Nat := fieldAt r 0x38 8

def rsSrcKind (r : Rec) : Nat := fieldAt r 0x20 1
def rsPolicy (r : Rec) : Nat := fieldAt r 0x21 1
def rsPriority (r : Rec) : Nat := fieldAt r 0x22 1
def rsHslate (r : Rec) : Nat := fieldAt r 0x23 1
def rsImageSize (r : Rec) : Nat := fieldAt r 0x24 4
def rsImageSrc (r : Rec) : Nat := fieldAt r 0x28 8
def rsImageVa (r : Rec) : Nat := fieldAt r 0x30 8
def rsEntry (r : Rec) : Nat := fieldAt r 0x38 4
def rsLaunch (r : Rec) : Nat := fieldAt r 0x3C 4
def rsRefs (r : Rec) : List Nat := ((List.range 8).map (fun k => fieldAt r (0x40 + 4 * k) 4)).filter (· != 0)

def snMode (r : Rec) : Nat := fieldAt r 0x20 1
def snTkind (r : Rec) : Nat := fieldAt r 0x21 1
def snTwin (r : Rec) : Nat := fieldAt r 0x22 2
def snBase (r : Rec) : Nat := fieldAt r 0x24 4
def snTaddr (r : Rec) : Nat := fieldAt r 0x28 8
def snTsize (r : Rec) : Nat := fieldAt r 0x30 8

def fwPart (r : Rec) : Nat := fieldAt r 0x20 1
def fwDies (r : Rec) : Nat := fieldAt r 0x21 1
def fwImageSize (r : Rec) : Nat := fieldAt r 0x24 4
def fwImageSrc (r : Rec) : Nat := fieldAt r 0x28 8
def fwSrcKind (r : Rec) : Nat := fieldAt r 0x30 1
def fwVer (r : Rec) : Nat := fieldAt r 0x34 4
def fwItem (r : Rec) : Nat := fieldAt r 0x38 4

/-- The listed byte ranges of a body, as (offset, length); every other body byte must be zero (R46). -/
def bodyLayout : Nat → List (Nat × Nat)
  | 1 => [(0x20, 1), (0x22, 2), (0x24, 4), (0x28, 2), (0x30, 8), (0x38, 8), (0x40, 4), (0x48, 8)]
  | 2 => [(0x20, 8), (0x28, 8), (0x30, 7), (0x38, 8)]
  | 3 => [(0x20, 8), (0x28, 8), (0x30, 8)]
  | 4 => [(0x20, 8), (0x28, 4), (0x2C, 4), (0x30, 4), (0x34, 1), (0x38, 8)]
  | 5 => [(0x20, 8), (0x28, 8), (0x30, 8), (0x38, 8), (0x40, 32)]
  | 6 => [(0x20, 4), (0x24, 4), (0x28, 8), (0x30, 8)]
  | 7 => [(0x20, 2), (0x24, 4), (0x28, 8), (0x30, 1), (0x34, 4), (0x38, 4)]
  | _ => []

/-- Every unlisted body byte is zero (R46). -/
def bodyZeros (r : Rec) : Bool :=
  (List.range 96).all (fun k =>
    let o := 0x20 + k
    (bodyLayout (recKind r)).any (fun x => decide (x.1 ≤ o) && decide (o < x.1 + x.2)) || r.getD o 0 == 0)

/-- Bytes of a page size (R48). -/
def pageBytes : Nat → Nat
  | 0 => 2 ^ 12
  | 1 => 2 ^ 16
  | 2 => 2 ^ 21
  | _ => 2 ^ 30

/-- A power of two between bounds. -/
def powerIn (x lo hi : Nat) : Bool := decide (lo ≤ x) && decide (x ≤ hi) && x == 2 ^ Nat.log2 x

/-- A virtual range below 2^48 and clear of the scratch aperture (R48, R86). -/
def vaOk (va n : Nat) : Bool := decide (va + n ≤ 2 ^ 48) && (decide (va + n ≤ 0xFE0000000000) || decide (0xFE0100000000 ≤ va))

/-- Two ranges overlap. -/
def rangesMeet (a n b m : Nat) : Bool := decide (a < b + m) && decide (b < a + n)

/-- Bytes of the marks table (R29). -/
def marksBytes : Nat := 2 ^ 25

/-- A range wholly in the exported part (R90). -/
def exported (s : State) (a n : Nat) : Bool := decide (a + n ≤ s.cfg.hdmSize)

/-- A range wholly in the exported part and clear of the marks table (R29, R48, R371). -/
def hdmOk (s : State) (a n : Nat) : Bool := exported s a n && (n == 0 || !rangesMeet a n s.cfg.mkoff marksBytes)

/-- The body's limits (R47 to R52). PLACE [7:4] must be zero whatever the source, a WINDOW's range lies as a MAPPING's does, and a snapshot's
memory target and a firmware image in device memory lie in the exported part (log 57, DEDUCED). -/
def bodyOk (s : State) (r : Rec) : Bool :=
  match recKind r with
  | 1 =>
    decide (cxPriority r ≤ 7) && decide (1 ≤ cxCoreQuota r) && decide (cxCoreQuota r ≤ 512) && decide (1000 ≤ cxTick r)
      && decide (cxTick r ≤ 10000000) && decide (cxL2 r ≤ 48) && cxSaveArea r % 4096 == 0 && cxSaveSize r % 4096 == 0
      && hdmOk s (cxSaveArea r) (cxSaveSize r)
  | 2 =>
    let ps := pageBytes (mpPageSize r)
    decide (mpPageSize r ≤ 3) && decide (mpSrcKind r ≤ 2) && mpVa r % ps == 0 && mpLen r != 0 && mpLen r % ps == 0
      && vaOk (mpVa r) (mpLen r) && (decide (mpClass r ≤ 1) || (mpClass r == 2 && mpSrcKind r == 1)) && decide (mpPlace r < 16)
      && [1, 3, 5, 7].contains (mpPerms r) && decide (mpBias r ≤ 1) && (mpSrcKind r != 1 || mpBias r == 0) && decide (mpDirty r ≤ 1)
      && (match mpSrcKind r with
          | 0 => mpSource r == 0
          | 2 => mpSource r % ps == 0 && hdmOk s (mpSource r) (mpLen r)
          | _ => mpClass r != 2 || mpSource r % ps == 0)
  | 3 =>
    decide (wdRole r ≤ 1) && decide (wdPeerDev r < 4096) && wdVa r % 4096 == 0 && vaOk (wdVa r) (wdSize r) && wdSize r != 0
      && wdSize r % 4096 == 0
  | 4 =>
    powerIn (quItemSize r) 4 4096 && powerIn (quItems r) 2 (2 ^ 24) && quRing r % quItemSize r == 0 && decide (quCb r < 2 ^ 20)
      && decide (quFlags r < 8) && (quFlags r / 2 == 1 || quFlags r / 2 == 2) && quTail r % 16 == 0
  | 5 =>
    (rsSrcKind r == 1 || rsSrcKind r == 2) && decide (rsPolicy r ≤ 2) && decide (rsPriority r ≤ 7) && decide (rsHslate r ≤ 7)
      && decide (4096 ≤ rsImageSize r) && decide (rsImageSize r ≤ 2 ^ 28) && rsImageSize r % 4096 == 0
      && (rsSrcKind r == 1 || exported s (rsImageSrc r) (rsImageSize r)) && rsImageVa r % 4096 == 0
      && vaOk (rsImageVa r) (rsImageSize r) && rsEntry r % 4 == 0 && decide (rsEntry r < rsImageSize r) && rsLaunch r % 8 == 0
      && decide (rsLaunch r + 256 ≤ rsImageSize r)
  | 6 =>
    decide (snMode r ≤ 1) && decide (snTkind r ≤ 1) && (snMode r == 1 || snBase r == 0)
      && (snTkind r == 1 || exported s (snTaddr r) (snTsize r))
  | _ =>
    decide (fwPart r ≤ 4) && fwDies r != 0
      && (if fwPart r < 3 then (fwSrcKind r == 1 || fwSrcKind r == 2) && (fwSrcKind r == 1 || exported s (fwImageSrc r) (fwImageSize r))
          else fwSrcKind r == 0 && fwImageSize r == 0
            && (if fwPart r = 3 then decide (fwItem r ≤ 63) else decide (fwItem r ≤ 511) && fwDies r == 2 ^ (fwItem r / 64)))

/-! ## The prompt book -/

def Mark.blank : Mark := ⟨.unseen, 0, 0, 0, 0, 0, 0⟩

def Entry.blank : Entry := ⟨[], 0, none, none, Mark.blank, Mark.blank, Mark.blank, false, [], false, false, false, false, false, 0⟩

def entryAt (s : State) (id : Nat) : Entry := tget Entry.blank s.book id
def setEntry (s : State) (id : Nat) (e : Entry) : State := { s with book := tput s.book id e }
def updEntry (s : State) (id : Nat) (f : Entry → Entry) : State := setEntry s id (f (entryAt s id))

/-- The newest accepted record of an id; all zero where there is none. -/
def wantOf (s : State) (id : Nat) : Rec := ((entryAt s id).want).getD []

/-- The record whose actual state an id has; all zero where there is none. -/
def builtOf (s : State) (id : Nat) : Rec := ((entryAt s id).built).getD []

/-- An id counts as CONVERGED (R65). -/
def converged (s : State) (id : Nat) : Bool := (entryAt s id).stand.state == .converged

/-- A state in which a record takes part in clashes (R44). -/
def standing (e : Entry) : Bool := [MarkState.pending, .blocked, .converging, .converged].contains e.stand.state

/-- The virtual range that a record covers (R44). -/
def coverOf (r : Rec) : Option (Nat × Nat) :=
  match recKind r with
  | 2 => some (mpVa r, mpLen r)
  | 3 => some (wdVa r, wdSize r)
  | 5 => some (rsImageVa r, rsImageSize r)
  | _ => none

/-- Two records clash (R44, R371): a MAPPING and a WINDOW of one context too, whatever the window's role (log 42, DEDUCED). -/
def clashes (a b : Rec) : Bool :=
  let both (k : Nat) : Bool := recKind a == k && recKind b == k
  (both 1 && cxSaveSize a != 0 && cxSaveSize b != 0 && rangesMeet (cxSaveArea a) (cxSaveSize a) (cxSaveArea b) (cxSaveSize b))
    || (both 3 && wdNo a == wdNo b) || (both 4 && quCb a == quCb b)
    || (both 7 && fwPart a == fwPart b && (fwDies a &&& fwDies b) != 0)
    || (recParent a == recParent b &&
        (match coverOf a, coverOf b with
         | some x, some y => rangesMeet x.1 x.2 y.1 y.2
         | _, _ => false))

/-- Reason codes (R57). -/
def rLAYOUT : Nat := 0x0001
def rKIND : Nat := 0x0002
def rID : Nat := 0x0003
def rPARENT : Nat := 0x0004
def rINTENT : Nat := 0x0005
def rRESERVED : Nat := 0x0006
def rIMMUTABLE : Nat := 0x0007
def rFIELD : Nat := 0x0008
def rCLASH : Nat := 0x0009
def rTORN : Nat := 0x0101
def rSEAL : Nat := 0x0102
def rREGRESSION : Nat := 0x0103
def rREUSED : Nat := 0x0104
def rPARENT_WAIT : Nat := 0x0201
def rREF_WAIT : Nat := 0x0202
def rRESOURCES : Nat := 0x0203
def rPEER_WAIT : Nat := 0x0204
def rPARENT_ABSENT : Nat := 0x0205
def rMEMORY_LOST : Nat := 0x0301
def rLINK : Nat := 0x0302
def rSIGNATURE : Nat := 0x0303
def rRELAUNCH_LIMIT : Nat := 0x0304

/-- INTENT is allowed for the kind (R39). -/
def intentOk (r : Rec) : Bool := decide (recIntent r ≤ 2) && !(recIntent r == 2 && [2, 6, 7].contains (recKind r))

/-- The links of a snapshot all reach COMPLETE snapshots, down to a FULL one (R80). -/
def chainOk (s : State) : Nat → Nat → Bool
  | 0, _ => false
  | f + 1, id =>
    let r := builtOf s id
    recKind r == 6 && (entryAt s id).stand.state == .complete && (snMode r == 0 || chainOk s f (snBase r))

/-- What a REF names is no MAPPING, QUEUE or WINDOW of the parent (R51): its converged state, or, for an id that has converged but has no
such state now, its last valid record. An id that has never converged passes (log 29, DEDUCED). -/
def refBad (s : State) (r : Rec) (n : Nat) : Bool :=
  let e := entryAt s n
  let alien (w : Rec) : Bool := !([2, 3, 4].contains (recKind w) && recParent w == recParent r)
  if e.conv then alien (builtOf s n) else e.ever && alien e.copy

/-- The limits that other records decide (R51, R79, R80, R64). -/
def crossOk (s : State) (id count : Nat) (r : Rec) : Bool :=
  let b := (entryAt s id).built
  match recKind r with
  | 1 =>
    (match b with
     | some x => cxRestore x == cxRestore r
     | none => cxRestore r == 0 || chainOk s (s.book.length + 1) (cxRestore r))
  | 5 => (rsRefs r).all (fun n => n != id && decide (n < count) && !refBad s r n)
  | 6 =>
    snMode r == 0 || (snBase r != id &&
      (let w := wantOf s (snBase r)
       recKind w == 6 && recParent w == recParent r && (recIntent w != 0 || recKind (builtOf s (snBase r)) == 6)
         && (entryAt s (snBase r)).stand.state != .absent))
  | _ => true

/-- The checks of R43 in order, with PBCOUNT `count`: the reason of the first that fails. IMMUTABLE compares with whatever state the id has,
CONVERGED or not yet (log 57, DEDUCED). -/
def checkRecord (s : State) (id count : Nat) (r : Rec) : Option Nat :=
  let k := recKind r
  let p := recParent r
  if recLayout r ≠ 3 then some rLAYOUT
  else if k = 0 ∨ 7 < k then some rKIND
  else if recId r ≠ id then some rID
  else if (if k = 1 ∨ k = 7 then p ≠ 0xFFFFFFFF else p = 0 ∨ count ≤ p ∨ p = id) then some rPARENT
  else if !intentOk r then some rINTENT
  else if 4 ≤ recFlags r ∨ fieldAt r 0x18 8 ≠ 0 then some rRESERVED
  else if (match (entryAt s id).built with | some b => recKind b != k || recParent b != p | none => false) then some rIMMUTABLE
  else if recIntent r = 0 then none
  else if !(bodyZeros r && bodyOk s r && crossOk s id count r) then some rFIELD
  else if s.book.any (fun e =>
      e.1 != id && standing e.2 && (match e.2.want with | some w => recIntent w != 0 && clashes r w | none => false)) then some rCLASH
  else none

/-! ## Marks (R53 to R58) -/

/-- The state codes (R55). -/
def MarkState.code : MarkState → Nat
  | .unseen => 0 | .pending => 1 | .blocked => 2 | .converging => 3 | .converged => 4 | .draining => 5 | .absent => 6
  | .conflict => 7 | .refused => 8 | .faulted => 9 | .complete => 10

/-- The next sequence number: it wraps, skipping 0 (R54). -/
def nextSeq (n : Word) : Word := if n + 1 = 0 then 1 else n + 1

/-- The 32 bytes of a mark (R53). -/
def markBytes (m : Mark) (whenAt : Nat) (sq : Word) : List Byte :=
  bytesOfNat 4 m.observed ++ bytesOfNat 1 m.state.code ++ bytesOfNat 1 m.step ++ bytesOfNat 2 m.reason ++ bytesOfNat 4 m.done
    ++ bytesOfNat 4 m.total ++ bytesOfNat 8 whenAt ++ bytesOfNat 2 m.writer ++ [0, 0] ++ bytesOfNat 4 sq.toNat

/-- A mark written to the table at MKOFF, with its sequence number; a copy that the host holds is invalidated first (R25, R53, R54). -/
def putMark (s : State) (id : Nat) (m : Mark) : State :=
  let sq := nextSeq s.markSeq
  let s := recallHost s ⟨false, 0, 0, false, s.cfg.mkoff + 32 * id⟩ 32
  { s with markSeq := sq, marksWritten := s.marksWritten || id != 0,
           dmem := wrBytes s.dmem (s.cfg.mkoff + 32 * id) (markBytes m s.timebase sq) }

/-- A mark of a record. QUIET, of the copy that the mark is about, leaves out one that only moves the progress (R38); CONFLICT and REFUSED
leave the state the record stands in (R65). -/
def writeMark (s : State) (id : Nat) (quiet : Bool) (m : Mark) : State :=
  let e := entryAt s id
  let aside := m.state == .conflict || m.state == .refused
  let still := quiet && e.shown.state == m.state && e.shown.step == m.step && e.shown.reason == m.reason
  let done := m.state == .converged || m.state == .complete
  let s := setEntry s id { e with stand := if aside then e.stand else m, shown := if still then e.shown else m,
                                  last := if done then m else e.last, conv := e.conv || done, ever := e.ever || done }
  if still then s else putMark s id m

/-- A mark of the record's newest accepted version: OBSERVED and WRITER are its own (R53). -/
def markAs (s : State) (id : Nat) (st : MarkState) (step reason done total : Nat) : State :=
  let w := wantOf s id
  writeMark s id (recQuiet w) ⟨st, step, reason, done, total, recVersion w, recWriter w⟩

/-- The counts at which a progress mark is written (R67). -/
def thresholds (total : Nat) : List Nat :=
  (((List.range 15).map (fun k => ((k + 1) * total + 15) / 16)).filter (fun d => decide (d < total) && d != 0)).eraseDups

/-- A progress mark, if `done` is a threshold (R67). -/
def progressMark (s : State) (id : Nat) (st : MarkState) (step reason done total : Nat) : State :=
  if (thresholds total).contains done && !recQuiet (wantOf s id) then markAs s id st step reason done total else s

/-- The marks of a step that gets to count `k` within one pass: DONE 0, then the progress marks (R66, R67). -/
def partMarks (s : State) (id : Nat) (st : MarkState) (step reason k total : Nat) : State :=
  ((thresholds total).filter (fun d => decide (d ≤ k))).foldl (fun s d => progressMark s id st step reason d total)
    (markAs s id st step reason 0 total)

/-- The marks of a step that runs to its end within one pass. -/
def stepMarks (s : State) (id : Nat) (st : MarkState) (step reason total : Nat) : State := partMarks s id st step reason total total

end Sys2Proof.Machine
end

