-- ==== Sys2Proof/Machine/Integer.lean ====
section
/-! DEFINITION. The meanings of IALU, LOGIC, ICMP, IWIDE and the immediate forms (R258 to R268). In a formula x, y and z are the
values of A, B and D; operands are read before any write. -/

namespace Sys2Proof.Machine

/-- D := f(a, b), in each lane. -/
def op3 (i : Instr) (d a b : RegNo) (f : Word → Word → Word) (s : State) : Out :=
  .next (runRegs i s (fun l => .done [(d.toNat, f (readReg s (groupOf s) l a.toNat) (readReg s (groupOf s) l b.toNat))]
    (nextPc (groupOf s))))

/-- D := f(a, b, d): D is read as a source. -/
def op3d (i : Instr) (d a b : RegNo) (f : Word → Word → Word → Word) (s : State) : Out :=
  .next (runRegs i s (fun l => .done [(d.toNat, f (readReg s (groupOf s) l a.toNat) (readReg s (groupOf s) l b.toNat)
    (readReg s (groupOf s) l d.toNat))] (nextPc (groupOf s))))

/-- D := f(a). -/
def op2 (i : Instr) (d a : RegNo) (f : Word → Word) (s : State) : Out :=
  .next (runRegs i s (fun l => .done [(d.toNat, f (readReg s (groupOf s) l a.toNat))] (nextPc (groupOf s))))

/-- The two writes of a pair destination. -/
def pairWrites (d : RegNo) (v : DWord) : List (Nat × Word) := [(d.toNat, loHalf v), (d.toNat + 1, hiHalf v)]

/-- Pair D := f(pair a, pair b). -/
def opPair (i : Instr) (d a b : RegNo) (f : DWord → DWord → DWord) (s : State) : Out :=
  .next (runRegs i s (fun l => .done (pairWrites d (f (readPair s (groupOf s) l a.toNat) (readPair s (groupOf s) l b.toNat)))
    (nextPc (groupOf s))))

/-- Pair D := f(pair a, single b). -/
def opPairWord (i : Instr) (d a b : RegNo) (f : DWord → Word → DWord) (s : State) : Out :=
  .next (runRegs i s (fun l => .done (pairWrites d (f (readPair s (groupOf s) l a.toNat) (readReg s (groupOf s) l b.toNat)))
    (nextPc (groupOf s))))

/-- Single D := 1 where the relation of pairs a and b holds, else 0. -/
def opPairRel (i : Instr) (d a b : RegNo) (f : DWord → DWord → Bool) (s : State) : Out :=
  .next (runRegs i s (fun l => .done [(d.toNat, bool32 (f (readPair s (groupOf s) l a.toNat) (readPair s (groupOf s) l b.toNat)))]
    (nextPc (groupOf s))))

/-- Pair D := f(pair a, pair b), deferred (R264). -/
def opPairDefer (i : Instr) (d a b : RegNo) (f : DWord → DWord → DWord) (s : State) : Out :=
  .next (runRegs i s (fun l => .defer (pairWrites d (f (readPair s (groupOf s) l a.toNat) (readPair s (groupOf s) l b.toNat)))))

/-! ## The functions of the tables -/

/-- The bound of ADDS and SUBS (R260). -/
def clamp32 (x : Int) : Int := min (max x (-2147483648)) 2147483647

/-- R260. -/
def fAdd (x y : Word) : Word := x + y
def fSub (x y : Word) : Word := x - y
def fMul (x y : Word) : Word := x * y
def fMulh (x y : Word) : Word := wordOfInt (x.toInt * y.toInt / 4294967296)
def fMulhn (x y : Word) : Word := BitVec.ofNat 32 (x.toNat * y.toNat / 4294967296)
def fMad (x y z : Word) : Word := z + x * y
def fMin (x y : Word) : Word := if x.toInt ≤ y.toInt then x else y
def fMax (x y : Word) : Word := if x.toInt ≥ y.toInt then x else y
def fMinn (x y : Word) : Word := if x.toNat ≤ y.toNat then x else y
def fMaxn (x y : Word) : Word := if x.toNat ≥ y.toNat then x else y
def fAdif (x y : Word) : Word := BitVec.ofNat 32 (x.toInt - y.toInt).natAbs
def fAdds (x y : Word) : Word := wordOfInt (clamp32 (x.toInt + y.toInt))
def fSubs (x y : Word) : Word := wordOfInt (clamp32 (x.toInt - y.toInt))

/-- R261: n is b mod 32. -/
def fShl (x : Word) (n : Nat) : Word := x <<< (n % 32)
def fShr (x : Word) (n : Nat) : Word := x >>> (n % 32)
def fShra (x : Word) (n : Nat) : Word := x.sshiftRight (n % 32)
def fRotl (x : Word) (n : Nat) : Word := x <<< (n % 32) ||| x >>> ((32 - n % 32) % 64)
def fSel (x y z : Word) : Word := if z ≠ 0 then x else y

/-- R264: the quotient and remainder of each form. -/
def fDiv (x y : DWord) : DWord :=
  if y = 0 then BitVec.ofInt 64 (-1) else BitVec.ofInt 64 (x.toInt.tdiv y.toInt)
def fRem (x y : DWord) : DWord :=
  if y = 0 then x else BitVec.ofInt 64 (x.toInt.tmod y.toInt)
def fDivn (x y : DWord) : DWord :=
  if y = 0 then BitVec.ofInt 64 (-1) else BitVec.ofNat 64 (x.toNat / y.toNat)
def fRemn (x y : DWord) : DWord :=
  if y = 0 then x else BitVec.ofNat 64 (x.toNat % y.toNat)

/-- R267: the field of `len` bits at `pos`, and a field replaced. -/
def fBfx (sign : Bool) (len pos : Nat) (x : Word) : Word :=
  let f := x.toNat / 2 ^ pos % 2 ^ len
  if sign && f / 2 ^ (len - 1) % 2 == 1 then wordOfInt ((f : Int) - (2 ^ len : Nat)) else BitVec.ofNat 32 f
def fBfi (len pos : Nat) (x z : Word) : Word :=
  BitVec.ofNat 32 (z.toNat - z.toNat / 2 ^ pos % 2 ^ len * 2 ^ pos + x.toNat % 2 ^ len * 2 ^ pos)

/-! ## Integer arithmetic -/

/-- ADD (R260). -/
def execAdd (m : Bool) (d a b : RegNo) (s : State) : Out :=
  op3 (.add m d a b) d a b fAdd s

/-- SUB (R260). -/
def execSub (m : Bool) (d a b : RegNo) (s : State) : Out :=
  op3 (.sub m d a b) d a b fSub s

/-- MUL (R260). -/
def execMul (m : Bool) (d a b : RegNo) (s : State) : Out :=
  op3 (.mul m d a b) d a b fMul s

/-- MULH (R260). -/
def execMulh (m : Bool) (d a b : RegNo) (s : State) : Out :=
  op3 (.mulh m d a b) d a b fMulh s

/-- MULHN (R260). -/
def execMulhn (m : Bool) (d a b : RegNo) (s : State) : Out :=
  op3 (.mulhn m d a b) d a b fMulhn s

/-- MIN (R260). -/
def execMin (m : Bool) (d a b : RegNo) (s : State) : Out :=
  op3 (.min m d a b) d a b fMin s

/-- MAX (R260). -/
def execMax (m : Bool) (d a b : RegNo) (s : State) : Out :=
  op3 (.max m d a b) d a b fMax s

/-- MINN (R260). -/
def execMinn (m : Bool) (d a b : RegNo) (s : State) : Out :=
  op3 (.minn m d a b) d a b fMinn s

/-- MAXN (R260). -/
def execMaxn (m : Bool) (d a b : RegNo) (s : State) : Out :=
  op3 (.maxn m d a b) d a b fMaxn s

/-- ADIF (R260). -/
def execAdif (m : Bool) (d a b : RegNo) (s : State) : Out :=
  op3 (.adif m d a b) d a b fAdif s

/-- ADDS (R260). -/
def execAdds (m : Bool) (d a b : RegNo) (s : State) : Out :=
  op3 (.adds m d a b) d a b fAdds s

/-- SUBS (R260). -/
def execSubs (m : Bool) (d a b : RegNo) (s : State) : Out :=
  op3 (.subs m d a b) d a b fSubs s

/-- MAD: d + a × b (R260). -/
def execMad (m : Bool) (d a b : RegNo) (s : State) : Out :=
  op3d (.mad m d a b) d a b fMad s

/-! ## Logic and shifts -/

/-- AND (R261). -/
def execAnd (m : Bool) (d a b : RegNo) (s : State) : Out :=
  op3 (.and m d a b) d a b (· &&& ·) s

/-- OR (R261). -/
def execOr (m : Bool) (d a b : RegNo) (s : State) : Out :=
  op3 (.or m d a b) d a b (· ||| ·) s

/-- XOR (R261). -/
def execXor (m : Bool) (d a b : RegNo) (s : State) : Out :=
  op3 (.xor m d a b) d a b (· ^^^ ·) s

/-- ANDN (R261). -/
def execAndn (m : Bool) (d a b : RegNo) (s : State) : Out :=
  op3 (.andn m d a b) d a b (fun x y => x &&& ~~~y) s

/-- SHL (R261). -/
def execShl (m : Bool) (d a b : RegNo) (s : State) : Out :=
  op3 (.shl m d a b) d a b (fun x y => fShl x y.toNat) s

/-- SHR (R261). -/
def execShr (m : Bool) (d a b : RegNo) (s : State) : Out :=
  op3 (.shr m d a b) d a b (fun x y => fShr x y.toNat) s

/-- SHRA (R261). -/
def execShra (m : Bool) (d a b : RegNo) (s : State) : Out :=
  op3 (.shra m d a b) d a b (fun x y => fShra x y.toNat) s

/-- ROTL (R261). -/
def execRotl (m : Bool) (d a b : RegNo) (s : State) : Out :=
  op3 (.rotl m d a b) d a b (fun x y => fRotl x y.toNat) s

/-- SEL: a if d ≠ 0, else b (R261). -/
def execSel (m : Bool) (d a b : RegNo) (s : State) : Out :=
  op3d (.sel m d a b) d a b fSel s

/-- POPC (R261). -/
def execPopc (m : Bool) (d a : RegNo) (s : State) : Out :=
  op2 (.popc m d a) d a (fun x => BitVec.ofNat 32 (popCount x)) s

/-- CLZ (R261). -/
def execClz (m : Bool) (d a : RegNo) (s : State) : Out :=
  op2 (.clz m d a) d a (fun x => BitVec.ofNat 32 (countLeading x)) s

/-- CTZ (R261). -/
def execCtz (m : Bool) (d a : RegNo) (s : State) : Out :=
  op2 (.ctz m d a) d a (fun x => BitVec.ofNat 32 (countTrailing x)) s

/-- BREV (R261). -/
def execBrev (m : Bool) (d a : RegNo) (s : State) : Out :=
  op2 (.brev m d a) d a bitReverse s

/-! ## Compares -/

/-- SEQ (R262). -/
def execSeq (m : Bool) (d a b : RegNo) (s : State) : Out :=
  op3 (.seq m d a b) d a b (fun x y => bool32 (rel32 .eq x y)) s

/-- SNE (R262). -/
def execSne (m : Bool) (d a b : RegNo) (s : State) : Out :=
  op3 (.sne m d a b) d a b (fun x y => bool32 (rel32 .ne x y)) s

/-- SLT (R262). -/
def execSlt (m : Bool) (d a b : RegNo) (s : State) : Out :=
  op3 (.slt m d a b) d a b (fun x y => bool32 (rel32 .lt x y)) s

/-- SLE (R262). -/
def execSle (m : Bool) (d a b : RegNo) (s : State) : Out :=
  op3 (.sle m d a b) d a b (fun x y => bool32 (rel32 .le x y)) s

/-- SLTN (R262). -/
def execSltn (m : Bool) (d a b : RegNo) (s : State) : Out :=
  op3 (.sltn m d a b) d a b (fun x y => bool32 (rel32 .ltn x y)) s

/-- SLEN (R262). -/
def execSlen (m : Bool) (d a b : RegNo) (s : State) : Out :=
  op3 (.slen m d a b) d a b (fun x y => bool32 (rel32 .len x y)) s

/-! ## Wide integers and division -/

/-- ADD64 (R263). -/
def execAdd64 (m : Bool) (d a b : RegNo) (s : State) : Out :=
  opPair (.add64 m d a b) d a b (· + ·) s

/-- SUB64 (R263). -/
def execSub64 (m : Bool) (d a b : RegNo) (s : State) : Out :=
  opPair (.sub64 m d a b) d a b (· - ·) s

/-- MUL64 (R263). -/
def execMul64 (m : Bool) (d a b : RegNo) (s : State) : Out :=
  opPair (.mul64 m d a b) d a b (· * ·) s

/-- ADDX (R263). -/
def execAddx (m : Bool) (d a b : RegNo) (s : State) : Out :=
  opPairWord (.addx m d a b) d a b (fun x y => x + sext64 y) s

/-- ADDXN (R263). -/
def execAddxn (m : Bool) (d a b : RegNo) (s : State) : Out :=
  opPairWord (.addxn m d a b) d a b (fun x y => x + y.setWidth 64) s

/-- SHL64 (R263). -/
def execShl64 (m : Bool) (d a b : RegNo) (s : State) : Out :=
  opPairWord (.shl64 m d a b) d a b (fun x y => x <<< (y.toNat % 64)) s

/-- SHR64 (R263). -/
def execShr64 (m : Bool) (d a b : RegNo) (s : State) : Out :=
  opPairWord (.shr64 m d a b) d a b (fun x y => x >>> (y.toNat % 64)) s

/-- SHRA64 (R263). -/
def execShra64 (m : Bool) (d a b : RegNo) (s : State) : Out :=
  opPairWord (.shra64 m d a b) d a b (fun x y => x.sshiftRight (y.toNat % 64)) s

/-- DIV, deferred (R264). -/
def execDiv (m : Bool) (d a b : RegNo) (s : State) : Out :=
  opPairDefer (.div m d a b) d a b fDiv s

/-- DIVN, deferred (R264). -/
def execDivn (m : Bool) (d a b : RegNo) (s : State) : Out :=
  opPairDefer (.divn m d a b) d a b fDivn s

/-- REM, deferred (R264). -/
def execRem (m : Bool) (d a b : RegNo) (s : State) : Out :=
  opPairDefer (.rem m d a b) d a b fRem s

/-- REMN, deferred (R264). -/
def execRemn (m : Bool) (d a b : RegNo) (s : State) : Out :=
  opPairDefer (.remn m d a b) d a b fRemn s

/-- SEQ64 (R263). -/
def execSeq64 (m : Bool) (d a b : RegNo) (s : State) : Out :=
  opPairRel (.seq64 m d a b) d a b (relHolds .eq true) s

/-- SLT64 (R263). -/
def execSlt64 (m : Bool) (d a b : RegNo) (s : State) : Out :=
  opPairRel (.slt64 m d a b) d a b (relHolds .lt true) s

/-- SLTN64 (R263). -/
def execSltn64 (m : Bool) (d a b : RegNo) (s : State) : Out :=
  opPairRel (.sltn64 m d a b) d a b (relHolds .ltn true) s

/-! ## Immediate forms -/

/-- ADDI (R265). -/
def execAddi (m : Bool) (d a : RegNo) (i : BitVec 11) (s : State) : Out :=
  op2 (.addi m d a i) d a (· + sext32 i) s

/-- ANDI (R265). -/
def execAndi (m : Bool) (d a : RegNo) (i : BitVec 11) (s : State) : Out :=
  op2 (.andi m d a i) d a (· &&& sext32 i) s

/-- ORI (R265). -/
def execOri (m : Bool) (d a : RegNo) (i : BitVec 11) (s : State) : Out :=
  op2 (.ori m d a i) d a (· ||| sext32 i) s

/-- XORI (R265). -/
def execXori (m : Bool) (d a : RegNo) (i : BitVec 11) (s : State) : Out :=
  op2 (.xori m d a i) d a (· ^^^ sext32 i) s

/-- SLTI (R265). -/
def execSlti (m : Bool) (d a : RegNo) (i : BitVec 11) (s : State) : Out :=
  op2 (.slti m d a i) d a (fun x => bool32 (rel32 .lt x (sext32 i))) s

/-- SLTNI (R265). -/
def execSltni (m : Bool) (d a : RegNo) (i : BitVec 11) (s : State) : Out :=
  op2 (.sltni m d a i) d a (fun x => bool32 (rel32 .ltn x (sext32 i))) s

/-- MULI (R265). -/
def execMuli (m : Bool) (d a : RegNo) (i : BitVec 11) (s : State) : Out :=
  op2 (.muli m d a i) d a (· * sext32 i) s

/-- SHLI (R266). -/
def execShli (m : Bool) (d a : RegNo) (n : BitVec 5) (s : State) : Out :=
  op2 (.shli m d a n) d a (fun x => fShl x n.toNat) s

/-- SHRI (R266). -/
def execShri (m : Bool) (d a : RegNo) (n : BitVec 5) (s : State) : Out :=
  op2 (.shri m d a n) d a (fun x => fShr x n.toNat) s

/-- SHRAI (R266). -/
def execShrai (m : Bool) (d a : RegNo) (n : BitVec 5) (s : State) : Out :=
  op2 (.shrai m d a n) d a (fun x => fShra x n.toNat) s

/-- ROTLI (R266). -/
def execRotli (m : Bool) (d a : RegNo) (n : BitVec 5) (s : State) : Out :=
  op2 (.rotli m d a n) d a (fun x => fRotl x n.toNat) s

/-- BFX: the field holds len - 1 (R267). -/
def execBfx (m : Bool) (d a : RegNo) (e : Bool) (l p : BitVec 5) (s : State) : Out :=
  op2 (.bfx m d a e l p) d a (fBfx e (l.toNat + 1) p.toNat) s

/-- BFI (R267). -/
def execBfi (m : Bool) (d a : RegNo) (l p : BitVec 5) (s : State) : Out :=
  op3d (.bfi m d a l p) d a d (fun x _ z => fBfi (l.toNat + 1) p.toNat x z) s

/-- ADDXI (R268). -/
def execAddxi (m : Bool) (d a : RegNo) (i : BitVec 11) (s : State) : Out :=
  opPairWord (.addxi m d a i) d a 0 (fun x _ => x + sext64 i) s

/-- LUI: imm × 2^14 (R268). -/
def execLui (m : Bool) (d : RegNo) (i : BitVec 18) (s : State) : Out :=
  op2 (.lui m d i) d 0 (fun _ => BitVec.ofNat 32 (i.toNat * 16384)) s

/-- LAPC: from its own address (R268). -/
def execLapc (m : Bool) (d : RegNo) (i : BitVec 18) (s : State) : Out :=
  opPairWord (.lapc m d i) d 0 0 (fun _ _ => (groupOf s).pc + sext64 i * 4) s

end Sys2Proof.Machine
end

