-- ==== Sys2Proof/Machine/Control.lean ====
section
/-! DEFINITION. The meanings of branches and jumps (R269 to R272), CTRL (R273 to R281) and the control words (R282, R283). -/

namespace Sys2Proof.Machine

/-- The target of a word offset from the instruction's own address (R269, R271). -/
def targetOf {n : Nat} (g : Group) (o : BitVec n) : DWord := g.pc + sext64 o * 4

/-- A branch: each lane goes to the target where the relation of a and b holds (R269, R270). -/
def opBranch (i : Instr) (rel : Rel) (a b : RegNo) (o : BitVec 11) (s : State) : Out :=
  .next (runRegs i s (fun l => .done []
    (if rel32 rel (readReg s (groupOf s) l a.toNat) (readReg s (groupOf s) l b.toNat) then targetOf (groupOf s) o
     else nextPc (groupOf s))))

/-- A jump to a pair, with the link registers it writes (R272). -/
def opJump (i : Instr) (a : RegNo) (link : List (Nat × Word)) (s : State) : Out :=
  .next (runRegs i s (fun l =>
    let t := readPair s (groupOf s) l a.toNat
    if t.toNat % 4 ≠ 0 then .trap .align t else .done link t))

/-- The instruction only goes on. -/
def opNext (i : Instr) (s : State) : Out := .next (runRegs i s (fun _ => .done [] (nextPc (groupOf s))))

/-- Every lane traps with one cause; the value may differ (R276). -/
def opTrap (i : Instr) (c : Cause) (v : DWord) (s : State) : Out := .next (runRegs i s (fun _ => .trap c v))

/-! ## The window and the control words (R131, R139, R140) -/

/-- A value that cw.wb accepts (R131). -/
def windowOk (s : State) (ck : Nat) (v : Word) : Bool :=
  v.toNat % 32 == 0 && decide (v.toNat + 112 ≤ (launchOf s ck).regs)

/-- A write of cw.wb by one lane (R131, R277). -/
def setWindow (s s' : State) (g : Group) (l : Nat) (v : Word) : State × LaneAct :=
  if windowOk s g.ck v then (updThread s' (g.tk l) (fun t => { t with wb := v }), .done [] (nextPc g))
  else (s', .trap .window (v.setWidth 64))

/-- The context of a class. -/
def ctxAt (s : State) (ck : Nat) : Option Ctx := tfind s.ctxs (clsAt s ck).ctx

/-- The tick count of a class's context (R117). -/
def ticksOf (s : State) (ck : Nat) : Nat := ((ctxAt s ck).map (·.ticks)).getD 0

/-- The cycle count of a class's core (R140). -/
def cyclesOf (s : State) (ck : Nat) : Nat := (tget CoreState.blank s.cores (coreOf s ck)).cycle

/-- The words read as deferred results (R140). -/
def volatileCw (i : Nat) : Bool := [0x13, 0x14, 0x1E, 0x21].contains i

/-- The value of a control word in one lane (R140). -/
def readCw (s : State) (g : Group) (l i : Nat) : Word :=
  let t := threadAt s (g.tk l)
  let c := clsAt s g.ck
  let n (x : Nat) : Word := BitVec.ofNat 32 x
  if 0x08 ≤ i ∧ i ≤ 0x0F then tget 0 t.coords (i - 8)
  else
    match i with
    | 0x00 => n l
    | 0x01 => n (g.p / 4)
    | 0x02 => n (g.p % 4)
    | 0x03 => n c.idx
    | 0x04 => n (c.idx / 2 ^ 32 % 65536)
    | 0x05 => n c.core
    | 0x06 => n c.die
    | 0x07 => s.cfg.device.setWidth 32
    | 0x10 => t.wb
    | 0x11 => n (launchOf s g.ck).regs
    | 0x12 => n (launchOf s g.ck).ownBytes
    | 0x13 => (corePhaseAt s (coreOf s g.ck)).p.setWidth 32
    | 0x14 => n (ticksOf s g.ck)
    | 0x15 => t.tickHi
    | 0x16 => loHalf t.epc
    | 0x17 => hiHalf t.epc
    | 0x18 => t.cause.setWidth 32
    | 0x19 => loHalf t.tval
    | 0x1A => hiHalf t.tval
    | 0x1B => t.lrFirst
    | 0x1C => t.lrLast
    | 0x1D => c.restart
    | 0x1E => n (cyclesOf s g.ck)
    | 0x1F => t.cycleHi
    | 0x20 => t.binTimer
    | 0x21 => (troupeAt s g.ck g.p).lmask
    | 0x22 => bool32 t.inHandler
    | _ => 0

/-- The latch that a read of cw.cycle or cw.tick makes at issue (R282). -/
def latchCw (s s' : State) (g : Group) (l i : Nat) : State :=
  if i = 0x14 then
    updThread s' (g.tk l) (fun t => { t with tickHi := BitVec.ofNat 32 (ticksOf s g.ck / 2 ^ 32) })
  else if i = 0x1E then
    updThread s' (g.tk l) (fun t => { t with cycleHi := BitVec.ofNat 32 (cyclesOf s g.ck / 2 ^ 32) })
  else s'

/-- A WRCW of this word traps ILLEGAL (R139, R140). -/
def readOnlyCw (i : Nat) : Bool := decide (i ≤ 0x07) || [0x11, 0x12, 0x1D].contains i

/-- The value cw.bintimer takes from a write (R112). -/
def binTimerOf (v : Word) : Word :=
  let x := v.toNat % 65536
  if x = 0 then 2048 else if x < 32 then 32 else BitVec.ofNat 32 x

/-- The threads that a write of cw.sigsend names (R145); a target that is not live is skipped. -/
def signalTargets (s : State) (ck : Nat) (w : Word) : List Nat :=
  let p := w.toNat / 128 % 16 * 4 + w.toNat / 32 % 4
  let ls := if w.getLsbD 11 then List.range 32 else [w.toNat % 32]
  (ls.map (fun l => tkey ck p l)).filter (fun tk => (tfind s.threads tk).isSome)

/-- SIGNAL sent to threads of the class: held until the target's next instruction boundary; the last sender stands (R145). -/
def sendSignal (s : State) (g : Group) (l : Nat) (w : Word) : State :=
  (signalTargets s g.ck w).foldl (fun s tk =>
    updThread s tk (fun t => { t with held := some (BitVec.ofNat 12 (g.p * 32 + l)) })) s

/-- A write of a control word by one lane (R283). -/
def writeCw (s s' : State) (i : Instr) (g : Group) (l n : Nat) (v : Word) : State × LaneAct :=
  let ok (f : Thread → Thread) : State × LaneAct := (updThread s' (g.tk l) f, .done [] (nextPc g))
  if readOnlyCw n then (s', .trap .illegal (wordVal i))
  else if 0x08 ≤ n ∧ n ≤ 0x0F then ok (fun t => { t with coords := tset 0 t.coords (n - 8) v })
  else
    match n with
    | 0x10 => setWindow s s' g l v
    | 0x16 => ok (fun t => { t with epc := pairOf v (hiHalf t.epc) })
    | 0x17 => ok (fun t => { t with epc := pairOf (loHalf t.epc) v })
    | 0x18 => ok (fun t => { t with cause := v.setWidth 8 })
    | 0x19 => ok (fun t => { t with tval := pairOf v (hiHalf t.tval) })
    | 0x1A => ok (fun t => { t with tval := pairOf (loHalf t.tval) v })
    | 0x1B => ok (fun t => { t with lrFirst := v })
    | 0x1C => ok (fun t => { t with lrLast := v })
    | 0x20 => ok (fun t => { t with binTimer := binTimerOf v })
    | 0x22 => ok (fun t => { t with inHandler := v.getLsbD 0 })
    | 0x23 => (sendSignal s' g l v, .done [] (nextPc g))
    | _ => (s', .done [] (nextPc g))

/-! ## The end of a thread (R275) -/

/-- The thread ends: JSTRIKE on all eight masks, out of cw.lmask; a spawned troupe's seat is free again with its last lane. -/
def endThread (s : State) (ck p l : Nat) : State :=
  let m := maskOf [l]
  let s := (List.range 8).foldl (fun s j => strikeMask s ck p j m) s
  let s := { s with threads := tdel s.threads (tkey ck p l), ended := tput s.ended (tkey ck p l) (threadAt s (tkey ck p l)) }
  let s := updTroupe s ck p (fun t => { t with lmask := t.lmask &&& ~~~m })
  let t := troupeAt s ck p
  if t.spawned ∧ t.lmask = 0 then { s with troupes := tdel s.troupes (pkey ck p) } else s

/-! ## Spawning (R110, R279) -/

/-- The bins of a core, by number. -/
def binAt (s : State) (core b : Nat) : Option Bin := tfind s.bins (core * 16 + b)

/-- A spawned thread takes a slot of a bin (R110): the bin keyed to its class and entry with room, or the lowest empty bin,
whose timer then starts; none when neither exists. -/
def takeSlot (s : State) (ck : Nat) (entry : DWord) (timer : Nat) (sl : Slot) : Option State :=
  let core := coreOf s ck
  match s.bins.find? (fun x => x.2.ck == ck && x.2.entry == entry && decide (x.2.slots.length < 32)) with
  | some b => some { s with bins := tupd s.bins b.1 (fun x => { x with slots := x.slots ++ [sl] }) }
  | none =>
    match (List.range 16).find? (fun b => (binAt s core b).isNone) with
    | some b =>
      some { s with bins := tput s.bins (core * 16 + b)
                      ⟨ck, entry, [sl], (tget CoreState.blank s.cores core).cycle + timer, false⟩ }
    | none => none

/-- The checks of SPAWN in one lane, in order (R279). -/
def spawnCheck (s : State) (i : Instr) (g : Group) (d a : RegNo) (c : Nat) (l : Nat) : Option LaneAct :=
  let e := readPair s g l a.toNat
  if (launchOf s g.ck).spawnSeats = 0 then some (.trap .illegal (wordVal i))
  else if 8 < c ∨ (c = 0 ∧ d ≠ 0) ∨ (0 < c ∧ (d = 0 ∨ 111 < d.toNat + c - 1)) then some (.trap .illegal (wordVal i))
  else if e.toNat % 4 ≠ 0 then some (.trap .align e)
  else if e.toNat / 2 ^ 48 ≠ 0 then some (.trap .access e)
  else none

/-- One lane of SPAWN takes its slot, or parks (R279); SPAWN is a release at core scope (R112). -/
def spawnLane (s s' : State) (g : Group) (d a : RegNo) (c : Nat) (l : Nat) : State × LaneAct :=
  let t := threadAt s (g.tk l)
  let args := (List.range c).map (fun k => readReg s g l (d.toNat + k))
  match takeSlot s' g.ck (readPair s g l a.toNat) t.binTimer.toNat ⟨args, t.coords⟩ with
  | some s'' => (settleCore s'' (coreOf s g.ck), .done [] (nextPc g))
  | none => (s', .park .spawn)

/-! ## Branches and jumps -/

/-- BEQ (R269). -/
def execBeq (m : Bool) (a b : RegNo) (o : BitVec 11) (s : State) : Out :=
  opBranch (.beq m a b o) .eq a b o s

/-- BNE (R269). -/
def execBne (m : Bool) (a b : RegNo) (o : BitVec 11) (s : State) : Out :=
  opBranch (.bne m a b o) .ne a b o s

/-- BLT (R269). -/
def execBlt (m : Bool) (a b : RegNo) (o : BitVec 11) (s : State) : Out :=
  opBranch (.blt m a b o) .lt a b o s

/-- BGE (R269). -/
def execBge (m : Bool) (a b : RegNo) (o : BitVec 11) (s : State) : Out :=
  opBranch (.bge m a b o) .ge a b o s

/-- BLTN (R269). -/
def execBltn (m : Bool) (a b : RegNo) (o : BitVec 11) (s : State) : Out :=
  opBranch (.bltn m a b o) .ltn a b o s

/-- BGEN (R269). -/
def execBgen (m : Bool) (a b : RegNo) (o : BitVec 11) (s : State) : Out :=
  opBranch (.bgen m a b o) .gen a b o s

/-- BR (R271). -/
def execBr (m : Bool) (o : BitVec 25) (s : State) : Out :=
  .next (runRegs (.br m o) s (fun _ => .done [] (targetOf (groupOf s) o)))

/-- JAL: the link is g2:g3 (R271). -/
def execJal (m : Bool) (o : BitVec 25) (s : State) : Out :=
  .next (runRegs (.jal m o) s (fun _ => .done (pairWrites 2 (nextPc (groupOf s))) (targetOf (groupOf s) o)))

/-- JR (R272). -/
def execJr (m : Bool) (a : RegNo) (s : State) : Out :=
  opJump (.jr m a) a [] s

/-- JALR: A is read before D is written (R272). -/
def execJalr (m : Bool) (d a : RegNo) (s : State) : Out :=
  opJump (.jalr m d a) a (pairWrites d (nextPc (groupOf s))) s

/-! ## Control -/

/-- NOP (R274). -/
def execNop (m : Bool) (s : State) : Out :=
  opNext (.nop m) s

/-- EXIT (R275). -/
def execExit (m : Bool) (s : State) : Out :=
  let i : Instr := (.exit m)
  .next (runWord i s (fun s' l =>
    if (threadAt s ((groupOf s).tk l)).pend.isEmpty then (endThread s' (groupOf s).ck (groupOf s).p l, .gone)
    else (s', .park .results)))

/-- YIELD: in the next cycle its troupe is not chosen as the one that issued last (R274). -/
def execYield (m : Bool) (s : State) : Out :=
  let s' := runRegs (.yield m) s (fun _ => .done [] (nextPc (groupOf s)))
  .next { s' with cores := tupd s'.cores (coreOf s (groupOf s).ck) (fun c =>
    { c with lastTroupe := tdel c.lastTroupe ((groupOf s).p % 4) }) }

/-- TRAP: the value is the code (R276). -/
def execTrapI (m : Bool) (c : BitVec 7) (s : State) : Out :=
  opTrap (.trapI m c) .trap (c.setWidth 64) s

/-- BRK: the value is the word (R276). -/
def execBrk (m : Bool) (s : State) : Out :=
  opTrap (.brk m) .brk (wordVal (.brk m)) s

/-- ERET: with H = 0 it traps ILLEGAL (R143). -/
def execEret (m : Bool) (s : State) : Out :=
  let i : Instr := (.eret m)
  .next (runWord i s (fun s' l =>
    let t := threadAt s ((groupOf s).tk l)
    if t.inHandler then (updThread s' ((groupOf s).tk l) trapReturn, .done [] t.epc) else (s', .trap .illegal (wordVal i))))

/-- WBASE (R277). -/
def execWbase (m : Bool) (a : RegNo) (s : State) : Out :=
  .next (runWord (.wbase m a) s (fun s' l => setWindow s s' (groupOf s) l (readReg s (groupOf s) l a.toNat)))

/-- CHK (R278). -/
def execChk (m : Bool) (a b : RegNo) (s : State) : Out :=
  .next (runRegs (.chk m a b) s (fun l =>
    let x := readReg s (groupOf s) l a.toNat
    if x.toNat ≥ (readReg s (groupOf s) l b.toNat).toNat then .trap .bound (x.setWidth 64) else .done [] (nextPc (groupOf s))))

/-- SPAWN (R279). -/
def execSpawn (m : Bool) (d a : RegNo) (c : BitVec 7) (s : State) : Out :=
  let i : Instr := (.spawn m d a c)
  .next (runOrdered i s (spawnCheck s i (groupOf s) d a c.toNat) (fun s' l => spawnLane s s' (groupOf s) d a c.toNat l))

/-- JENROL (R280). -/
def execJenrol (m : Bool) (j : BitVec 3) (s : State) : Out :=
  let i : Instr := (.jenrol m j)
  let g := groupOf s
  .next (updTroupe (runRegs i s (fun _ => .done [] (nextPc g))) g.ck g.p (enrol j.toNat (maskOf (goLanes s g i))))

/-- JWAIT: the lanes park, and are released past it (R129). -/
def execJwait (m : Bool) (j : BitVec 3) (s : State) : Out :=
  let i : Instr := (.jwait m j)
  let g := groupOf s
  let s' := runRegs i s (fun _ => .park (.jwait j.toNat))
  let m := maskOf (goLanes s g i)
  .next (checkMask (updTroupe s' g.ck g.p (fun t => arrive j.toNat m (enrol j.toNat m t))) g.ck g.p j.toNat)

/-- JSTRIKE (R280). -/
def execJstrike (m : Bool) (j : BitVec 3) (s : State) : Out :=
  let i : Instr := (.jstrike m j)
  let g := groupOf s
  .next (strikeMask (runRegs i s (fun _ => .done [] (nextPc g))) g.ck g.p j.toNat (maskOf (goLanes s g i)))

/-- TICKWAIT: parked until the next boundary, which moves it past (R281). -/
def execTickwait (m : Bool) (s : State) : Out :=
  .next (runRegs (.tickwait m) s (fun _ => .park .tick))

/-! ## Control words -/

/-- RDCW: volatile words are deferred, the others immediate (R282). -/
def execRdcw (m : Bool) (d : RegNo) (i : BitVec 11) (s : State) : Out :=
  .next (runWord (.rdcw m d i) s (fun s' l =>
    let v := [(d.toNat, readCw s (groupOf s) l i.toNat)]
    (latchCw s s' (groupOf s) l i.toNat, if volatileCw i.toNat then .defer v else .done v (nextPc (groupOf s)))))

/-- WRCW (R283). -/
def execWrcw (m : Bool) (a : RegNo) (i : BitVec 11) (s : State) : Out :=
  let w : Instr := (.wrcw m a i)
  .next (runWord w s (fun s' l => writeCw s s' w (groupOf s) l i.toNat (readReg s (groupOf s) l a.toNat)))

end Sys2Proof.Machine
end

