-- ==== Sys2Proof/Machine/Sync.lean ====
section
/-! DEFINITION. The meanings of fences and PHASE (R168, R309), barriers (R310 to R314), waits, timelines and queues (R315 to R321,
R114, R115). -/

namespace Sys2Proof.Machine

/-- The acquire action, made once by the lanes of one instruction (R155). -/
def acquireOnce (s : State) (core scope : Nat) : State := if sweepOwed s core scope then s else acquireAt s core scope

/-- Lanes that end with an acquire wait while the sweep of the last advance is owed (R156). -/
def opAcquire (i : Instr) (scope : Nat) (f : State → Nat → State × LaneAct) (s : State) : Out :=
  let core := coreOf s (groupOf s).ck
  .next (if sweepOwed s core scope then runRegs i s (fun _ => .park .sweep) else runWord i s f)

/-! ## Barrier objects (R310) -/

/-- The object's fields. -/
structure BarObj where
  gen : Nat
  next : Nat
  arrived : Nat
  count : Nat
  deriving DecidableEq, Repr

/-- The object from its 8 bytes, and its bytes; PHASE is always GEN[0]. -/
def barOf (v : Nat) : BarObj := ⟨v / 2 ^ 48 % 65536, v / 2 ^ 33 % 32768, v / 2 ^ 16 % 65536, v % 65536⟩
def barVal (b : BarObj) : Nat :=
  b.gen % 65536 * 2 ^ 48 + b.next % 32768 * 2 ^ 33 + b.gen % 2 * 2 ^ 32 + b.arrived % 65536 * 2 ^ 16 + b.count % 65536

/-- Extent of the level of a domain in a launch record; a missing level counts as 1 (R103). -/
def extentOf (l : Launch) (domain : Nat) : Nat := ((l.levels.find? (fun v => v.domain == domain)).map (·.extent)).getD 1

/-- The index of a gang's member whose cluster-domain coordinate is 0 (R311). -/
def leaderIdx (l : Launch) (idx : Nat) : Nat := idx - idx / extentOf l 4 % extentOf l 3 * extentOf l 4

/-- The class whose scratch holds the object that an instruction names (R311). -/
def barOwner (s : State) (ck scope : Nat) : Nat :=
  if scope = 3 then ckOf (ridOf ck) (leaderIdx (launchOf s ck) (clsAt s ck).idx) else ck

/-- The checks of a barrier instruction on its object: alignment, allocation, presence, and a slot unless it sets one up. -/
def barCheck (s : State) (i : Instr) (owner o : Nat) (slot : Bool) : Option LaneAct :=
  if o % 8 ≠ 0 then some (.trap .align (BitVec.ofNat 64 o))
  else if scratchSize s owner < o + 8 then some (.trap .scratchLimit (BitVec.ofNat 64 o))
  else
    match absentLine s owner o 8 with
    | some ln => some (.park (.absent owner ln))
    | none => if slot && !(clsAt s owner).barSlots.contains o then some (.trap .illegal (wordVal i)) else none

def barAt (s : State) (owner o : Nat) : BarObj := barOf (scratchNat s owner o 8)
def setBar (s : State) (owner o : Nat) (b : BarObj) : State := writeScratch s owner o (bytesOfNat 8 (barVal b))

/-- Phases completed while the arrivals of the open one reach COUNT (R313). -/
def completePhases : Nat → BarObj → BarObj
  | 0, b => b
  | f + 1, b =>
    if b.arrived = b.count then completePhases f { b with gen := (b.gen + 1) % 65536, arrived := b.next, next := 0 } else b

/-- An arrival with token `t` (R313): the object after it and the phase joined; none when the lane must wait. -/
def barArrive (b : BarObj) (t : Word) : Option (BarObj × Nat) :=
  let has := t.getLsbD 16
  let j := t.toNat % 65536
  if has && j == (b.gen + 1) % 65536 then none
  else if has && j == b.gen then
    (if b.next = b.count then none else some ({ b with next := b.next + 1 }, (b.gen + 1) % 65536))
  else some (completePhases 2 { b with arrived := (b.arrived + 1) % 65536 }, b.gen)

/-- A phase has completed (R314). -/
def phaseDone (b : BarObj) (j : Nat) : Bool :=
  let d := (b.gen + 65536 - j % 65536) % 65536
  decide (1 ≤ d) && decide (d ≤ 32767)

/-- The token of phase j (R313). -/
def tokenOf (j : Nat) : Word := BitVec.ofNat 32 (65536 + j % 65536)

/-- The scope of a BAR instruction: .core or .cluster (R311). -/
def barScope (c : BitVec 1) : Nat := if c = 1 then 3 else 2

/-- One lane's arrival, after the release: `fin` says what the lane does with the token (R313, R314). -/
def arriveLane (s' : State) (i : Instr) (owner o : Nat) (t : Word) (fin : Nat → LaneAct) : State × LaneAct :=
  match barCheck s' i owner o true with
  | some a => (s', a)
  | none =>
    match barArrive (barAt s' owner o) t with
    | none => (s', .park (.arrival owner o (barAt s' owner o).gen))
    | some (b, j) => (setBar s' owner o b, fin j)

/-- The release of an instruction, then its lanes. -/
def opRelease (i : Instr) (scope : Nat) (f : State → Nat → State × LaneAct) (s : State) : Out :=
  let core := coreOf s (groupOf s).ck
  .next (runWord i s (fun s' l => f (releaseAt s' core scope) l))

/-! ## Timelines (R176) -/

/-- The visible count: the largest number below which nothing is open. -/
def visibleOf (t : Timeline) : Nat :=
  match t.ops with
  | [] => t.issued
  | n :: r => r.foldl min n - 1

/-- An operation numbered on a timeline (R176): its number, whether it holds the visible count, and the timeline after. -/
def numberOn (t : Timeline) (inc : Nat) : Nat × Bool × Timeline :=
  let n := t.issued + inc
  let holds := inc ≠ 0 ∨ visibleOf t < n
  (n, holds, { t with issued := n, ops := if holds then t.ops ++ [n] else t.ops })

/-- An operation of a timeline has completed (R176). -/
def completeOn (s : State) (ck tl num : Nat) (holds : Bool) : State :=
  if holds then
    let t := timelineAt s ck tl
    setTimeline s ck tl { t with ops := t.ops.erase num }
  else s

/-! ## Note queues (R318 to R320) -/

def noteDecl (s : State) (ck n : Nat) : NoteDecl := (launchOf s ck).queues.getD n ⟨0, 0, 0⟩

/-- Bytes of a class queue, control line and ring (R319). -/
def noteBytes (d : NoteDecl) : Nat := if d.scope = 0 ∧ d.cap ≠ 0 then 128 + 4 * d.cap else 0

/-- The offset of class queue n: the queues lie at the top of scratch in ascending n (R319). -/
def noteBase (s : State) (ck n : Nat) : Nat :=
  let qs := (launchOf s ck).queues
  scratchSize s ck - (qs.map noteBytes).sum + ((qs.take n).map noteBytes).sum

/-- The ring of a die or named-die queue (R318). -/
def noteKey (s : State) (ck n : Nat) (d : NoteDecl) : Nat :=
  (ridOf ck * 16 + n) * 8 + (if d.scope = 1 then (clsAt s ck).die else d.die)

/-- What identifies a ring: two queues of two classes may be one. -/
def ringOf (s : State) (ck n : Nat) : Bool × Nat :=
  let d := noteDecl s ck n
  if d.scope = 0 then (true, ck * 16 + n) else (false, noteKey s ck n d)

/-- The scope of a queue's release and acquire (R318). -/
def noteScope (d : NoteDecl) : Nat := if d.scope = 0 then 2 else if d.scope = 1 then 4 else 5

/-- Handles held. -/
def noteCount (s : State) (ck n : Nat) : Nat :=
  let d := noteDecl s ck n
  if d.scope = 0 then
    let b := noteBase s ck n
    (scratchNat s ck (b + 4) 4 + 2 ^ 32 - scratchNat s ck b 4) % 2 ^ 32
  else (tget NoteQueue.blank s.noteQueues (noteKey s ck n d)).handles.length

/-- A push at the ring. -/
def notePushOne (s : State) (ck n : Nat) (v : Word) : State :=
  let d := noteDecl s ck n
  if d.scope = 0 then
    let b := noteBase s ck n
    let t := scratchNat s ck (b + 4) 4
    writeScratch (writeScratch s ck (b + 128 + 4 * (t % d.cap)) (bytesOfNat 4 v.toNat)) ck (b + 4) (bytesOfNat 4 ((t + 1) % 2 ^ 32))
  else
    let q := tget NoteQueue.blank s.noteQueues (noteKey s ck n d)
    let q' := { q with tail := (q.tail + 1) % 2 ^ 32, handles := q.handles ++ [v] }
    { s with noteQueues := tput s.noteQueues (noteKey s ck n d) q' }

/-- A pop at the ring. -/
def notePopOne (s : State) (ck n : Nat) : State × Word :=
  let d := noteDecl s ck n
  if d.scope = 0 then
    let b := noteBase s ck n
    let h := scratchNat s ck b 4
    (writeScratch s ck b (bytesOfNat 4 ((h + 1) % 2 ^ 32)), BitVec.ofNat 32 (scratchNat s ck (b + 128 + 4 * (h % d.cap)) 4))
  else
    let q := tget NoteQueue.blank s.noteQueues (noteKey s ck n d)
    let q' := { q with head := (q.head + 1) % 2 ^ 32, handles := q.handles.drop 1 }
    ({ s with noteQueues := tput s.noteQueues (noteKey s ck n d) q' }, q.handles.headD 0)

/-- What a thread waits for in its instruction, or was woken from and has not gone on; a wait for a sweep is part of the wait before it (R320). -/
def waitingFor (t : Thread) : Option Park :=
  match t.park with
  | none => if t.parkSeq = 0 then none else t.was
  | some .sweep => t.was
  | some p => some p

/-- A thread waits on a ring, in one direction (R320). -/
def waitsOn (s : State) (ck n : Nat) (push : Bool) (k : Nat) (t : Thread) : Bool :=
  (clsAt s (ckOfT k)).placed &&
    (match waitingFor t with
     | some (.notePush m) => push && (ringOf s (ckOfT k) m == ringOf s ck n)
     | some (.notePop m) => !push && (ringOf s (ckOfT k) m == ringOf s ck n)
     | _ => false)

/-- Threads that wait on the same ring, in the same direction, and began to before `seq`: they are served first (R320; log 51, DEDUCED). -/
def earlierWaiter (s : State) (ck n seq : Nat) (push : Bool) : Bool :=
  s.threads.any (fun e => waitsOn s ck n push e.1 e.2 && decide (e.2.parkSeq < seq))

/-- The issue number by which a lane waits: that of its first park in the instruction, else the next. -/
def waitSeq (s : State) (g : Group) (l : Nat) : Nat :=
  let q := (threadAt s (g.tk l)).parkSeq
  if q = 0 then s.issueSeq + 1 else q

/-! ## Queues (R114, R115) -/

/-- The scope of a queue's producer (R50): host, or device. -/
def producerScope (cb : ControlBlock) : Nat := if cb.qflags / 2 % 2 = 1 then 6 else 5

/-- One page of an engine-like access at the home, for a class's context: its place, or the lane's fate. -/
def homePage (s : State) (core ctx va n : Nat) (kind : Kind) : State × (Access ⊕ Place) :=
  match globalPages s core ctx va n kind with
  | (s, .inr pls) => (s, .inr (pls.getD 0 (⟨false, 0, 0, false, 0⟩, 0)).1)
  | (s, .inl x) => (s, .inl x)

/-- A claim on a control block (R115): the head mirror is written at `mirror`, with a release at the producer's scope. -/
def claim (s : State) (core idx : Nat) (cb : ControlBlock) (mirror : Place) : State × Nat :=
  let h := (cb.head + 1) % 2 ^ 64
  let s := releaseAt { s with cbs := tput s.cbs idx { cb with head := h } } core (producerScope cb)
  (dropCopies (homeWrite s mirror (bytesOfNat 8 h)) core mirror 8, cb.head)

/-- The count that R115 calls avail, as an i64. -/
def availOf (vis head : Nat) : Int := (BitVec.ofInt 64 ((vis : Int) - head)).toInt

/-! ## A word at its coherence point (R115, R316) -/

/-- `n` bytes at their coherence point, under this core's dirty bytes of the line. -/
def pointRead (s : State) (core : Nat) (pl : Place) (n : Nat) : State × List Byte :=
  if pl.host then loadNow s core pl none n
  else
    let q := homeRead (seenAtHome s core pl) pl n
    (q.1,
      match tfind q.1.l1 (lineKey core false (pl.pa / 128)) with
      | some ln => maskedBytes q.2 ((ln.bytes.drop (pl.pa % 128)).take n) ((ln.dirty.drop (pl.pa % 128)).take n)
      | none => q.2)

/-- The same, or MEMORY_ERROR where some of the bytes are spoiled (R165). -/
def pointLoad (s : State) (core va : Nat) (pl : Place) (n : Nat) : State × (Access ⊕ List Byte) :=
  if wouldSpoil s core pl none n then (s, .inl (trapNat .memoryError va))
  else
    let q := pointRead s core pl n
    (q.1, .inr q.2)

/-- The tail that QTAKE sees (R115): TICKTAIL of a tick-aligned queue, else the tail word. -/
def tailSeen (s : State) (core ctx : Nat) (cb : ControlBlock) : State × (Access ⊕ Nat) :=
  if cb.qflags % 2 = 1 then (s, .inr cb.tickTail)
  else
    match homePage s core ctx cb.tailVa 8 .read with
    | (s, .inl x) => (s, .inl x)
    | (s, .inr pl) =>
      match pointLoad s core cb.tailVa pl 8 with
      | (s, .inl x) => (s, .inl x)
      | (s, .inr bs) => (s, .inr (wordOfBytes bs))

/-- One lane of QTAKE (R321, R115, R372); `owed` says whether an acquire at a scope must wait for a sweep. -/
def qtakeLane (owed : Nat → Bool) (s : State) (g : Group) (d : RegNo) (idx : Nat) : State × LaneAct :=
  let core := coreOf s g.ck
  let ctx := (clsAt s g.ck).ctx
  let fate (x : Access) : LaneAct :=
    match x with
    | .trap c v => .trap c v
    | .park p => .park p
    | _ => .park (.queue idx)
  if 2 ^ 20 ≤ idx then (s, .trap .queue (BitVec.ofNat 64 idx))
  else
    match tfind s.cbs idx with
    | none => (s, .park (.queue idx))
    | some cb =>
      if !cb.armed then (s, .park (.queue idx))
      else if cb.ctx ≠ ctx then (s, .trap .queue (BitVec.ofNat 64 idx))
      else if owed (producerScope cb) then (s, .park .sweep)
      else
        match tailSeen s core ctx cb with
        | (s, .inl x) => (s, fate x)
        | (s, .inr vis) =>
          let avail := availOf vis cb.head
          if avail < 0 ∨ ((2 ^ cb.log2Items : Nat) : Int) < avail then (s, .trap .queue (BitVec.ofNat 64 idx))
          else if avail = 0 ∨ cb.held then (s, .park (.queue idx))
          else
            match homePage s core ctx (cb.tailVa + 8) 8 .write with
            | (s, .inl x) => (s, fate x)
            | (s, .inr mirror) =>
              let q := claim s core idx cb mirror
              (acquireOnce q.1 core (producerScope cb), .defer (pairWrites d (BitVec.ofNat 64 q.2)))

/-- A thread parked in a QTAKE of queue `q`, whatever it waits for (R71, R321). -/
def noteTaking (q : Nat) (t : Thread) : Thread :=
  match t.park with
  | none => t
  | some (.trapEntry ..) => t
  | some .reconciler => t
  | some _ => { t with taking := some (q, t.parkSeq) }

/-! ## Monitor waits (R316) -/

/-- One lane of a monitor wait with condition `cond` on the value seen. -/
def monitorLane (s' : State) (g : Group) (d : RegNo) (va : Nat) (cond : Word → Bool) : State × LaneAct :=
  let core := coreOf s' g.ck
  let fin (s : State) (bs : List Byte) : State × LaneAct :=
    let v := BitVec.ofNat 32 (wordOfBytes bs)
    (s, if cond v then .defer [(d.toNat, v)] else .park (.monitor (BitVec.ofNat 64 va)))
  if va / 2 ^ 48 ≠ 0 then (s', .trap .access (BitVec.ofNat 64 va))
  else if va % 4 ≠ 0 then (s', .trap .align (BitVec.ofNat 64 va))
  else if inAperture va then
    match offsetAccess s' g.ck (va - apertureBase) 4 .load with
    | (s', .loaded bs) => fin s' bs
    | (s', x) => (s', accessAct g 4 d x)
  else
    match homePage s' core (clsAt s' g.ck).ctx va 4 .read with
    | (s', .inl x) => (s', accessAct g 4 d x)
    | (s', .inr pl) =>
      match pointLoad s' core va pl 4 with
      | (s', .inl x) => (s', accessAct g 4 d x)
      | (s', .inr bs) => fin s' bs

/-- WAITEQ, WAITNE and WAITGE. -/
def opMonitor (i : Instr) (d a b : RegNo) (cond : Word → Word → Bool) (s : State) : Out :=
  .next (runWord i s (fun s' l =>
    monitorLane s' (groupOf s) d (readPair s (groupOf s) l a.toNat).toNat (fun v => cond v (readReg s (groupOf s) l b.toNat))))

/-! ## Fences and PHASE -/

/-- FENCE.REL (R168). -/
def execFenceRel (m : Bool) (c : BitVec 3) (s : State) : Out :=
  opRelease (.fenceRel m c) c.toNat (fun s' _ => (s', .done [] (nextPc (groupOf s)))) s

/-- FENCE.ACQ (R168). -/
def execFenceAcq (m : Bool) (c : BitVec 3) (s : State) : Out :=
  opAcquire (.fenceAcq m c) c.toNat (fun s' _ =>
    (acquireOnce s' (coreOf s (groupOf s).ck) c.toNat, .done [] (nextPc (groupOf s)))) s

/-- FENCE.AR: the release, then the acquire (R168). -/
def execFenceAr (m : Bool) (c : BitVec 3) (s : State) : Out :=
  opAcquire (.fenceAr m c) c.toNat (fun s' _ =>
    let core := coreOf s (groupOf s).ck
    (acquireOnce (releaseAt s' core c.toNat) core c.toNat, .done [] (nextPc (groupOf s)))) s

/-- PHASE: release, arrival without a token, wait, acquire (R314). -/
def execPhase (m : Bool) (c : BitVec 3) (a : RegNo) (s : State) : Out :=
  let i : Instr := (.phase m c a)
  let g := groupOf s
  opRelease i c.toNat (fun s' l =>
    let owner := barOwner s g.ck c.toNat
    let o := (readReg s g l a.toNat).toNat
    arriveLane s' i owner o 0 (fun j => .park (.barWait owner o j c.toNat))) s

/-! ## Barriers -/

/-- BARARV (R313). -/
def execBararv (m : Bool) (d a : RegNo) (c : BitVec 1) (s : State) : Out :=
  let i : Instr := (.bararv m d a c)
  let g := groupOf s
  opRelease i (barScope c) (fun s' l =>
    arriveLane s' i (barOwner s g.ck (barScope c)) (readReg s g l a.toNat).toNat (readReg s g l d.toNat)
      (fun j => .defer [(d.toNat, tokenOf j)])) s

/-- BARWAIT: a lane given no token passes at once (R314). -/
def execBarwait (m : Bool) (d a : RegNo) (c : BitVec 1) (s : State) : Out :=
  let i : Instr := (.barwait m d a c)
  let g := groupOf s
  opAcquire i (barScope c) (fun s' l =>
    let owner := barOwner s g.ck (barScope c)
    let o := (readReg s g l a.toNat).toNat
    let t := readReg s g l d.toNat
    match barCheck s' i owner o true with
    | some x => (s', x)
    | none =>
      if !t.getLsbD 16 || phaseDone (barAt s' owner o) (t.toNat % 65536) then
        (acquireOnce s' (coreOf s g.ck) (barScope c), .done [] (nextPc g))
      else (s', .park (.barWait owner o (t.toNat % 65536) (barScope c)))) s

/-- BARSYNC: BARARV, then BARWAIT on the token written (R314). -/
def execBarsync (m : Bool) (d a : RegNo) (c : BitVec 1) (s : State) : Out :=
  let i : Instr := (.barsync m d a c)
  let g := groupOf s
  opRelease i (barScope c) (fun s' l =>
    let owner := barOwner s g.ck (barScope c)
    let o := (readReg s g l a.toNat).toNat
    arriveLane s' i owner o (readReg s g l d.toNat)
      (fun j => .deferPark [(d.toNat, tokenOf j)] (.barWait owner o j (barScope c)))) s

/-- BARINIT (R312). -/
def execBarinit (m : Bool) (d a : RegNo) (c : BitVec 1) (s : State) : Out :=
  let i : Instr := (.barinit m d a c)
  let g := groupOf s
  .next (runWord i s (fun s' l =>
    let owner := barOwner s g.ck (barScope c)
    let o := (readReg s g l a.toNat).toNat
    let n := (readReg s g l d.toNat).toNat
    let slots := (clsAt s' owner).barSlots
    match barCheck s' i owner o false with
    | some x => (s', x)
    | none =>
      if n = 0 ∨ 32767 < n then (s', .trap .illegal (wordVal i))
      else if !slots.contains o && decide ((launchOf s' owner).barriers ≤ slots.length) then (s', .trap .illegal (wordVal i))
      else
        let s' := if slots.contains o then s' else updCls s' owner (fun k => { k with barSlots := k.barSlots ++ [o] })
        (setBar s' owner o ⟨0, 0, 0, n⟩, .done [] (nextPc g))))

/-! ## Waits, timelines and queues -/

/-- WAITEQ (R316). -/
def execWaiteq (m : Bool) (d a b : RegNo) (s : State) : Out :=
  opMonitor (.waiteq m d a b) d a b (fun v b => v == b) s

/-- WAITNE (R316). -/
def execWaitne (m : Bool) (d a b : RegNo) (s : State) : Out :=
  opMonitor (.waitne m d a b) d a b (fun v b => v != b) s

/-- WAITGE (R316). -/
def execWaitge (m : Bool) (d a b : RegNo) (s : State) : Out :=
  opMonitor (.waitge m d a b) d a b (fun v b => decide ((v - b).toNat < 2 ^ 31)) s

/-- TLWAIT: its acquire is at class scope, on one core: nothing that the core has read ahead serves a later load (R317, R176). -/
def execTlwait (m : Bool) (a : RegNo) (n : BitVec 3) (s : State) : Out :=
  let core := coreOf s (groupOf s).ck
  .next (runWord (.tlwait m a n) s (fun s' l =>
    let n' := readPair s (groupOf s) l a.toNat
    if n'.toNat ≤ visibleOf (timelineAt s (groupOf s).ck n.toNat) then (acquireAt s' core 2, .done [] (nextPc (groupOf s)))
    else (s', .park (.timeline n.toNat n'))))

/-- TLREAD (R317). -/
def execTlread (m : Bool) (d : RegNo) (n : BitVec 3) (s : State) : Out :=
  .next (runRegs (.tlread m d n) s (fun _ =>
    .defer (pairWrites d (BitVec.ofNat 64 (visibleOf (timelineAt s (groupOf s).ck n.toNat))))))

/-- QPUSH: the release, then the pushes in ascending lane order (R320). -/
def execQpush (m : Bool) (a : RegNo) (n : BitVec 4) (s : State) : Out :=
  let i : Instr := (.qpush m a n)
  let g := groupOf s
  let q := noteDecl s g.ck n.toNat
  let s0 := if (goLanes s g i).isEmpty then s else releaseAt s (coreOf s g.ck) (noteScope q)
  .next (runOrdered i s0 (fun _ => if q.cap = 0 then some (.trap .illegal (wordVal i)) else none) (fun s' l =>
    if earlierWaiter s g.ck n.toNat (waitSeq s g l) true || decide (q.cap ≤ noteCount s' g.ck n.toNat) then (s', .park (.notePush n.toNat))
    else (notePushOne s' g.ck n.toNat (readReg s g l a.toNat), .done [] (nextPc g))))

/-- QPOP: the pops in ascending lane order, then the acquire (R320). -/
def execQpop (m : Bool) (d : RegNo) (n : BitVec 4) (s : State) : Out :=
  let i : Instr := (.qpop m d n)
  let g := groupOf s
  let q := noteDecl s g.ck n.toNat
  let core := coreOf s g.ck
  if sweepOwed s core (noteScope q) && q.cap != 0 then .next (runRegs i s (fun _ => .park .sweep))
  else
    .next (runOrdered i s (fun _ => if q.cap = 0 then some (.trap .illegal (wordVal i)) else none) (fun s' l =>
      if earlierWaiter s g.ck n.toNat (waitSeq s g l) false || noteCount s' g.ck n.toNat == 0 then (s', .park (.notePop n.toNat))
      else
        let r := notePopOne s' g.ck n.toNat
        (acquireOnce r.1 core (noteScope q), .defer [(d.toNat, r.2)])))

/-- QTAKE: the lanes claim in ascending order; those that park are known by their queue (R321). -/
def execQtake (m : Bool) (d a : RegNo) (s : State) : Out :=
  let g := groupOf s
  let idx (l : Nat) : Nat := (readReg s g l a.toNat).toNat
  let s' := runWord (.qtake m d a) s (fun s' l => qtakeLane (sweepOwed s (coreOf s g.ck)) s' g d (idx l))
  .next ((activeLanes s g).foldl (fun s l => updThread s (g.tk l) (noteTaking (idx l))) s')

end Sys2Proof.Machine
end

