-- ==== Sys2Proof/Machine/Engine.lean ====
section
/-! DEFINITION. The meanings of copy requests (R336 to R341), FETCHW (R342) and fabric operations (R343 to R346), as they issue.
What the engines then do is in Movers. -/

namespace Sys2Proof.Machine

/-! ## Request blocks -/

/-- A 32-bit stride, signed. -/
def strideAt (bs : List Byte) (o : Nat) : Int := (BitVec.ofNat 32 (wordOfBytes ((bs.drop o).take 4))).toInt

/-- A copy request block (R337). -/
def copyBlockOf (bs : List Byte) : CopyBlock :=
  let c := fieldAt bs 0 4
  let layers := c / 2 ^ 18 % 2 == 1
  { kind := c % 256, dest := c / 2 ^ 8 % 8, fifo := c / 2 ^ 11 % 4, tl := c / 2 ^ 13 % 8, dims := c / 2 ^ 16 % 4,
    layers := layers, inc := fieldAt bs 4 4, src := fieldAt bs 8 8, dst := fieldAt bs 16 8, size0 := fieldAt bs 24 4,
    count1 := fieldAt bs 28 4, sstride1 := strideAt bs 32, dstride1 := strideAt bs 36, count2 := fieldAt bs 40 4,
    sstride2 := strideAt bs 44, dstride2 := strideAt bs 48, lstride := if layers then strideAt bs 52 else 0,
    groups := fieldAt bs 52 4, ptab := fieldAt bs 56 8 }

/-- N1, N2 and G of R340, and the layers of a range (R227). -/
def CopyBlock.n1 (b : CopyBlock) : Nat := if 1 ≤ b.dims then b.count1 else 1
def CopyBlock.n2 (b : CopyBlock) : Nat := if b.dims = 2 then b.count2 else 1
def CopyBlock.g (b : CopyBlock) : Nat := if b.kind = 2 then b.groups else 1
def layersOf (b : CopyBlock) (first last : Nat) : Nat := if b.layers then last + 1 - first else 1

/-- Rows of a request, in all. -/
def rowCount (b : CopyBlock) (first last : Nat) : Nat := layersOf b first last * b.n2 * b.n1 * b.g

/-- A sum taken modulo 2^64 (R337). -/
def wrap64 (x : Int) : Nat := (x % (2 ^ 64 : Nat)).toNat

/-- The group index of row k (R340). -/
def rowGroup (b : CopyBlock) (k : Nat) : Nat := k % b.g

/-- The layer index j, c2 and c1 of row k (R340). -/
def rowC1 (b : CopyBlock) (k : Nat) : Nat := k / b.g % b.n1
def rowC2 (b : CopyBlock) (k : Nat) : Nat := k / b.g / b.n1 % b.n2
def rowJ (b : CopyBlock) (k : Nat) : Nat := k / b.g / b.n1 / b.n2

/-- The source address of row k, its base taken from `bases` for GATHER (R340, R227). -/
def rowSrc (b : CopyBlock) (first : Nat) (bases : List Nat) (k : Nat) : Nat :=
  let base : Int :=
    if b.kind = 2 then bases.getD (rowGroup b k) 0
    else (b.src : Int) + ((if b.layers then first + rowJ b k else 0 : Nat) : Int) * b.lstride
  wrap64 (base + (rowC2 b k : Int) * b.sstride2 + (rowC1 b k : Int) * b.sstride1)

/-- The destination of row k (R340). -/
def rowDst (b : CopyBlock) (k : Nat) : Nat :=
  wrap64 ((b.dst : Int) + (rowJ b k : Int) * b.lstride + (rowC2 b k : Int) * b.dstride2 + (rowC1 b k : Int) * b.dstride1
    + ((rowGroup b k * b.size0 : Nat) : Int))

/-- A global destination in the aperture acts as DEST 1 at the same offset (R338). -/
def effectiveBlock (b : CopyBlock) : CopyBlock :=
  if b.dest = 0 ∧ inAperture b.dst then { b with dest := 1, dst := b.dst - apertureBase } else b

/-! ## The checks of R339 -/

/-- A count that DIMS uses lies in 1 .. 2^24; one it does not use is zero. -/
def countOk (used : Bool) (c lim : Nat) : Bool := if used then decide (1 ≤ c) && decide (c ≤ lim) else c == 0

/-- The block keeps R337 and R338 for an instruction of kind `kind`, in a class with MATRIX or not (R192). -/
def blockOk (bs : List Byte) (kind : Nat) (matrix : Bool) (first last : Nat) : Bool :=
  let b := copyBlockOf bs
  let x := fieldAt bs 52 4
  b.kind == kind && fieldAt bs 0 4 / 2 ^ 19 == 0 && b.dims != 3
    && (if kind = 3 then b.dest == 3 || b.dest == 4 else decide (b.dest ≤ 2))
    && (b.dest == 2 || b.fifo == 0) && (b.dest != 2 || matrix)
    && decide (1 ≤ b.size0) && decide (b.size0 ≤ 2 ^ 30)
    && countOk (decide (1 ≤ b.dims)) b.count1 (2 ^ 24) && countOk (b.dims == 2) b.count2 (2 ^ 24)
    && (decide (1 ≤ b.dims) || (b.sstride1 == 0 && b.dstride1 == 0))
    && (b.dims == 2 || (b.sstride2 == 0 && b.dstride2 == 0))
    && (decide (b.dest < 2) || (b.dst == 0 && b.dstride1 == 0 && b.dstride2 == 0))
    && (if kind = 2 then !b.layers && decide (1 ≤ x) && decide (x ≤ 8) && b.ptab % 8 == 0 && b.src == 0
        else b.ptab == 0 && (b.layers || x == 0))
    && decide (rowCount b first last * b.size0 < 2 ^ 40)

/-- The first offset of `n` scratch bytes at `o` that lies at or above `lim`. -/
def beyondScratch (lim o n : Nat) : Option Nat := if lim < o + n then some (max o lim) else none

/-- The first offset at or above `lim` that `n` bytes at address `va` reach through the aperture. -/
def beyondAperture (lim va n : Nat) : Option Nat :=
  let lo := max va (apertureBase + lim)
  if lo < min (va + n) (apertureBase + 2 ^ 32) then some (lo - apertureBase) else none

/-- Step 4 of R339: the first scratch offset at or above the class's allocation that the traversal reaches (log 29, DEDUCED). -/
def traversalBeyond (b : CopyBlock) (lim first last : Nat) : Option Nat :=
  let rows := List.range (rowCount b first last)
  (if b.dest = 1 then rows.findSome? (fun k => beyondScratch lim (rowDst b k) b.size0) else none).or
  ((if b.kind = 2 then beyondAperture lim b.ptab (8 * b.g)
    else rows.findSome? (fun k => beyondAperture lim (rowSrc b first [] k) b.size0)).or
  (if b.dest = 0 then rows.findSome? (fun k => beyondAperture lim (rowDst b k) b.size0) else none))

/-- Step 5 of R339. -/
def feedMisaligned (b : CopyBlock) : Bool :=
  b.dest == 2 && !(b.src % 16 == 0 && b.size0 % 16 == 0 && b.sstride1 % 16 == 0 && b.sstride2 % 16 == 0 && b.lstride % 16 == 0
    && b.ptab % 16 == 0)

/-- Step 1 of R339, shared with R344: the block's offset, and then its bytes, of which none may be spoiled (R165). -/
def blockOffset (s : State) (ck o : Nat) : Option LaneAct :=
  if o % 8 ≠ 0 then some (.trap .align (BitVec.ofNat 64 o))
  else if scratchSize s ck < o + 64 then some (.trap .scratchLimit (BitVec.ofNat 64 o))
  else if badScratchAt s ck o 64 then some (.trap .memoryError (BitVec.ofNat 64 (apertureBase + o)))
  else none

/-- The bytes of a block, read at issue (R337). -/
def blockBytes (s : State) (ck o : Nat) : List Byte := readScratch s ck o 64

/-- The layer range of a thread, bits 15:0 of each word (R227, R228). -/
def layerRange (t : Thread) : Nat × Nat := (t.lrFirst.toNat % 65536, t.lrLast.toNat % 65536)

/-- The first of some addresses with a bit among 63:48 (R85). -/
def badAddress (vs : List Nat) : Option LaneAct := (vs.find? (fun v => v / 2 ^ 48 != 0)).map (fun v => .trap .access (BitVec.ofNat 64 v))

/-- The checks of COPY, COPYG and PREFA in one lane, in order (R339). -/
def copyCheck (s : State) (i : Instr) (g : Group) (kind : Nat) (a : RegNo) (l : Nat) : Option LaneAct :=
  let o := (readReg s g l a.toNat).toNat
  let r := layerRange (threadAt s (g.tk l))
  match blockOffset s g.ck o with
  | some x => some x
  | none =>
    let bs := blockBytes s g.ck o
    let b := copyBlockOf bs
    if !(blockOk bs kind (launchOf s g.ck).matrix r.1 r.2) then some (.trap .illegal (wordVal i))
    else
      match badAddress [b.src, if b.dest = 0 then b.dst else 0, b.ptab] with
      | some x => some x
      | none =>
        match traversalBeyond (effectiveBlock b) (min (scratchSize s g.ck) 0x80000000) r.1 r.2 with
        | some v => some (.trap .scratchLimit (BitVec.ofNat 64 v))
        | none =>
          if feedMisaligned b then some (.trap .align (BitVec.ofNat 64 (if kind = 2 then b.ptab else b.src)))
          else none

/-! ## The engine queue (R339) -/

/-- Requests of a core issued and not yet completed: copy, fabric and withdrawals (R339, R342). -/
def queueLen (s : State) (core : Nat) : Nat :=
  (s.reqs.filter (fun e => e.2.core == core && !e.2.completed)).length
    + (s.fabOps.filter (fun e => e.2.core == core)).length
    + ((usherAt s (core / 64)).fetches.filter (fun f => f.core == core)).length

/-- Requests of a class retained for one FIFO (R193). -/
def retainedFor (s : State) (ck f : Nat) : Nat :=
  (s.reqs.filter (fun e => e.2.ck == ck && e.2.blk.dest == 2 && e.2.blk.fifo == f && e.2.retained)).length

/-- The part of `n` bytes at an address that lies in the scratch aperture: its offset and length. -/
def apertureSpan (va n : Nat) : Nat × Nat :=
  let lo := max va apertureBase
  (lo - apertureBase, min (va + n) (apertureBase + 2 ^ 32) - lo)

/-- The 128-byte lines of `n` bytes at a scratch offset. -/
def scratchLines (o n : Nat) : List Nat := if n = 0 then [] else (List.range ((o % 128 + n + 127) / 128)).map (fun j => o / 128 + j)

/-- The scratch lines that a request writes (R149); a row of a global destination that lies in the aperture writes scratch too (R338). -/
def linesOf (b : CopyBlock) (first last : Nat) : List Nat :=
  let row (k : Nat) : List Nat :=
    if b.dest = 1 then scratchLines (rowDst b k) b.size0
    else (let q := apertureSpan (rowDst b k) b.size0; scratchLines q.1 q.2)
  if b.dest < 2 then ((List.range (rowCount b first last)).flatMap row).eraseDups else []

/-- Lines of a class's scratch held absent by one more request, or one fewer (R149). -/
def holdLines (s : State) (ck : Nat) (ls : List Nat) : State :=
  { s with absent := ls.foldl (fun t n => tset 0 t (ck * 2 ^ 25 + n) (tget 0 t (ck * 2 ^ 25 + n) + 1)) s.absent }
def freeLines (s : State) (ck : Nat) (ls : List Nat) : State :=
  { s with absent := ls.foldl (fun t n => tset 0 t (ck * 2 ^ 25 + n) (tget 0 t (ck * 2 ^ 25 + n) - 1)) s.absent }

/-- The deferred result of a number: nothing where D = 0 (R336). -/
def numberResult (d : RegNo) (n : Nat) : LaneAct := .defer (if d = 0 then [] else pairWrites d (BitVec.ofNat 64 n))

/-- One lane's request issues: it is numbered and joins the engine queue (R339). -/
def copyLane (s s' : State) (g : Group) (d a : RegNo) (l : Nat) : State × LaneAct :=
  let core := coreOf s g.ck
  let b := effectiveBlock (copyBlockOf (blockBytes s g.ck (readReg s g l a.toNat).toNat))
  let r := layerRange (threadAt s (g.tk l))
  if 64 ≤ queueLen s' core then (s', .park .engine)
  else if b.dest = 2 ∧ 4 ≤ retainedFor s' g.ck b.fifo then (s', .park (.fifoFull b.fifo))
  else
    let q := numberOn (timelineAt s' g.ck b.tl) b.inc
    let s' := holdLines (setTimeline (settleCore s' core) g.ck b.tl q.2.2) g.ck (linesOf b r.1 r.2)
    let rq : Request :=
      { core := core, ck := g.ck, blk := b, lrFirst := r.1, lrLast := r.2, num := q.1, holds := q.2.1, begun := false, bases := [],
        rows := 0, moved := false, completed := false, start := 0, retained := b.dest == 2, cleared := false, waits := none }
    ({ s' with reqs := tput s'.reqs s'.nextReq rq, nextReq := s'.nextReq + 1 }, numberResult d q.1)

/-- COPY, COPYG and PREFA: one request per lane in ascending order (R336); its issue is a release at core scope (R175). -/
def opCopy (i : Instr) (kind : Nat) (d a : RegNo) (s : State) : Out :=
  let g := groupOf s
  .next (runOrdered i s (copyCheck s i g kind a) (fun s' l => copyLane s s' g d a l))

/-! ## Fabric operations (R343, R344) -/

/-- A fabric block (R343). -/
def fabBlockOf (bs : List Byte) : FabBlock :=
  let c := fieldAt bs 0 4
  { kind := c % 256, tl := c / 2 ^ 13 % 8, dims := c / 2 ^ 16 % 2, sigop := c / 2 ^ 18 % 4, inc := fieldAt bs 4 4,
    lva := fieldAt bs 8 8, rva := fieldAt bs 16 8, size0 := fieldAt bs 24 4, count1 := fieldAt bs 28 4,
    lstride1 := strideAt bs 32, rstride1 := strideAt bs 36, sigva := fieldAt bs 40 8, sigval := fieldAt bs 48 8 }

/-- Rows of a fabric operation, and the addresses of row c1 (R343). -/
def FabBlock.n1 (b : FabBlock) : Nat := if b.dims = 1 then b.count1 else 1
def fabLocal (b : FabBlock) (k : Nat) : Nat := wrap64 ((b.lva : Int) + (k : Int) * b.lstride1)
def fabRemote (b : FabBlock) (k : Nat) : Nat := wrap64 ((b.rva : Int) + (k : Int) * b.rstride1)

/-- The block keeps R343 for an instruction of kind `kind`. -/
def fabBlockOk (bs : List Byte) (kind : Nat) : Bool :=
  let c := fieldAt bs 0 4
  let b := fabBlockOf bs
  b.kind == kind && c / 2 ^ 20 == 0 && c / 2 ^ 17 % 2 == 0 && c / 2 ^ 8 % 32 == 0 && fieldAt bs 56 8 == 0
    && decide (1 ≤ b.size0) && decide (b.size0 ≤ 2 ^ 24) && countOk (b.dims == 1) b.count1 (2 ^ 20)
    && (b.dims == 1 || (b.lstride1 == 0 && b.rstride1 == 0))
    && (if kind = 2 then decide (b.sigop ≤ 1) && b.sigva % 8 == 0 else b.sigop == 0 && b.sigva == 0 && b.sigval == 0)

/-- The local window that a REMOTE leaf names (R88). -/
def windowOfLeaf (e : Nat) : Nat := ePFN e % 65536

/-- The REMOTE leaf of an address, or the lane's fate (R344, step 4). -/
def remoteLeaf (s : State) (core ctx va : Nat) (kind : Kind) (rva : Nat) : State × (LaneAct ⊕ Nat) :=
  match translate s core ctx va kind true with
  | (s, .perm) => (s, .inl (.trap .access (BitVec.ofNat 64 va)))
  | (s, .bad) => (s, .inl (.trap .access (BitVec.ofNat 64 va)))
  | (s, .leaf e _ _) => (s, if eMC e = 3 then .inr e else .inl (.trap .access (BitVec.ofNat 64 rva)))
  | (s, _) => (s, .inl (.park (.translation (BitVec.ofNat 64 va) kind)))

/-- The kind of access that an operation makes at its target: WRITE for PUT and PUTS, READ for GET. -/
def fabKind (b : FabBlock) : Kind := if b.kind = 3 then .read else .write

/-- Bytes at an address lie within a window's range. -/
def inWindow (w : Window) (va n : Nat) : Bool := decide (w.va ≤ va) && decide (va + n ≤ w.va + w.size)

/-- Step 5 of R344: the window's record is CONVERGED and PEER, permits the kind and holds every remote byte. -/
def windowServes (s : State) (w : Window) (b : FabBlock) : Bool :=
  converged s w.rid && w.peer && (if b.kind = 3 then w.perms % 2 == 1 else w.perms / 2 % 2 == 1)
    && (List.range b.n1).all (fun k => inWindow w (fabRemote b k) b.size0) && (b.kind != 2 || inWindow w b.sigva 8)

/-- Steps 4 and 5 of R344: the window of an operation, or the lane's fate. -/
def fabWindow (s : State) (core ctx : Nat) (b : FabBlock) : State × (LaneAct ⊕ Nat) :=
  match remoteLeaf s core ctx b.rva (fabKind b) b.rva with
  | (s, .inl x) => (s, .inl x)
  | (s, .inr e) =>
    let q := if b.kind = 2 then remoteLeaf s core ctx b.sigva (fabKind b) b.rva else (s, .inr e)
    match q with
    | (s, .inl x) => (s, .inl x)
    | (s, .inr _) =>
      let w := windowOfLeaf e
      match tfind s.windows w with
      | some x => if windowServes s x b then (s, .inr w) else (s, .inl (.trap .fabric (BitVec.ofNat 64 w)))
      | none => (s, .inl (.trap .fabric (BitVec.ofNat 64 w)))

/-- The checks of PUT, PUTS and GET in one lane, in order (R344). -/
def fabCheck (s : State) (i : Instr) (g : Group) (kind : Nat) (a : RegNo) (l : Nat) : Option LaneAct :=
  let o := (readReg s g l a.toNat).toNat
  match blockOffset s g.ck o with
  | some x => some x
  | none =>
    let bs := blockBytes s g.ck o
    let b := fabBlockOf bs
    if !(fabBlockOk bs kind) then some (.trap .illegal (wordVal i))
    else
      match badAddress [b.lva, b.rva, b.sigva] with
      | some x => some x
      | none =>
        match (List.range b.n1).findSome? (fun k => beyondAperture (min (scratchSize s g.ck) 0x80000000) (fabLocal b k) b.size0) with
        | some v => some (.trap .scratchLimit (BitVec.ofNat 64 v))
        | none =>
          match (fabWindow s (coreOf s g.ck) (clsAt s g.ck).ctx b).2 with
          | .inl x => some x
          | .inr _ => none

/-- Scratch lines that a GET writes through the aperture (R345, R149). -/
def fabLines (b : FabBlock) : List Nat :=
  if b.kind = 3 then
    ((List.range b.n1).flatMap (fun k => let q := apertureSpan (fabLocal b k) b.size0; scratchLines q.1 q.2)).eraseDups
  else []

/-- One lane's fabric operation issues: it is numbered on its timeline and on its window (R344). -/
def fabLane (s s' : State) (g : Group) (d a : RegNo) (l : Nat) : State × LaneAct :=
  let core := coreOf s g.ck
  let b := fabBlockOf (blockBytes s g.ck (readReg s g l a.toNat).toNat)
  if 64 ≤ queueLen s' core then (s', .park .engine)
  else
    match fabWindow s' core (clsAt s g.ck).ctx b with
    | (s', .inl x) => (s', x)
    | (s', .inr w) =>
      let q := numberOn (timelineAt s' g.ck b.tl) b.inc
      let n := ((tfind s'.windows w).map (fun x => x.issued + 1)).getD 1
      let s' := holdLines (setTimeline (settleCore s' core) g.ck b.tl q.2.2) g.ck (fabLines b)
      let op : FabOp :=
        { core := core, ck := g.ck, blk := b, win := w, num := n, tlNum := q.1, holds := q.2.1, phase := .queued, selfRefused := false,
          payload := [] }
      ({ s' with windows := tupd s'.windows w (fun x => { x with issued := n }), fabOps := tput s'.fabOps s'.nextReq op,
                 nextReq := s'.nextReq + 1 }, numberResult d n)

/-- PUT, PUTS and GET: one operation per lane in ascending order (R344); its issue is a release at core scope (R175). -/
def opFabric (i : Instr) (kind : Nat) (d a : RegNo) (s : State) : Out :=
  let g := groupOf s
  .next (runOrdered i s (fabCheck s i g kind a) (fun s' l => fabLane s s' g d a l))

/-! ## WINCNT (R346) -/

/-- The counter of a selector that a window holds. -/
def counterOf (w : Window) (sel : Nat) : Option Nat :=
  match sel, w.peer with
  | 0, true => some w.issue
  | 1, false => some w.arrival
  | 2, true => some w.refused
  | _, _ => none

/-- The window of a context that is CONVERGED. -/
def openWindow (s : State) (ctx n : Nat) : Option Window :=
  (tfind s.windows n).bind (fun w => if converged s w.rid ∧ w.ctx = ctx then some w else none)

/-- One lane of WINCNT on window `n`. -/
def wincntLane (s : State) (i : Instr) (g : Group) (d : RegNo) (ge : Bool) (sel n l : Nat) : LaneAct :=
  if sel = 3 then .trap .illegal (wordVal i)
  else
    match openWindow s (clsAt s g.ck).ctx n with
    | none => .trap .fabric (BitVec.ofNat 64 n)
    | some w =>
      match counterOf w sel with
      | none => if ge then .trap .fabric (BitVec.ofNat 64 n) else .defer (pairWrites d 0)
      | some c =>
        let t := readPair s g l d.toNat
        if ge && decide (c < t.toNat) then .park (.wincnt n sel t) else .defer (pairWrites d (BitVec.ofNat 64 c))

/-! ## FETCHW (R342) -/

/-- The checks of FETCHW in one lane. -/
def fetchwCheck (s : State) (g : Group) (b : RegNo) (l : Nat) : Option LaneAct :=
  let m := (readReg s g l b.toNat).toNat
  if m % 32 ≠ 0 then some (.trap .align (BitVec.ofNat 64 m))
  else if scratchSize s g.ck < m + 32 then some (.trap .scratchLimit (BitVec.ofNat 64 m))
  else none

/-- Another FETCHW on a class's mailbox is unanswered (R113). -/
def mailboxBusy (s : State) (ck mailbox : Nat) : Bool := s.ushers.any (fun e => e.2.fetches.any (fun f => f.ck == ck && f.mailbox == mailbox))

/-- One lane of FETCHW: the withdrawal joins the die's usher. While an earlier one on its mailbox is unanswered, what the mailbox holds is free
until it is written (R113; log 23, DESIGN CHOICE). -/
def fetchwLane (s s' : State) (g : Group) (a b : RegNo) (l : Nat) : State × LaneAct :=
  let core := coreOf s g.ck
  let mb := (readReg s g l b.toNat).toNat
  if 64 ≤ queueLen s' core then (s', .park .engine)
  else
    let s' :=
      if mailboxBusy s' g.ck mb then (let q := draw s'; writeScratch q.2 g.ck mb ((List.range 32).map (fun k => Config.freeByte (q.1 + k))))
      else s'
    (updUsher s' (clsAt s g.ck).die (fun u => { u with fetches := u.fetches ++ [⟨core, g.ck, (readReg s g l a.toNat).toNat, mb⟩] }),
     .done [] (nextPc g))

/-! ## The instructions -/

/-- COPY (R339). -/
def execCopy (m : Bool) (d a : RegNo) (s : State) : Out :=
  opCopy (.copy m d a) 1 d a s

/-- COPYG (R339). -/
def execCopyg (m : Bool) (d a : RegNo) (s : State) : Out :=
  opCopy (.copyg m d a) 2 d a s

/-- PREFA (R339). -/
def execPrefa (m : Bool) (d a : RegNo) (s : State) : Out :=
  opCopy (.prefa m d a) 3 d a s

/-- FETCHW (R342). -/
def execFetchw (m : Bool) (a b : RegNo) (s : State) : Out :=
  let g := groupOf s
  .next (runOrdered (.fetchw m a b) s (fetchwCheck s g b) (fun s' l => fetchwLane s s' g a b l))

/-- PUT (R344). -/
def execPut (m : Bool) (d a : RegNo) (s : State) : Out :=
  opFabric (.put m d a) 1 d a s

/-- PUTS (R344). -/
def execPuts (m : Bool) (d a : RegNo) (s : State) : Out :=
  opFabric (.puts m d a) 2 d a s

/-- GET (R344). -/
def execGet (m : Bool) (d a : RegNo) (s : State) : Out :=
  opFabric (.get m d a) 3 d a s

/-- The window that a lane was parked on in this WINCNT, if it was (R346). -/
def windowParked (t : Thread) : Option Nat :=
  match t.was, t.parkSeq with
  | some (.wincnt w _ _), _ + 1 => some w
  | _, _ => none

/-- WINCNT: the window is the one that the lowest lane names as the instruction issues; a lane that waited keeps the window it waited on
(R346). -/
def execWincnt (m : Bool) (d a : RegNo) (g : Bool) (x : BitVec 2) (s : State) : Out :=
  let i : Instr := (.wincnt m d a g x)
  let gr := groupOf s
  let was (l : Nat) : Option Nat := windowParked (threadAt s (gr.tk l))
  let n := (((goLanes s gr i).find? (fun l => (was l).isNone)).map (fun l => (readReg s gr l a.toNat).toNat)).getD 0
  .next (runRegs i s (fun l => wincntLane s i gr d g x.toNat ((was l).getD n) l))

end Sys2Proof.Machine
end

