-- ==== Sys2Proof/Machine/Float.lean ====
section
/-! DEFINITION. The number formats (R181 to R191): exact values, the conversion rule of R184, floating-point arithmetic,
the correctly rounded special functions of R288, and DX blocks. -/

namespace Sys2Proof.Machine

/-- A floating-point format (R181): trailing significand width, bias, the bits of its largest finite value, of infinity where
it has one and of the NaN it produces, and its sign bit. -/
structure Fmt where
  m : Nat
  bias : Nat
  maxBits : Nat
  inf : Option Nat
  nan : Nat
  sign : Nat
  deriving DecidableEq, Repr

def fp32 : Fmt := ⟨23, 127, 0x7F7FFFFF, some 0x7F800000, 0x7FC00000, 31⟩
def fp16 : Fmt := ⟨10, 15, 0x7BFF, some 0x7C00, 0x7E00, 15⟩
def bf16 : Fmt := ⟨7, 127, 0x7F7F, some 0x7F80, 0x7FC0, 15⟩
def e4m3 : Fmt := ⟨3, 7, 0x7E, none, 0x7F, 7⟩
def e5m2 : Fmt := ⟨2, 15, 0x7B, some 0x7C, 0x7E, 7⟩

/-- An exact value: a NaN, an infinity, or (-1)^s * m * 2^e. -/
inductive FVal where
  | nan
  | inf (s : Bool)
  | fin (s : Bool) (m : Nat) (e : Int)
  deriving DecidableEq, Repr

/-- The value of a format's bits (R181). -/
def fdecode (f : Fmt) (x : Nat) : FVal :=
  let s := x / 2 ^ f.sign % 2 == 1
  let mag := x % 2 ^ f.sign
  let ex := mag / 2 ^ f.m
  let mt := mag % 2 ^ f.m
  if mag > f.maxBits then
    (if f.inf = some mag then .inf s else .nan)
  else if ex = 0 then .fin s mt (1 - (f.bias : Int) - f.m)
  else .fin s (2 ^ f.m + mt) ((ex : Int) - f.bias - f.m)

/-- The rounding modes (R183). -/
inductive RMode where
  | rne | rtz | rdn | rup
  deriving DecidableEq, Repr

/-- `rnd(m * 2^k, rm, s)` (R184). -/
def rnd (m : Nat) (k : Int) (rm : RMode) (s : Bool) : Nat :=
  if 0 ≤ k then m * 2 ^ k.toNat
  else
    let n := (-k).toNat
    let q := m / 2 ^ n
    let up := if m % 2 ^ n = 0 then q else q + 1
    match rm with
    | .rne => rneShift m n
    | .rtz => q
    | .rdn => if s then up else q
    | .rup => if s then q else up

/-- Bits of sign and magnitude. -/
def fpack (f : Fmt) (s : Bool) (mag : Nat) : Nat := (if s then 2 ^ f.sign else 0) + mag

/-- The conversion rule (R184). -/
def cvt (f : Fmt) (rm : RMode) (sat : Bool) (v : FVal) : Nat :=
  let past (s : Bool) : Nat :=
    match f.inf with
    | some i => fpack f s i
    | none => f.nan
  match v with
  | .nan => f.nan
  | .inf s => if sat then fpack f s f.maxBits else past s
  | .fin s m e =>
    if m = 0 then fpack f s 0
    else
      let k : Int := max ((blen m : Int) - 1 + e) (1 - (f.bias : Int))
      let r := rnd m (e - (k - f.m)) rm s
      let mag : Int := (k + f.bias - 1) * (2 ^ f.m : Nat) + r
      if mag > f.maxBits then
        (if sat || rm == .rtz || (rm == .rdn && !s) || (rm == .rup && s) then fpack f s f.maxBits else past s)
      else fpack f s mag.toNat

/-- A result word of a format. -/
def fword (f : Fmt) (v : FVal) : Word := BitVec.ofNat 32 (cvt f .rne false v)

/-- The FP32 value of a register. -/
def f32 (a : Word) : FVal := fdecode fp32 a.toNat

/-- The produced NaN of FP32. -/
def nan32 : Word := 0x7FC00000

/-- Signed mantissa. -/
def smant (s : Bool) (m : Nat) : Int := if s then -(m : Int) else m

/-- The exact sum (R285); an exact zero has the sign of IEEE 754 in round to nearest even. -/
def fadd (x y : FVal) : FVal :=
  match x, y with
  | .nan, _ => .nan
  | _, .nan => .nan
  | .inf s, .inf t => if s == t then .inf s else .nan
  | .inf s, .fin _ _ _ => .inf s
  | .fin _ _ _, .inf t => .inf t
  | .fin s m e, .fin t n g =>
    let lo := min e g
    let v := smant s m * (2 ^ (e - lo).toNat : Nat) + smant t n * (2 ^ (g - lo).toNat : Nat)
    if v = 0 then .fin (m = 0 && n = 0 && s && t) 0 0
    else .fin (v < 0) v.natAbs lo

/-- The exact product (R285). -/
def fmul (x y : FVal) : FVal :=
  match x, y with
  | .nan, _ => .nan
  | _, .nan => .nan
  | .inf s, .inf t => .inf (s != t)
  | .inf s, .fin t n _ => if n = 0 then .nan else .inf (s != t)
  | .fin s m _, .inf t => if m = 0 then .nan else .inf (s != t)
  | .fin s m e, .fin t n g => .fin (s != t) (m * n) (e + g)

/-- The value with its sign inverted. -/
def fneg : FVal → FVal
  | .nan => .nan
  | .inf s => .inf (!s)
  | .fin s m e => .fin (!s) m e

/-- Order of two values that are not NaN: x < y. -/
def flt (x y : FVal) : Bool :=
  match x, y with
  | .nan, _ => false
  | _, .nan => false
  | .inf s, .inf t => s && !t
  | .inf s, .fin _ _ _ => s
  | .fin _ _ _, .inf t => !t
  | .fin s m e, .fin t n g =>
    let lo := min e g
    smant s m * (2 ^ (e - lo).toNat : Nat) < smant t n * (2 ^ (g - lo).toNat : Nat)

/-- Equality of values; -0 and +0 are equal, and a NaN equals nothing (R285). -/
def feq (x y : FVal) : Bool :=
  match x, y with
  | .nan, _ => false
  | _, .nan => false
  | _, _ => !(flt x y) && !(flt y x)

/-- The sign of a value. -/
def fsign : FVal → Bool
  | .nan => false
  | .inf s => s
  | .fin s _ _ => s

/-- minimumNumber (R285): -0 is less than +0, and a NaN is ignored beside a number. -/
def fminNum (x y : FVal) : FVal :=
  match x, y with
  | .nan, _ => y
  | _, .nan => x
  | _, _ => if flt x y then x else if flt y x then y else if fsign x then x else y

/-- maximumNumber (R285). -/
def fmaxNum (x y : FVal) : FVal :=
  match x, y with
  | .nan, _ => y
  | _, .nan => x
  | _, _ => if flt x y then y else if flt y x then x else if fsign x then y else x

/-- FADD on registers. -/
def fadd32 (a b : Word) : Word := fword fp32 (fadd (f32 a) (f32 b))

/-- Class mask of FCLASS (R286). -/
def fclass (a : Word) : Word :=
  let s := a.getLsbD 31
  let ex := a.toNat / 2 ^ 23 % 256
  let mt := a.toNat % 2 ^ 23
  if ex = 255 && mt ≠ 0 then (if a.getLsbD 22 then 0x200 else 0x100)
  else if ex = 255 then (if s then 0x001 else 0x080)
  else if ex ≠ 0 then (if s then 0x002 else 0x040)
  else if mt ≠ 0 then (if s then 0x004 else 0x020)
  else (if s then 0x008 else 0x010)

/-- The rounding mode of an FCVT mode field (R183). -/
def rmOf (c : BitVec 3) : RMode :=
  match c.toNat % 4 with
  | 0 => .rne
  | 1 => .rtz
  | 2 => .rdn
  | _ => .rup

/-- SAT of an FCVT mode field (R183). -/
def satOf (c : BitVec 3) : Bool := c.getLsbD 2

/-- FTOI and FTON (R185): the rounded value clamped to lo .. hi. -/
def ftoInt (rm : RMode) (lo hi : Int) (v : FVal) : Int :=
  match v with
  | .nan => 0
  | .inf s => if s then lo else hi
  | .fin s m e =>
    let t := rnd m e rm s
    let x : Int := smant s t
    if x < lo then lo else if x > hi then hi else x

/-- An integer as an exact value; zero is +0 (R184). -/
def fofInt (x : Int) : FVal := .fin (x < 0) x.natAbs 0

/-! ## Special functions (R288) -/

/-- Fraction bits of the fixed-point computations (log 13, DESIGN CHOICE). -/
def fxBits : Nat := 256

/-- A value with a sticky low bit: the exact real lies strictly between m * 2^e and (m + 1) * 2^e unless `exact`. -/
def sticky (s : Bool) (m : Nat) (e : Int) (exact : Bool) : FVal :=
  if exact then .fin s m e else .fin s (2 * m + 1) (e - 1)

/-- 1 / x. -/
def frcp (v : FVal) : FVal :=
  match v with
  | .nan => .nan
  | .inf s => .fin s 0 0
  | .fin s m e =>
    if m = 0 then .inf s
    else sticky s (2 ^ 100 / m) (-e - 100) (2 ^ 100 % m = 0)

/-- Square root. -/
def fsqrt (v : FVal) : FVal :=
  match v with
  | .nan => .nan
  | .inf s => if s then .nan else .inf false
  | .fin s m e =>
    if m = 0 then .fin s 0 0
    else if s then .nan
    else
      let odd := (e % 2 = 1)
      let m' := (if odd then 2 * m else m) * 2 ^ 100
      let e' := (if odd then e - 1 else e) - 100
      let r := isqrt m'
      sticky false r (e' / 2) (r * r = m')

/-- Reciprocal square root. -/
def frsq (v : FVal) : FVal :=
  match v with
  | .nan => .nan
  | .inf s => if s then .nan else .fin false 0 0
  | .fin s m e =>
    if m = 0 then .inf s
    else if s then .nan
    else
      let odd := (e % 2 = 1)
      let m' := if odd then 2 * m else m
      let e' := if odd then e - 1 else e
      let r := isqrt (2 ^ 200 / m')
      sticky false r (-(e' / 2) - 100) (r * r * m' = 2 ^ 200)

/-- ln 2 in fixed point: the sum of 1 / (k 2^k). -/
def ln2Aux : Nat → Nat → Nat
  | 0, acc => acc
  | k + 1, acc => ln2Aux k (acc + 2 ^ fxBits / ((k + 1) * 2 ^ (k + 1)))

/-- ln 2 in fixed point. -/
def ln2Fx : Nat := ln2Aux 280 0

/-- The exponential series of a fixed-point y in [0, 1): `n` more terms, the present one being `term`, the k-th. -/
def expAux : Nat → Nat → Nat → Nat → Nat → Nat
  | 0, _, _, _, acc => acc
  | n + 1, k, y, term, acc =>
    let t := term * y / 2 ^ fxBits / k
    expAux n (k + 1) y t (acc + t)

/-- 2^f in fixed point, for a fixed-point f in [0, 1). -/
def exp2Fx (f : Nat) : Nat := expAux 70 1 (f * ln2Fx / 2 ^ fxBits) (2 ^ fxBits) (2 ^ fxBits)

/-- 2^x. -/
def fexp2 (v : FVal) : FVal :=
  match v with
  | .nan => .nan
  | .inf s => if s then .fin false 0 0 else .inf false
  | .fin s m e =>
    if m = 0 then .fin false 1 0
    -- |x| >= 256: beyond FP32 either way
    else if (blen m : Int) + e > 9 then (if s then .fin false 0 0 else .inf false)
    else
      let x : Int := floorScale (smant s m) (e + fxBits)
      let n : Int := x / (2 ^ fxBits : Nat)
      let f : Nat := (x % ((2 ^ fxBits : Nat) : Int)).toNat
      if f = 0 then .fin false 1 n else sticky false (exp2Fx f) (n - fxBits) false

/-- The series of z^(2k+1) / (2k+1). -/
def atanhAux : Nat → Nat → Nat → Nat → Nat → Nat
  | 0, _, _, _, acc => acc
  | n + 1, k, z2, pw, acc =>
    let p := pw * z2 / 2 ^ fxBits
    atanhAux n (k + 2) z2 p (acc + p / k)

/-- log2 of c / 2^b in fixed point, for 2^b <= c < 2^(b+1). -/
def log2Fx (c b : Nat) : Nat :=
  let z := (c - 2 ^ b) * 2 ^ fxBits / (c + 2 ^ b)
  let ln := 2 * atanhAux 90 3 (z * z / 2 ^ fxBits) z z
  ln * 2 ^ fxBits / ln2Fx

/-- log2(x). -/
def flog2 (v : FVal) : FVal :=
  match v with
  | .nan => .nan
  | .inf s => if s then .nan else .inf false
  | .fin s m e =>
    if m = 0 then .inf true
    else if s then .nan
    else
      let b := blen m - 1
      let k : Int := b + e
      if m = 2 ^ b then fofInt k
      else
        let x : Int := k * ((2 ^ fxBits : Nat) : Int) + log2Fx m b
        sticky (x < 0) x.natAbs (-(fxBits : Int)) false

/-! ## DX blocks (R187 to R191) -/

/-- Bits of an element (R187). -/
def dxBits (f : Nat) : Nat := match f with | 0 => 3 | 1 => 5 | _ => 8

/-- Mmax (R187). -/
def dxMax (f : Nat) : Nat := 2 ^ (dxBits f - 1) - 1

/-- Bytes of an element-plane block (R187). -/
def dxBlockBytes (f : Nat) : Nat := 2 * dxBits f

/-- Element j of a block's element plane, as a natural (R188). -/
def dxElem (f blk j : Nat) : Nat := blk / 2 ^ (dxBits f * j) % 2 ^ dxBits f

/-- The value of an element code with exponent X and micro bit (R187): signed magnitude and exponent. -/
def dxVal (f code x micro j : Nat) : Int × Int :=
  let w := dxBits f
  let t := code % 2 ^ (w - 1)
  let s := code / 2 ^ (w - 1) % 2 == 1
  (smant s t, (x : Int) - 127 - (micro / 2 ^ (j / 2) % 2 : Nat))

/-- |v| <= M * 2^k for a finite or infinite magnitude. -/
def magLe (v : FVal) (mx : Nat) (k : Int) : Bool :=
  match v with
  | .nan => true
  | .inf _ => false
  | .fin _ m e => !(flt (.fin false mx k) (.fin false m e))

/-- The least X from `x` up, within `n` steps, with every magnitude at most Mmax * 2^(X-127); 255 if none (R190). -/
def dxExp (vs : List FVal) (mx : Nat) : Nat → Nat → Nat
  | 0, _ => 255
  | n + 1, x => if vs.all (fun v => magLe v mx ((x : Int) - 127)) then x else dxExp vs mx n (x + 1)

/-- Whether a magnitude is zero. -/
def isZero : FVal → Bool
  | .fin _ 0 _ => true
  | _ => false

/-- A block formed from 16 values (R190): element plane as a natural, X, and the micro byte. -/
def dxQuant (f : Nat) (vs0 : List FVal) : Nat × Nat × Nat :=
  let vs := vs0.map (fun v => match v with | .nan => FVal.fin false 0 0 | u => u)
  let mx := dxMax f
  let x := if vs.all isZero then 0 else dxExp vs mx 256 0
  let at_ (j : Nat) : FVal := vs.getD j (.fin false 0 0)
  let mbit (i : Nat) : Nat :=
    if magLe (at_ (2 * i)) mx ((x : Int) - 128) && magLe (at_ (2 * i + 1)) mx ((x : Int) - 128) then 1 else 0
  let micro := (List.range 8).foldl (fun acc i => acc + mbit i * 2 ^ i) 0
  let code (j : Nat) : Nat :=
    let k : Int := (x : Int) - 127 - mbit (j / 2)
    match at_ j with
    | .fin s m e =>
      let t := min (rnd m (e - k) .rne false) mx
      t + (if s && t ≠ 0 then 2 ^ (dxBits f - 1) else 0)
    | .inf s => mx + (if s then 2 ^ (dxBits f - 1) else 0)
    | .nan => 0
  ((List.range 16).foldl (fun acc j => acc + code j * 2 ^ (dxBits f * j)) 0, x, micro)

/-- An element's value as FP32 (R191). -/
def dxToF32 (f code x micro j : Nat) : Word :=
  let (q, e) := dxVal f code x micro j
  if q = 0 then 0 else fword fp32 (.fin (q < 0) q.natAbs e)

/-- An operand element of the matrix loop (R189): none when nonfinite, else (q, e). -/
def matElem (code bits : Nat) : Option (Int × Int) :=
  let d (f : Fmt) : Option (Int × Int) :=
    match fdecode f bits with
    | .fin s m e => some (smant s m, e)
    | _ => none
  match code with
  | 3 => d e4m3
  | 4 => d e5m2
  | 5 => some ((BitVec.ofNat 8 bits).toInt, 0)
  | 6 => d bf16
  | _ => d fp16

end Sys2Proof.Machine
end

