-- ==== Sys2Proof/Machine/Matrix.lean ====
section
/-! DEFINITION. The meanings of MLOOP and the SLATE instructions (R347 to R349), and the matrix unit's own steps (R192 to R206). -/

namespace Sys2Proof.Machine

/-! ## Ownership and checks (R146, R192, R197) -/

/-- With H = 1 a slate may be named only if it is the handler slate and no code with H = 0 holds it (R146). -/
def ownerOk (s : State) (g : Group) (l n : Nat) : Bool :=
  let m := matrixAt s (coreOf s g.ck)
  !(threadAt s (g.tk l)).inHandler ||
    (n == (residentAt s (ridOf g.ck)).hslate && !(slateAt m n).fromH0 && m.loops.all (fun p => !(p.slate == n && p.fromH0)))

/-- The checks common to the SLATE instructions that name a slate (R349). -/
def slateCheck (s : State) (i : Instr) (g : Group) (n l : Nat) : Option LaneAct :=
  if !(launchOf s g.ck).matrix then some (.trap .illegal (wordVal i))
  else if !ownerOk s g l n then some (.trap .slateOwner (BitVec.ofNat 64 n))
  else none

/-- The next ticket of the core's class (R198). -/
def nextTicket (m : Matrix) : Nat := (m.ticket + 1) % 2 ^ 32

/-- An earlier ticket: the counter wraps (R198). -/
def ticketBefore (a b : Nat) : Bool := a != b && decide ((b + 2 ^ 32 - a) % 2 ^ 32 < 2 ^ 31)

/-- Lanes that pass their checks, ascending: the instruction acts once, for them (R349; log 29, DEDUCED). -/
def passing (s : State) (g : Group) (i : Instr) (chk : Nat → Option LaneAct) : List Nat :=
  (goLanes s g i).filter (fun l => (chk l).isNone)

/-- A check as a lane's fate, where a lane that passes has fate `a`. -/
def checked (chk : Nat → Option LaneAct) (a : LaneAct) (l : Nat) : LaneAct := (chk l).getD a

/-! ## MLOOP (R196, R197) -/

/-- The fields of the format word (R196). -/
def fwAfmt (w : Word) : Nat := w.toNat % 16
def fwBfmt (w : Word) : Nat := w.toNat / 2 ^ 4 % 16
def fwMode (w : Word) : Nat := w.toNat / 2 ^ 8 % 4
def fwGroups (w : Word) : Nat := w.toNat / 2 ^ 10 % 4
def fwTl (w : Word) : Nat := w.toNat / 2 ^ 12 % 8
def fwAoff (w : Word) : Int := (BitVec.ofNat 8 (w.toNat / 2 ^ 16)).toInt
def fwBoff (w : Word) : Int := (BitVec.ofNat 8 (w.toNat / 2 ^ 24)).toInt

/-- A format word without an invalid field (R196). -/
def fwOk (w : Word) : Bool :=
  decide (fwAfmt w < 8) && decide (fwBfmt w < 8) && decide (fwMode w < 2) && fwGroups w != 3 && !w.getLsbD 15

/-- Row groups G (R196). -/
def fwG (w : Word) : Nat := 2 ^ fwGroups w

/-- The checks of MLOOP in one lane; `go` are the lanes whose format words must agree (R197). -/
def mloopCheck (s : State) (i : Instr) (g : Group) (n : Nat) (a : RegNo) (go : List Nat) (l : Nat) : Option LaneAct :=
  let w := readReg s g l a.toNat
  if !(launchOf s g.ck).matrix then some (.trap .illegal (wordVal i))
  else if go.any (fun k => readReg s g k a.toNat != w) then some (.trap .formatDivergence (w.setWidth 64))
  else if !fwOk w then some (.trap .format (w.setWidth 64))
  else if !ownerOk s g l n then some (.trap .slateOwner (BitVec.ofNat 64 n))
  else none

/-- One loop accepted: it takes a ticket and a number with INC 1 (R197). -/
def acceptLoop (s : State) (ck slate fa fb : Nat) (w : Word) (count : Nat) (h0 : Bool) : State :=
  let core := coreOf s ck
  let m := matrixAt s core
  let q := numberOn (timelineAt s ck (fwTl w)) 1
  let lp : Loop :=
    { ticket := nextTicket m, slate := slate, fa := fa, fb := fb, fmt := w, remaining := count, applied := 0, tl := fwTl w,
      num := q.1, fromH0 := h0 }
  setMatrix (setTimeline s ck (fwTl w) q.2.2) core { m with ticket := nextTicket m, loops := m.loops ++ [lp] }

/-! ## Ticketed instructions (R198, R349) -/

/-- A ticketed slate instruction of some lanes joins the unit: it takes a ticket and acts later. -/
def pushAct (s : State) (ck slate : Nat) (k : ActKind) (lanes : List Nat) (h0 : Bool) : State :=
  let core := coreOf s ck
  let m := matrixAt s core
  setMatrix s core { m with ticket := nextTicket m, acts := m.acts ++ [⟨nextTicket m, slate, k, lanes, h0⟩] }

/-- A SLATE instruction that takes a ticket once for the lanes that pass `chk`; each such lane has fate `fate ticket`. -/
def opTicket (i : Instr) (slate : Nat) (chk : Nat → Option LaneAct) (k : List Nat → ActKind) (fate : Nat → LaneAct) (s : State) : Out :=
  let g := groupOf s
  let ls := passing s g i chk
  let t := nextTicket (matrixAt s (coreOf s g.ck))
  let s' := runRegs i s (checked chk (fate t))
  .next (if ls.isEmpty then s'
         else pushAct s' g.ck slate (k ls) (ls.map g.tk) (ls.any (fun l => !(threadAt s (g.tk l)).inHandler)))

/-- The row that an instruction names: a[4:0] of the lowest lane that acts (R348). -/
def rowOf (s : State) (g : Group) (a : RegNo) (ls : List Nat) : Nat :=
  match ls with
  | l :: _ => (readReg s g l a.toNat).toNat % 32
  | [] => 0

/-! ## The event log (R202) -/

/-- The quad of an entry, with LOST and LOSTCOUNT as they stand. -/
def eventQuad (m : Matrix) (e : Option LogEntry) : List Word :=
  let lost := m.lost.toNat * 2 ^ 9
  let cnt := m.lostCount % 65536 * 65536
  match e with
  | some e =>
    [BitVec.ofNat 32 (e.shift % 65536 * 65536 + lost + 2 ^ 8 + e.row % 32 * 8 + e.slate % 8),
     BitVec.ofNat 32 (cnt + (BitVec.ofInt 16 e.newE).toNat), BitVec.ofNat 32 e.step, BitVec.ofNat 32 e.ticket]
  | none => [BitVec.ofNat 32 lost, BitVec.ofNat 32 cnt, 0, 0]

/-- SLEVT at the unit: the oldest entry leaves; an empty log clears LOST and LOSTCOUNT. -/
def takeEvent (m : Matrix) : Matrix × List Word :=
  match m.log with
  | e :: r => ({ m with log := r }, eventQuad m (some e))
  | [] => ({ m with lost := false, lostCount := 0 }, eventQuad m none)

/-- Entries appended; with 64 held, an entry is dropped and counted. -/
def logEvent (m : Matrix) (e : LogEntry) : Matrix :=
  if m.log.length < 64 then { m with log := m.log ++ [e] }
  else { m with lost := true, lostCount := min (m.lostCount + 1) 65535 }

/-- An entry's loop has no earlier-ticketed loop still open, and no entry of an earlier ticket waits before it (R202). -/
def entryDue (m : Matrix) (e : LogEntry) : Bool :=
  m.loops.all (fun x => !ticketBefore x.ticket e.ticket) && m.staged.all (fun y => !ticketBefore y.ticket e.ticket)

/-- Entries that wait are appended, in ticket order (R202). -/
def releaseStaged : Nat → Matrix → Matrix
  | 0, m => m
  | f + 1, m =>
    match m.staged.find? (entryDue m) with
    | some e => releaseStaged f (logEvent { m with staged := m.staged.erase e } e)
    | none => m

/-! ## One step of a loop (R194, R200, R201) -/

/-- Bytes of a chunk (R194). -/
def chunkBytes (f : Nat) : Nat :=
  match f with
  | 0 => 512
  | 1 => 768
  | 2 => 1152
  | 3 => 1024
  | 4 => 1024
  | 5 => 1024
  | _ => 2048

/-- Bytes as a natural from offset `o`. -/
def chunkNat (bs : List Byte) (o n : Nat) : Nat := wordOfBytes ((bs.drop o).take n)

/-- Element (v, k) of a chunk, v a row of A or a column of B, decoded with the format's exponent offset: none when nonfinite
(R188, R189, R194). -/
def chunkElem (f : Nat) (off : Int) (bs : List Byte) (v k : Nat) : Option (Int × Int) :=
  if f < 3 then
    let blk := 2 * v + k / 16
    let j := k % 16
    let w := dxBlockBytes f
    let code := dxElem f (chunkNat bs (w * blk) w) j
    let x := chunkNat bs (64 * w + 2 * blk) 1
    let mi := chunkNat bs (64 * w + 2 * blk + 1) 1
    let q := dxVal f code x mi j
    some (q.1, q.2 + off)
  else
    let n := if 6 ≤ f then 2 else 1
    (matElem f (chunkNat bs (n * (32 * v + k)) n)).map (fun q => (q.1, q.2 + off))

/-- The products of one row: (column, q, e), those of value 0 left out; and whether a factor was nonfinite (R200). -/
def rowProducts (a : List (Option (Int × Int))) (b : List (List (Option (Int × Int)))) : List (Nat × Int × Int) × Bool :=
  let cell (j k : Nat) : List (Nat × Int × Int) :=
    match a.getD k none, (b.getD j []).getD k none with
    | some x, some y => if x.1 * y.1 = 0 then [] else [(j, x.1 * y.1, x.2 + y.2)]
    | _, _ => []
  ((List.range 32).flatMap (fun j => (List.range 32).flatMap (cell j)),
   a.any (·.isNone) || b.any (fun c => c.any (·.isNone)))

/-- blen of a mantissa's magnitude. -/
def blenInt (x : Int) : Int := blen x.natAbs

/-- The largest of some integers, at least `d`. -/
def maxOf (d : Int) (xs : List Int) : Int := xs.foldl max d

/-- g of R201: the largest e + blen(|q|) of a nonempty product list. -/
def topOf : List (Nat × Int × Int) → Int
  | [] => 0
  | (_, q, e) :: r => maxOf (e + blenInt q) (r.map (fun p => p.2.2 + blenInt p.2.1))

/-- The renormalisation a row needs before the add: the shift S, or zero (R201). -/
def shiftFor (ms : List (BitVec 48)) (g e : Int) : Int :=
  let need := max (maxOf 0 (ms.map (fun m => blenInt m.toInt))) (g - e) + 5
  if need ≤ 47 then 0 else 8 * ((need - 47 + 7) / 8)

/-- The loop of R201 before the add: shifts until the row has room; an exponent past 32,767 sets O. The events are (S, E) in order. -/
def makeRoom (g : Int) : Nat → Row → List (Int × Int) → Row × List (Int × Int)
  | 0, r, ev => (r, ev)
  | f + 1, r, ev =>
    let sh := shiftFor r.m g r.e
    if sh = 0 then (r, ev)
    else if r.e + sh > 32767 then ({ r with o := true, e := 32767 }, ev)
    else
      makeRoom g f { r with m := r.m.map (fun m => BitVec.ofInt 48 (rneShiftInt m.toInt sh.toNat)), e := r.e + sh }
        (ev ++ [(sh, r.e + sh)])

/-- The truncated products of a column, added (R201). -/
def columnSum (ps : List (Nat × Int × Int)) (e : Int) (j : Nat) : Int :=
  ((ps.filter (fun p => p.1 == j)).map (fun p => floorScale p.2.1 (p.2.2 - e))).sum

/-- A 48-bit mantissa holds x. -/
def fits48 (x : Int) : Bool := decide (-(2 ^ 47 : Int) ≤ x) && decide (x ≤ 2 ^ 47 - 1)

/-- The products of one row of a step: (column, q, e). -/
abbrev Products := List (Nat × Int × Int)

/-- One row of a step on the AUTO path: the row after it, and its renormalisations in order (R201). -/
def stepRow (r : Row) (ps : Products) (nf : Bool) : Row × List (Int × Int) :=
  let r := if nf then { r with n := true } else r
  if r.o || ps.isEmpty then (r, [])
  else
    let g := topOf ps
    let r := if r.z then { r with e := max (g - 40) (-32768), z := false } else r
    let q := makeRoom g 8200 r []
    if q.1.o then q
    else
      let r := q.1
      let t := (List.range 32).map (fun j => (r.m.getD j 0).toInt + columnSum ps r.e j)
      if t.all fits48 then ({ r with m := t.map (fun x => BitVec.ofInt 48 x) }, q.2)
      else if r.e + 8 > 32767 then ({ r with o := true, e := 32767 }, q.2)
      else ({ r with m := t.map (fun x => BitVec.ofInt 48 (rneShiftInt x 8)), e := r.e + 8 }, q.2 ++ [(8, r.e + 8)])

/-- Whether the AUTO path would renormalise the row: its E moves after the choice for an empty row (R201; an overflow of E is a
renormalisation that could not be made). -/
def wouldShift (r : Row) (ps : Products) : Bool :=
  if r.o || ps.isEmpty then false
  else
    let q := stepRow r ps false
    !q.2.isEmpty || q.1.o

/-- The products of every row of a step, with its nonfinite flag (R200); `b` is the group's chunk. -/
def stepProducts (w : Word) (a : List Byte) (bs : List (List Byte)) : List (Products × Bool) :=
  let col (c : List Byte) (j : Nat) := (List.range 32).map (chunkElem (fwBfmt w) (fwBoff w) c j)
  let groups := bs.map (fun c => (List.range 32).map (col c))
  (List.range 32).map (fun i =>
    rowProducts ((List.range 32).map (chunkElem (fwAfmt w) (fwAoff w) a i)) (groups.getD (i * fwG w / 32) []))

/-- Every row of a step on a slate; the events are (row, S, E), rows ascending. -/
def stepSlate (sl : Slate) (ps : List (Products × Bool)) : Slate × List (Nat × Int × Int) :=
  (List.range 32).foldl (fun acc i =>
    let p := ps.getD i ([], false)
    let q := stepRow (rowAt acc.1 i) p.1 p.2
    ({ acc.1 with rows := tset Row.blank acc.1.rows i q.1 }, acc.2 ++ q.2.map (fun e => (i, e.1, e.2)))) (sl, [])

/-! ## Loops (R195, R198, R199) -/

/-- An earlier-ticketed loop or act names the slate or a FIFO of this loop. -/
def loopHeld (m : Matrix) (lp : Loop) : Bool :=
  m.loops.any (fun x => ticketBefore x.ticket lp.ticket &&
    (x.slate == lp.slate || [x.fa, x.fb].any (fun f => f == lp.fa || f == lp.fb)))
  || m.acts.any (fun x => ticketBefore x.ticket lp.ticket &&
    (match x.kind with
     | .fifoClear f _ => f == lp.fa || f == lp.fb
     | _ => x.slate == lp.slate))

/-- The chunks of the loop's next step, once all are present: A, the B chunks, and the bytes consumed of each FIFO (R195). -/
def nextChunks (m : Matrix) (lp : Loop) : Option (List Byte × List (List Byte) × Nat × Nat) :=
  let na := chunkBytes (fwAfmt lp.fmt)
  let nb := chunkBytes (fwBfmt lp.fmt)
  let g := fwG lp.fmt
  let cut (bs : List Byte) := (List.range g).map (fun k => (bs.drop (nb * k)).take nb)
  let a := (fifoAt m lp.fa).bytes
  let b := (fifoAt m lp.fb).bytes
  if lp.fa = lp.fb then
    if a.length < na + nb * g then none else some (a.take na, cut (a.drop na), na + nb * g, 0)
  else if a.length < na ∨ b.length < nb * g then none
  else some (a.take na, cut b, na, nb * g)

/-- Bytes consumed from a FIFO (R193). -/
def consume (m : Matrix) (f n : Nat) : Matrix :=
  let x := fifoAt m f
  { m with fifos := tset Fifo.blank m.fifos f ⟨x.bytes.drop n, x.pos + n⟩ }

/-- A loop replaced, or removed. -/
def setLoop (m : Matrix) (lp : Loop) : Matrix := { m with loops := m.loops.map (fun x => if x.ticket = lp.ticket then lp else x) }
def dropLoop (m : Matrix) (lp : Loop) : Matrix := { m with loops := m.loops.filter (fun x => x.ticket != lp.ticket) }

/-- A slate replaced. -/
def setSlate (m : Matrix) (n : Nat) (sl : Slate) : Matrix := { m with slates := tset Slate.blank m.slates n sl }

/-- A loop has ended: the slate's loop status, and the loop is gone (R199). -/
def endLoop (m : Matrix) (lp : Loop) (stopped : Bool) : Matrix :=
  dropLoop (setSlate m lp.slate { slateAt m lp.slate with stopped := stopped, steps := BitVec.ofNat 32 lp.applied }) lp

/-- One step applied to its slate: its events wait for their place in the log, its chunks are consumed. -/
def applyStep (m : Matrix) (lp : Loop) (c : List Byte × List (List Byte) × Nat × Nat) (ps : List (Products × Bool)) : Matrix :=
  let q := stepSlate (slateAt m lp.slate) ps
  let m := setSlate m lp.slate { q.1 with fromH0 := lp.fromH0 }
  let m := { m with staged := m.staged ++ q.2.map (fun e => ⟨lp.slate, e.1, e.2.1.toNat, e.2.2, lp.applied, lp.ticket⟩) }
  let m := consume m lp.fa c.2.2.1
  if c.2.2.2 = 0 then m else consume m lp.fb c.2.2.2

/-- A loop's step, or its end, before the log takes what is due: the unit after it and whether the loop ended; none while it may not step (R195,
R198, R201). -/
def stepOrEnd (m : Matrix) (lp : Loop) : Option (Matrix × Bool) :=
  if loopHeld m lp then none
  else if lp.remaining = 0 then some (endLoop m lp false, true)
  else
    match nextChunks m lp with
    | none => none
    | some c =>
      let ps := stepProducts lp.fmt c.1 c.2.1
      if fwMode lp.fmt = 1 ∧ (List.range 32).any (fun i => wouldShift (rowAt (slateAt m lp.slate) i) (ps.getD i ([], false)).1) then
        some (endLoop m lp true, true)
      else
        let lp' := { lp with remaining := lp.remaining - 1, applied := lp.applied + 1 }
        let m := setLoop (applyStep m lp c ps) lp'
        if lp'.remaining = 0 then some (endLoop m lp' false, true) else some (m, false)

/-- What a step of a loop does to the unit (R195, R198, R201, R202). -/
def loopStep (m : Matrix) (lp : Loop) : Option (Matrix × Bool) :=
  (stepOrEnd m lp).map (fun q => (releaseStaged q.1.staged.length q.1, q.2))

/-! ## Acts (R205, R206) -/

/-- An act's instruction acts once no earlier-ticketed loop, nor earlier act of its own slate or FIFO, is left (R198). -/
def actHeld (m : Matrix) (a : Act) : Bool :=
  let fifo : Option Nat :=
    match a.kind with
    | .fifoClear f _ => some f
    | _ => none
  m.loops.any (fun x => ticketBefore x.ticket a.ticket &&
    (match fifo with
     | some f => x.fa == f || x.fb == f
     | none => x.slate == a.slate))
  || m.acts.any (fun x => ticketBefore x.ticket a.ticket &&
    (match fifo, x.kind with
     | some f, .fifoClear h _ => f == h
     | some _, _ => false
     | none, .fifoClear _ _ => false
     | none, _ => x.slate == a.slate))

/-- The value of element j of a row under a conversion code (R205). -/
def readElem (r : Row) (conv j : Nat) : Word :=
  let m := r.m.getD j 0
  let float (f : Fmt) : Word :=
    if r.n then BitVec.ofNat 32 f.nan
    else if r.o then (if m = 0 then 0 else BitVec.ofNat 32 (fpack f (decide (m.toInt < 0)) (f.inf.getD 0)))
    else if r.z then 0
    else BitVec.ofNat 32 (cvt f .rne false (.fin (decide (m.toInt < 0)) m.toInt.natAbs r.e))
  match conv with
  | 0 => float fp32
  | 1 => float bf16
  | 2 => m.setWidth 32
  | _ => (BitVec.ofNat 16 (m.toNat / 2 ^ 32)).signExtend 32

/-- A row made from FP32 lane values (R206). -/
def rowFrom (vals : Table Word) : Row :=
  let v (j : Nat) : FVal := f32 (tget 0 vals j)
  let bad := (List.range 32).any (fun j => match v j with | .fin _ _ _ => false | _ => true)
  let q (j : Nat) : Int × Int := match v j with | .fin s m e => (smant s m, e) | _ => (0, 0)
  let ps := ((List.range 32).map (fun j => (j, (q j).1, (q j).2))).filter (fun p => p.2.1 != 0)
  if ps.isEmpty then { Row.blank with n := bad }
  else
    let e := max (topOf ps - 40) (-32768)
    { m := (List.range 32).map (fun j => BitVec.ofInt 48 (floorScale (q j).1 ((q j).2 - e))), e := e, z := false, n := bad, o := false }

/-- The pair of SLSTAT (R203). -/
def slateStatus (sl : Slate) (row : Nat) : List Word :=
  let r := rowAt sl row
  [BitVec.ofNat 32 (sl.stopped.toNat * 2 ^ 31 + r.o.toNat * 2 ^ 18 + r.n.toNat * 2 ^ 17 + r.z.toNat * 2 ^ 16 + (BitVec.ofInt 16 r.e).toNat),
   sl.steps]

/-- The values of a ticket's deferred result written into a thread's pending results (R198); they are then free to be written. -/
def fillTicket (t : Nat) (vs : List Word) (d : Deferred) : Deferred :=
  if d.waits = some t then { d with ws := (d.ws.map (·.1)).zip vs, waits := none } else d

/-- A k destination takes the value of the lowest lane (R132). -/
def uniformDest (d : Deferred) : Bool := d.ws.any (fun w => match w.1 with | .kreg _ => true | _ => false)

/-- The deferred results of a ticket filled in its threads: `f` gives a lane's values. -/
def fillLanes (s : State) (a : Act) (f : Nat → List Word) : State :=
  let low := (a.lanes.head?).map laneOfT
  a.lanes.foldl (fun s tk => updThread s tk (fun t =>
    { t with pend := t.pend.map (fun d => fillTicket a.ticket (f (if uniformDest d then low.getD (laneOfT tk) else laneOfT tk)) d) })) s

/-- Requests that a FIFOCLR discards: those of the class to this FIFO issued before it. They deliver nothing further (R206). -/
def clearRequests (s : State) (ck f upTo : Nat) : State :=
  { s with reqs := s.reqs.map (fun e =>
      if e.1 < upTo ∧ e.2.ck = ck ∧ e.2.blk.dest = 2 ∧ e.2.blk.fifo = f ∧ e.2.retained then
        (e.1, { e.2 with retained := false, cleared := true, moved := true, waits := none })
      else e) }

/-- A ticketed instruction acts on the unit of its class (R205, R206). -/
def doAct (s : State) (core ck : Nat) (a : Act) : State :=
  let m0 := matrixAt s core
  let m := { m0 with acts := m0.acts.filter (fun x => x.ticket != a.ticket) }
  let sl := slateAt m a.slate
  match a.kind with
  | .clear => setMatrix s core (setSlate m a.slate Slate.blank)
  | .read row conv => fillLanes (setMatrix s core m) a (fun l => [readElem (rowAt sl row) conv l])
  | .write row vals =>
    setMatrix s core (setSlate m a.slate { sl with rows := tset Row.blank sl.rows row (rowFrom vals), fromH0 := a.fromH0 })
  | .stat row => fillLanes (setMatrix s core m) a (fun _ => slateStatus sl row)
  | .fifoClear f upTo => clearRequests (setMatrix s core { m with fifos := tdel m.fifos f }) ck f upTo

/-! ## The instructions -/

/-- MLOOP: one loop on behalf of the lanes that pass, or all of them park while four are accepted (R197). -/
def execMloop (m : Bool) (n : BitVec 3) (x y : BitVec 2) (a b : RegNo) (s : State) : Out :=
  let i : Instr := (.mloop m n x y a b)
  let g := groupOf s
  let chk := mloopCheck s i g n.toNat a (goLanes s g i)
  match passing s g i chk with
  | [] => .next (runRegs i s (checked chk (.done [] (nextPc g))))
  | l :: _ =>
    if 4 ≤ (matrixAt s (coreOf s g.ck)).loops.length then .next (runRegs i s (checked chk (.park .loops)))
    else
      .next (acceptLoop (runRegs i s (checked chk (.done [] (nextPc g)))) g.ck n.toNat x.toNat y.toNat (readReg s g l a.toNat)
        (readReg s g l b.toNat).toNat (!(threadAt s (g.tk l)).inHandler))

/-- SLCLR (R206). -/
def execSlclr (m : Bool) (n : BitVec 3) (s : State) : Out :=
  let i : Instr := (.slclr m n)
  let g := groupOf s
  opTicket i n.toNat (slateCheck s i g n.toNat) (fun _ => .clear) (fun _ => .done [] (nextPc g)) s

/-- SLRD: lane j takes column j (R205). -/
def execSlrd (m : Bool) (d a : RegNo) (c : BitVec 2) (n : BitVec 3) (s : State) : Out :=
  let i : Instr := (.slrd m d a c n)
  let g := groupOf s
  opTicket i n.toNat (slateCheck s i g n.toNat) (fun ls => .read (rowOf s g a ls) c.toNat) (fun t => .ticketed [d.toNat] t) s

/-- SLWR: an inactive lane gives +0 (R206). -/
def execSlwr (m : Bool) (d a : RegNo) (n : BitVec 3) (s : State) : Out :=
  let i : Instr := (.slwr m d a n)
  let g := groupOf s
  opTicket i n.toNat (slateCheck s i g n.toNat) (fun ls => .write (rowOf s g a ls) (ls.foldl (fun t l => tset 0 t l (readReg s g l d.toNat)) [])) (fun _ => .done [] (nextPc g)) s

/-- SLSTAT (R203). -/
def execSlstat (m : Bool) (d a : RegNo) (n : BitVec 3) (s : State) : Out :=
  let i : Instr := (.slstat m d a n)
  let g := groupOf s
  opTicket i n.toNat (slateCheck s i g n.toNat) (fun ls => .stat (rowOf s g a ls)) (fun t => .ticketed [d.toNat, d.toNat + 1] t) s

/-- SLEVT: no ticket; one entry leaves the log (R202). -/
def execSlevt (m : Bool) (d : RegNo) (s : State) : Out :=
  let i : Instr := (.slevt m d)
  let g := groupOf s
  let core := coreOf s g.ck
  let chk (_ : Nat) : Option LaneAct := if (launchOf s g.ck).matrix then none else some (.trap .illegal (wordVal i))
  let q := takeEvent (matrixAt s core)
  let fate : LaneAct := .defer ((List.range 4).map (fun k => (d.toNat + k, q.2.getD k 0)))
  let s' := runRegs i s (checked chk fate)
  .next (if (passing s g i chk).isEmpty then s' else setMatrix s' core q.1)

/-- FIFOCLR (R206). -/
def execFifoclr (m : Bool) (f : BitVec 2) (s : State) : Out :=
  let i : Instr := (.fifoclr m f)
  let g := groupOf s
  let chk (l : Nat) : Option LaneAct :=
    if !(launchOf s g.ck).matrix then some (.trap .illegal (wordVal i))
    else if (threadAt s (g.tk l)).inHandler then some (.trap .slateOwner (BitVec.ofNat 64 (0x10 + f.toNat)))
    else none
  opTicket i 0 chk (fun _ => .fifoClear f.toNat s.nextReq) (fun _ => .done [] (nextPc g)) s

end Sys2Proof.Machine
end

