-- ==== Sys2Proof/Machine/Region.lean ====
section
/-! DEFINITION. The meanings of the region instructions (R212 to R223, R350, R351): opening, commit, abort and status. -/

namespace Sys2Proof.Machine

/-- Open regions of a core: it has 64 (R212). -/
def regionsOpen (s : State) (core : Nat) : Nat :=
  (s.threads.filter (fun e => e.2.region.isSome && coreOf s (ckOfT e.1) == core)).length

/-- A region opened by one lane, with its checkpoint (R212). The outstanding set is empty (R138). -/
def openRegion (s s' : State) (g : Group) (l : Nat) (d : RegNo) (fallback : DWord) : State :=
  let tk := g.tk l
  updThread s' tk (fun t =>
    { t with out := 0, region := some ⟨d, fallback, threadRegs s tk, t.wb, false, [], [], [], [], []⟩ })

/-! ## Commit (R220) -/

/-- Where a line of a region lies now: as its address translates, else as it was recorded (R99). -/
def placeNow (s : State) (core ctx va : Nat) (host : Bool) (pa : Nat) : State × Place :=
  match translate s core ctx va .read true with
  | (s, .leaf e lv _) => (s, placeOf e lv va)
  | (s, _) => (s, ⟨host, if host then 2 else 1, 0, false, pa⟩)

/-- The trap of a commit whose read set has a line that cannot be had: ACCESS while a link is down (R24), MEMORY_ERROR where it is spoiled
(R165). -/
def readSetTrap (s : State) (core : Nat) (ps : List (Place × ReadLine)) : Option LaneAct :=
  ps.findSome? (fun x =>
    if linkDenied s x.1 then some (.trap .access (BitVec.ofNat 64 x.2.va))
    else if wouldSpoil s core { x.1 with pa := x.1.pa / 128 * 128 } none 128 then some (.trap .memoryError (BitVec.ofNat 64 x.2.va))
    else none)

/-- The places of a region's buffered stores, each page translated for WRITE; or the lane's fate. -/
def storePagesOf (s : State) (core ctx : Nat) : List BufStore → State × (Access ⊕ List (Place × BufStore))
  | [] => (s, .inr [])
  | b :: r =>
    match globalPages s core ctx b.va b.size .write with
    | (s, .inl x) => (s, .inl x)
    | (s, .inr pls) =>
      match storePagesOf s core ctx r with
      | (s, .inl x) => (s, .inl x)
      | (s, .inr q) => (s, .inr (((pls.getD 0 (⟨b.host, 1, 0, false, b.pa⟩, 0)).1, b) :: q))

/-- The places of a list of (address, host, place) now. -/
def placesNow (s : State) (core ctx : Nat) : List (Nat × Bool × Nat) → State × List Place
  | [] => (s, [])
  | (va, host, pa) :: r =>
    let p := placeNow s core ctx va host pa
    let q := placesNow p.1 core ctx r
    (q.1, p.2 :: q.2)

/-- Insertion of a place by its line, in ascending address order. -/
def insertLine (p : Place) : List Place → List Place
  | [] => [p]
  | q :: r =>
    if q.host = p.host ∧ q.pa / 128 = p.pa / 128 then q :: r
    else if p.host.toNat * 2 ^ 60 + p.pa / 128 < q.host.toNat * 2 ^ 60 + q.pa / 128 then p :: q :: r
    else q :: insertLine p r

/-- The write token of each line taken, in ascending address order, after the core's earlier accesses of the line (R167, R220, R223). -/
def takeTokens (s : State) (core : Nat) (ls : List Place) : State :=
  ls.foldl (fun s p =>
    let s := inTurn s core p
    if holdsToken s core p then s else takeToken s core p) s

/-- Tokens given up; what is dirty stays dirty (R220). -/
def giveTokens (s : State) (core : Nat) (ls : List Place) : State :=
  ls.foldl (fun s p => { s with l1 := tupd s.l1 (lineKey core p.host (p.pa / 128)) (fun ln => { ln with token := false }) }) s

/-- `n` bytes as the core holds them. -/
def heldBytes (s : State) (core : Nat) (p : Place) (n : Nat) : List Byte := lineBytes s core p n

/-- A tag's fresh value (R220). -/
def tagValue (fresh : List DWord) (t : Tag) : DWord := fresh.getD t.k 0 + t.c

/-- A constraint's operand with every input replaced by its fresh value. -/
def freshOperand (fresh : List DWord) : Operand → DWord
  | .tagged t => tagValue fresh t
  | .plain v => v

/-- The first constraint that does not hold under fresh values (R220). -/
def firstBroken (fresh : List DWord) (cs : List Constraint) : Option Nat :=
  (List.range cs.length).find? (fun n =>
    match cs[n]? with
    | some c => relHolds c.rel c.wide (freshOperand fresh c.x) (freshOperand fresh c.y) != c.holds
    | none => false)

/-- The bytes of a buffered store: repaired where it is tagged. -/
def repairedData (repair : Option (List DWord)) (b : BufStore) : List Byte :=
  match repair, b.tag with
  | some fresh, some t => bytesOfNat b.size (tagValue fresh t).toNat
  | _, _ => b.data

/-- The registers still tagged, rewritten with fresh values (R220); the odd half of a pair takes the high word. -/
def repairRegs (s : State) (tk : Nat) (fresh : List DWord) (tags : List (Nat × Tag)) : State :=
  let t := threadAt s tk
  tags.foldl (fun s e =>
    let v := tagValue fresh e.2
    writeDest s tk s.issueSeq (.alloc (t.wb.toNat + e.1)) (if e.2.wide && e.1 % 2 == 1 then hiHalf v else loHalf v)) s

/-- The commit's last part: stores in program order, tokens given up, the status word, the region closed (R220). -/
def closeRegion (s : State) (tk core : Nat) (r : Region) (lines : List Place) (stores : List (Place × BufStore))
    (repair : Option (List DWord)) (status : Word) : State :=
  let s := stores.foldl (fun s x => storeLine s core x.1 false (repairedData repair x.2)) s
  let s := giveTokens s core lines
  let s := match repair with | some fresh => repairRegs s tk fresh r.tags | none => s
  let s := updThread s tk (fun t => { t with region := none, out := 0 })
  writeStatus s tk r status

/-- ATEND in one lane with its results written (R220). -/
def commitLane (s : State) (g : Group) (l : Nat) (r : Region) : State × LaneAct :=
  let tk := g.tk l
  let core := coreOf s g.ck
  let ctx := (clsAt s g.ck).ctx
  match storePagesOf s core ctx r.stores with
  | (s, .inl x) => (s, accessAct g 4 0 x)
  | (s, .inr stores) =>
    let p := placesNow s core ctx (r.reads.map (fun x => (x.va, x.host, x.line * 128)))
    let q := placesNow p.1 core ctx (r.inputs.map (fun x => (x.va, x.host, x.pa)))
    match readSetTrap q.1 core (p.2.zip r.reads) with
    | some x => (q.1, x)
    | none =>
    let lines := (p.2 ++ stores.map (·.1)).foldr insertLine []
    let s := takeTokens q.1 core lines
    let now (pl : Place) : List Byte := heldBytes s core { pl with pa := pl.pa / 128 * 128 } 128
    let ch := ((p.2.zip r.reads).filter (fun x => now x.1 != x.2.snap)).length
    if ch = 0 then (closeRegion s tk core r lines stores none (statusWord 0x01 0 0), .done [] (nextPc g))
    else if r.rigid then (s, .abort 0x11 0)
    else
      let fresh := (q.2.zip r.inputs).map (fun x => BitVec.ofNat 64 (wordOfBytes (heldBytes s core x.1 (if x.2.wide then 8 else 4))))
      match firstBroken fresh r.constraints with
      | some n => (s, .abort 0x10 n)
      | none => (closeRegion s tk core r lines stores (some fresh) (statusWord 0x02 0 ch), .done [] (nextPc g))

/-- The word of ATSTAT (R222). -/
def regionState (r : Region) : Word :=
  BitVec.ofNat 32 (2 ^ 31 + r.rigid.toNat * 2 ^ 30 + r.constraints.length * 2 ^ 19 + r.stores.length * 2 ^ 15
    + ((r.stores.map (fun b => (b.host, b.pa / 128))).eraseDups).length * 2 ^ 11 + r.reads.length * 2 ^ 7 + r.inputs.length * 2 ^ 3)

/-! ## The instructions -/

/-- ATBEG (R212). -/
def execAtbeg (m : Bool) (d : RegNo) (o : BitVec 11) (s : State) : Out :=
  let g := groupOf s
  .next (runWord (.atbeg m d o) s (fun s' l =>
    if !(threadAt s (g.tk l)).pend.isEmpty then (s', .park .results)
    else if 64 ≤ regionsOpen s' (coreOf s g.ck) then (s', .park .regions)
    else (openRegion s s' g l d (g.pc + sext64 o * 4), .done [(d.toNat, statusWord 0 0 0)] (nextPc g))))

/-- ATEND (R220). -/
def execAtend (m : Bool) (s : State) : Out :=
  let g := groupOf s
  .next (runWord (.atend m) s (fun s' l =>
    let t := threadAt s (g.tk l)
    if !t.pend.isEmpty then (s', .park .results)
    else
      match t.region with
      | some r => commitLane s' g l r
      | none => (s', .done [] (nextPc g))))

/-- ATABORT (R221). -/
def execAtabort (m : Bool) (c : BitVec 7) (s : State) : Out :=
  .next (runRegs (.atabort m c) s (fun _ => .abort 0x14 c.toNat))

/-- ATSTAT (R222). -/
def execAtstat (m : Bool) (d : RegNo) (s : State) : Out :=
  .next (runRegs (.atstat m d) s (fun l =>
    .defer [(d.toNat, (((threadAt s ((groupOf s).tk l)).region).map regionState).getD 0)]))

end Sys2Proof.Machine
end

