-- ==== Sys2Proof/Machine/Sched.lean ====
section
/-! DEFINITION. The events of a core: which instruction issues (R125), deferred results (R136), the end of a park (R124), faults
resolved (R93), signals (R145), sweeps (R156), ticks (R116, R117) and casting bins (R110, R111). An event that is not enabled leaves
the state unchanged. -/

namespace Sys2Proof.Machine

/-! ## Time and the running module -/

/-- The clocks run and the module is not held in reset (R15, R17, R18). -/
def running (s : State) : Bool := !s.frozen && s.hold.isNone

/-- Time passes: `n` periods of the timebase and `m` cycles of the main clock (R13, R140). -/
def passTime (s : State) (n m : Nat) : State :=
  let f (k : Nat) : Nat × CoreState :=
    let c := tget CoreState.blank s.cores k
    (k, { c with cycle := c.cycle + m })
  { s with timebase := s.timebase + n, cores := (List.range 512).map f }

/-- The items of a list whose bit in `n` is clear. -/
def keepBits {α : Type} (n : Nat) (t : List α) : List α :=
  ((List.range t.length).zip t).filterMap (fun x => if n / 2 ^ x.1 % 2 = 1 then none else some x.2)

/-- The items of a list whose bit in `n` is set. -/
def pickBits {α : Type} (n : Nat) (t : List α) : List α :=
  ((List.range t.length).zip t).filterMap (fun x => if n / 2 ^ x.1 % 2 = 1 then some x.2 else none)

/-- A page of a core's TLB whose lines it may read ahead of its loads: read permitted, in memory that it caches, with the link that it needs
(R172; log 59, DEDUCED). -/
def mayReadAhead (s : State) (t : TlbEntry) : Bool :=
  let e := t.leaf.toNat
  !deniedBy e .read false && !linkDenied s (placeOf e (tlbLevel t) (t.page * 4096))

/-- A core reads a line ahead of the load that will return its bytes: `n` names the page among those of its TLB and the line in it (R172;
log 59, DEDUCED). -/
def readAhead (s : State) (core n : Nat) : State :=
  let ts := (tget [] s.coreTlb core).filter (mayReadAhead s)
  match ts[n % (ts.length + 1)]? with
  | none => s
  | some t =>
    let pl := placeOf t.leaf.toNat (tlbLevel t) (t.page * 4096 + n / (ts.length + 1) % (32 * t.pages) * 128)
    if spoiledAt s pl.host pl.pa 128 then s
    else
      let q := loadNow s core pl none 128
      { q.1 with early := tput q.1.early (lineKey core pl.host (pl.pa / 128)) q.2 }

/-- A load that has issued is performed again, now, where its result is still pending and can take the bytes (R167, R172; log 59, DEDUCED). A result in a k
register, which is one for all lanes, keeps the value that it has. -/
def performLate (s : State) (e : LateLoad) : State :=
  let open_ := (threadAt s e.tk).pend.any (fun d => d.seq == e.seq && d.waits.isNone && !uniformDest d)
  if !s.lateLoads.contains e then s
  else if !open_ || e.pls.any (fun x => linkDenied s x.1 || wouldSpoil s e.core x.1 e.ro x.2) then { s with lateLoads := s.lateLoads.erase e }
  else
    let q := loadPlaces s e.core e.ro e.pls
    let vs := ((widen e.w e.d q.2).filter (fun x => x.1 != 0)).map (·.2)
    updThread { q.1 with lateLoads := s.lateLoads.erase e } e.tk (fun t =>
      { t with pend := t.pend.map (fun d =>
          if d.seq == e.seq && d.waits.isNone && !uniformDest d then { d with ws := (d.ws.zip vs).map (fun x => (x.1.1, x.2)) } else d) })

/-- Loads and stores that have issued are performed, as free choices say: the stores of one line in the order they issued (R167, R172; log 59, DEDUCED). -/
def performSome (s : State) (n m : Nat) : State :=
  let s := (pickBits n s.lateLoads).foldl performLate s
  (pickBits m s.lateStores).foldl (fun s e => settleStores s (ofLine (lineKey e.core e.pl.host (e.pl.pa / 128)))) s

/-- The oldest writes on their way to their homes arrive, as many as `n` says (R153). -/
def arrivals (s : State) (n : Nat) : State := (s.passing.take (n % (s.passing.length + 1))).foldl landPassing s

/-- What caches do at any time, as a free choice makes it: L1 lines sent back and dropped, lines of the remote-data caches, the instruction caches
and the TLBs dropped, write-backs arriving at their homes, accesses that have issued performed, a line read ahead (R148, R153, R127, R96, R172; log 6, DESIGN CHOICE; log 59, DEDUCED). -/
def evictFree (s : State) : State :=
  let a := draw s
  let b := draw a.2
  let c := draw b.2
  let d := draw c.2
  let e := draw d.2
  let h := draw e.2
  let i := draw h.2
  let j := draw i.2
  let s := performSome j.2 i.1 j.1
  let s := (pickBits a.1 s.l1).foldl (fun s x => evictLine s x.1) s
  let s := { s with rdc := keepBits b.1 s.rdc, icache := keepBits c.1 s.icache, coreTlb := s.coreTlb.map (fun x => (x.1, keepBits d.1 x.2)),
                    dieTlb := s.dieTlb.map (fun x => (x.1, keepBits d.1 x.2)) }
  readAhead (arrivals s e.1) (h.1 % 512) (h.1 / 512)

/-! ## Which instruction issues (R125) -/

/-- A thread is ready (R124). -/
def ready (t : Thread) : Bool := t.park.isNone && !t.markWait

/-- A held SIGNAL can be taken now (R145, R219). -/
def deliverable (t : Thread) : Bool :=
  t.held.isSome && !t.inHandler && t.region.isNone && !t.markWait &&
    (match t.park with
     | some (.trapEntry ..) => false
     | some .reconciler => false
     | _ => true)

/-- A snapshot of the context quiesces it or holds it (R77). -/
def snapHolds (s : State) (ctx : Nat) : Bool :=
  s.book.any (fun e => decide (2 ≤ e.2.phase) && decide (e.2.phase ≤ 3) && recKind (e.2.built.getD []) == 6 && recParent (e.2.built.getD []) == ctx)

/-- A class's troupes may issue: it runs, and neither pre-emption nor a quiesce has been asked for (R77, R119). -/
def issuing (s : State) (ck : Nat) : Bool := active s ck && !(clsAt s ck).stopping && !snapHolds s (clsAt s ck).ctx

/-- A class may issue on a core. -/
def onCore (s : State) (core ck : Nat) : Bool := issuing s ck && coreOf s ck == core

/-- Lanes of a troupe that could issue. -/
def readyLanes (s : State) (pk : Nat) : List Nat :=
  (List.range 32).filter (fun l =>
    match tfind s.threads (pk * 32 + l) with
    | some t => ready t && !deliverable t
    | none => false)

/-- A thread has been ready for 256 cycles without issuing (R125). -/
def isStarved (s : State) (tk : Nat) : Bool :=
  match tfind s.threads tk with
  | some t => ready t && active s (ckOfT tk) && decide (t.readySince + 256 ≤ coreCycle s (coreOf s (ckOfT tk)))
  | none => false

/-- Ready and starved lanes of a troupe. -/
def starvedLanes (s : State) (pk : Nat) : List Nat :=
  (readyLanes s pk).filter (fun l => (threadAt s (pk * 32 + l)).starved || isStarved s (pk * 32 + l))

/-- Troupes of a section that could issue, by key. -/
def sectionTroupes (s : State) (core sec : Nat) : List Nat :=
  (s.troupes.map (·.1)).filter (fun k => onCore s core (k / 64) && k % 4 == sec && !(readyLanes s k).isEmpty)

/-- The element with the least value of `f`; the first of several. -/
def minBy (f : Nat → Nat) : List Nat → Option Nat
  | [] => none
  | k :: r =>
    match minBy f r with
    | none => some k
    | some j => if f k ≤ f j then some k else some j

/-- Age: the placement sequence of the class, then its own troupes by number, then spawned troupes as they launched (R125). -/
def ageOf (s : State) (pk : Nat) : Nat :=
  let t := tget Troupe.blank s.troupes pk
  (clsAt s (pk / 64)).seq * 2 ^ 128 + t.spawned.toNat * 2 ^ 127 + t.order

/-- The troupe that a section chooses (R125). -/
def chooseTroupe (s : State) (core sec : Nat) : Option Nat :=
  let ks := sectionTroupes s core sec
  let c := tget CoreState.blank s.cores core
  let last := (tfind c.lastTroupe sec).bind (fun k => if ks.contains k ∧ tget 0 c.lastCycle sec + 1 = c.cycle then some k else none)
  ((minBy (fun k => k % 64 / 4) (ks.filter (fun k => !(starvedLanes s k).isEmpty))).or last).or (minBy (ageOf s) ks)

/-- The group of a troupe: the program counter of its lowest starved lane, else of its lowest ready lane, and the ready lanes at it
(R125). -/
def groupFor (s : State) (pk : Nat) : Option Group :=
  ((starvedLanes s pk).head?.or (readyLanes s pk).head?).map (fun l =>
    let pc := (threadAt s (pk * 32 + l)).pc
    ⟨pk / 64, pk % 64, maskOf ((readyLanes s pk).filter (fun k => (threadAt s (pk * 32 + k)).pc == pc)), pc⟩)

/-- The instruction that a section issues next. -/
def chooseGroup (s : State) (core sec : Nat) : Option Group := (chooseTroupe s core sec).bind (groupFor s)

/-- A section may issue now: at most one instruction in a cycle, and the sections of a core in ascending order (R125, R133, R198). -/
def slotFree (s : State) (core sec : Nat) : Bool :=
  let c := tget CoreState.blank s.cores core
  running s && s.issue.isNone && decide (core < 512) && decide (sec < 4)
    && (List.range 4).all (fun k => decide (k < sec) || tfind c.lastCycle k != some c.cycle)

/-- ISSUE_SELECT: a section chooses the instruction that issues in this cycle (R125). -/
def execIssueSelect (core : Nat) (section_ : Nat) (s : State) : Out :=
  if !slotFree s core section_ then .next s
  else
    match chooseGroup s core section_ with
    | none => .next s
    | some g =>
      let c := tget CoreState.blank s.cores core
      let c' := { c with lastTroupe := tput c.lastTroupe section_ (pkey g.ck g.p), lastCycle := tput c.lastCycle section_ c.cycle }
      let s := (lanesOf g.mask).foldl (fun s l => updThread s (g.tk l) (fun t => { t with starved := false, readySince := c.cycle + 1 })) s
      .next { s with cores := tput s.cores core c', issue := some g }

/-- THREAD_STARVED (R125). -/
def execThreadStarved (tk : Nat) (s : State) : Out :=
  .next (if running s && isStarved s tk then updThread s tk (fun t => { t with starved := true }) else s)

/-! ## Deferred results (R136) -/

/-- A pending result of the instruction with issue number `q` that no ticket supplies. -/
def resultOf (q : Nat) (d : Deferred) : Bool := d.seq == q && d.waits.isNone

/-- A thread's pending result of the instruction with issue number `q` is written. -/
def writeResult (s : State) (q tk : Nat) : State :=
  match tfind s.threads tk with
  | none => s
  | some t =>
    let ds := t.pend.filter (resultOf q)
    if ds.isEmpty then s
    else updThread (ds.foldl (fun s d => writeDests s tk q d.ws) s) tk (fun t => { t with pend := t.pend.filter (fun d => !resultOf q d) })

/-- The state with pending result n of a thread written. The results of one instruction are written for all its lanes at once, in
ascending order (R132, R133; log 55, DEDUCED). -/
def writeDeferred (s : State) (tk n : Nat) : State :=
  match (threadAt s tk).pend[n]? with
  | none => s
  | some d => if d.waits.isSome then s else (List.range 32).foldl (fun s l => writeResult s d.seq (tkey (ckOfT tk) (posOfT tk) l)) s

/-- DEFERRED_RESULT_WRITE: results may be written in any order (R136, R138). -/
def execDeferredResultWrite (tk : Nat) (n : Nat) (s : State) : Out := .next (if running s then writeDeferred s tk n else s)

/-! ## The end of a park (R124) -/

/-- A thread is ready again from this cycle; `f` says how it leaves its park. -/
def becomesReady (s : State) (tk : Nat) (f : Thread → Thread) : State :=
  updThread s tk (fun t => { f t with readySince := coreCycle s (coreOf s (ckOfT tk)) })

/-- No lane below a thread that waits behind them still waits in the same instruction, those of `woken` set aside (log 29, DEDUCED). -/
def behindOver (s : State) (tk : Nat) (t : Thread) (woken : List Nat) : Bool :=
  t.park == some .behind && (List.range (laneOfT tk)).all (fun l =>
    woken.contains l ||
      (match tfind s.threads (tkey (ckOfT tk) (posOfT tk) l) with
       | some u => !(u.pc == t.pc && (u.park.isSome || u.markWait) && decide (t.parkSeq ≤ u.parkSeq))
       | none => true))

/-- What a thread was woken from, as its place in a queue of waiters has it: a wait for a sweep in between changes nothing of that (R320). -/
def wokenFrom (t : Thread) : Option Park := if t.park = some .sweep then t.was.or t.park else t.park

/-- Lanes parked at one instruction whose park ends now are ready together, with those held behind them, and issue it again (R97, R124, R125). -/
def reissue (s : State) (tk : Nat) (ok : Nat → Thread → Bool) : State :=
  let ck := ckOfT tk
  let p := posOfT tk
  let pc := (threadAt s tk).pc
  let ls := (List.range 32).foldl (fun ls l =>
    match tfind s.threads (tkey ck p l) with
    | some u =>
      if u.pc == pc && u.park.isSome && !u.markWait && !deliverable u && (ok (tkey ck p l) u || behindOver s (tkey ck p l) u ls) then ls ++ [l] else ls
    | none => ls) []
  ls.foldl (fun s l => becomesReady s (tkey ck p l) (fun t => { t with park := none, was := wokenFrom t })) s

/-- A lower lane of the same execution of an instruction still waits at its marker: the lanes above it are served after it (R137, R279, R320). -/
def lowerMarked (s : State) (tk : Nat) (t : Thread) : Bool :=
  (List.range (laneOfT tk)).any (fun l =>
    match tfind s.threads (tkey (ckOfT tk) (posOfT tk) l) with
    | some u => u.markWait && u.parkSeq != 0 && u.parkSeq == t.parkSeq
    | none => false)

/-- What a walk of a context's tables would return now. -/
def peekWalk (s : State) (ctx va : Nat) (k : Kind) : Walk :=
  if va / 2 ^ 48 ≠ 0 then .bad
  else
    match rootOf s ctx with
    | none => .miss
    | some root => walkAt s.dmem va k false 4 root

/-- A walk that leaves its access parked (R93). -/
def walkParks : Walk → Bool
  | .miss => true
  | .migrating => true
  | _ => false

/-- The park of a thread ends now (R124): the condition of each entry. -/
def parkEnds (s : State) (tk : Nat) (t : Thread) : Bool :=
  let ck := ckOfT tk
  let core := coreOf s ck
  match t.park with
  | none => false
  | some (.trapEntry ..) => false
  | some .results => t.pend.isEmpty
  | some (.fence acq) => !fenceOwed acq t
  | some (.translation va k) => !walkParks (peekWalk s (clsAt s ck).ctx va.toNat k)
  | some (.absent owner ln) => absentAt s owner ln == 0
  | some (.jwait _) => false
  | some (.monitor _) => false
  | some (.timeline n v) => decide (v.toNat ≤ visibleOf (timelineAt s ck n))
  | some .tick => false
  | some (.arrival owner o g) => (barAt s owner o).gen != g
  | some (.barWait ..) => false
  | some (.notePush n) =>
    decide (noteCount s ck n < (noteDecl s ck n).cap) && !earlierWaiter s ck n t.parkSeq true && !lowerMarked s tk t
  | some (.notePop n) =>
    noteCount s ck n != 0 && !earlierWaiter s ck n t.parkSeq false && !sweepOwed s core (noteScope (noteDecl s ck n)) && !lowerMarked s tk t
  | some (.queue q) =>
    (match tfind s.cbs q with
     | some cb => cb.armed && !cb.held
     | none => false)
  | some .spawn => !lowerMarked s tk t
  | some (.wincnt w sel v) =>
    (match openWindow s (clsAt s ck).ctx w with
     | none => true
     | some x => (match counterOf x sel with | none => true | some c => decide (v.toNat ≤ c)))
  | some .loops => decide ((matrixAt s core).loops.length < 4)
  | some .engine => decide (queueLen s core < 64) && !lowerMarked s tk t
  | some (.fifoFull f) => decide (retainedFor s ck f < 4) && !lowerMarked s tk t
  | some .regions => decide (regionsOpen s core < 64)
  | some .sweep => !sweepOwed s core 4
  | some .behind => behindOver s tk t []
  | some .reconciler => false

/-- The phase that a thread waits for at a barrier has completed (R314). -/
def barOver (s : State) (u : Thread) : Bool :=
  match u.park with
  | some (.barWait owner o j _) => phaseDone (barAt s owner o) j
  | _ => false

/-- The wait part of a barrier instruction ends: one acquire, and the lanes at it whose phases have completed, of one object or of several, go on together
(R314). -/
def endBarWait (s : State) (tk owner o j scope : Nat) : State :=
  let ck := ckOfT tk
  let p := posOfT tk
  let core := coreOf s ck
  if sweepOwed s core scope ∨ !phaseDone (barAt s owner o) j then s
  else
    let t := threadAt s tk
    let ls := (List.range 32).filter (fun l =>
      match tfind s.threads (tkey ck p l) with
      | some u => u.pc == t.pc && barOver s u
      | none => false)
    ls.foldl (fun s l => becomesReady s (tkey ck p l) (fun t => { t with park := none, parkSeq := 0, pc := t.pc + 4 }))
      (acquireOnce s core scope)

/-- A thread may change its park now: the module runs, no instruction is at issue, and its class may issue. -/
def mayWake (s : State) (tk : Nat) : Bool := running s && s.issue.isNone && issuing s (ckOfT tk)

/-- Lanes of a thread's troupe at its program counter of which `ok` holds. -/
def besideLanes (s : State) (tk : Nat) (ok : Thread → Bool) : List Nat :=
  ((List.range 32).map (tkey (ckOfT tk) (posOfT tk))).filter (fun k =>
    match tfind s.threads k with
    | some u => u.pc == (threadAt s tk).pc && ok u
    | none => false)

/-- The marker's wait has ended (R137). -/
def markerOver (u : Thread) : Bool := u.markWait && u.pend.isEmpty

/-- The marker's wait ends in the lanes that wait beside each other with nothing outstanding any more, together (log 55, DEDUCED). -/
def endMarkers (s : State) (tk : Nat) : State :=
  (besideLanes s tk markerOver).foldl (fun s k => becomesReady s k (fun t => { t with markWait := false, out := 0 })) s

/-- A trap's wait for results has ended (R142). -/
def trapDue (u : Thread) : Bool :=
  match u.park with
  | some (.trapEntry ..) => u.pend.isEmpty
  | _ => false

/-- A lane's trap is entered. -/
def endTrapWait (s : State) (tk : Nat) : State :=
  match (threadAt s tk).park with
  | some (.trapEntry c v epc r) => becomesReady (enterTrap s tk c v epc r) tk id
  | _ => s

/-- LANE_WAKE: a park ends, or the marker's wait does (R124, R137); a lane parked at an instruction is ready to execute it again. -/
def execLaneWake (tk : Nat) (s : State) : Out :=
  match tfind s.threads tk with
  | none => .next s
  | some t =>
    if !mayWake s tk then .next s
    else if markerOver t then .next (endMarkers s tk)
    else
      match t.park with
      | some (.trapEntry ..) => .next ((besideLanes s tk trapDue).foldl endTrapWait s)
      | some (.barWait owner o j scope) => .next (endBarWait s tk owner o j scope)
      | _ => .next (if parkEnds s tk t then reissue s tk (fun k u => parkEnds s k u) else s)

/-- MONITOR_FIRE: the line watched may have changed; the lanes test again (R316). -/
def execMonitorFire (tk : Nat) (s : State) : Out :=
  let isMon (t : Thread) : Bool :=
    match t.park with
    | some (.monitor _) => true
    | _ => false
  .next (if mayWake s tk && isMon (threadAt s tk) then reissue s tk (fun _ u => isMon u) else s)

/-! ## Translation faults (R91, R93) -/

/-- The address lies in a MAPPING of the context that is PENDING, BLOCKED or CONVERGING: its entry will be written (R93). -/
def willBeMapped (s : State) (ctx va : Nat) : Bool :=
  s.book.any (fun e =>
    let w := e.2.want.getD []
    recKind w == 2 && recIntent w != 0 && recParent w == ctx && decide (mpVa w ≤ va) && decide (va < mpVa w + mpLen w)
      && [MarkState.pending, .blocked, .converging].contains e.2.stand.state)

/-- A parked translation is resolvable: it ends when the reconciler writes the entry (R93). -/
def resolvable (s : State) (ctx va : Nat) : Walk → Bool
  | .miss => willBeMapped s ctx va
  | .migrating => true
  | _ => false

/-- TRANSLATION_FAULT_RESOLVE: the stage managers decide a parked miss; one that no MAPPING will resolve traps ACCESS (R93). -/
def execTranslationFaultResolve (tk : Nat) (s : State) : Out :=
  match (threadAt s tk).park with
  | some (.translation va k) =>
    let ctx := (clsAt s (ckOfT tk)).ctx
    let w := peekWalk s ctx va.toNat k
    if !mayWake s tk || (threadAt s tk).markWait then .next s
    else if !walkParks w then .next (reissue s tk (fun x u => parkEnds s x u))
    else if resolvable s ctx va.toNat w then .next s
    else
      let pc := (threadAt s tk).pc
      let s := updThread s tk (fun t => { t with park := none, parkSeq := 0 })
      .next (becomesReady (if k = .exec then fetchFault s tk .access pc else trapAt s tk .access va pc false) tk id)
  | _ => .next s

/-- The kind of a code: 0 READ, 1 WRITE, 2 EXEC. -/
def kindOf (n : Nat) : Kind := if n = 0 then .read else if n = 1 then .write else .exec

/-- An access of this kind to this address waits in a die: a thread's, or an engine request's (R93, R97). -/
def walkWanted (s : State) (die ctx va : Nat) (k : Kind) : Bool :=
  s.threads.any (fun e =>
    (clsAt s (ckOfT e.1)).ctx == ctx && (clsAt s (ckOfT e.1)).die == die && e.2.park == some (.translation (BitVec.ofNat 64 va) k))
  || s.reqs.any (fun e => e.2.core / 64 == die && (clsAt s e.2.ck).ctx == ctx && e.2.waits == some (BitVec.ofNat 64 va, k))

/-- PAGE_WALK: the die's walker walks for an access that waits (R91, R92, R94). -/
def execPageWalk (die : Nat) (ctx : Nat) (va : Nat) (kind : Nat) (s : State) : Out :=
  .next (if running s && decide (va / 2 ^ 48 = 0) && walkWanted s die ctx va (kindOf kind) then (walkFill s die ctx va (kindOf kind) false).1
         else s)

/-! ## Sweeps and signals -/

/-- PHASE_SWEEP: units 0 to 511 are the cores' L1s, 512 to 519 the remote-data caches (R156). -/
def execPhaseSweep (unit : Nat) (s : State) : Out :=
  .next (if !running s then s
         else if unit < 512 then (if (corePhaseAt s unit).owed then sweepCore s unit else s)
         else if (rdcPhaseAt s (unit - 512)).owed then sweepRdc s (unit - 512) else s)

/-- SIGNAL_DELIVERY: the target takes SIGNAL at an instruction boundary; a parked one at its parked instruction (R145). A lane that
leaves a JWAIT has not arrived (log 25, DEDUCED). -/
def execSignalDelivery (tk : Nat) (s : State) : Out :=
  match tfind s.threads tk with
  | none => .next s
  | some t =>
    if !mayWake s tk || !deliverable t then .next s
    else
      let v := (t.held.getD 0).setWidth 64
      let s := match t.park with
        | some (.jwait _) => unarrive s (ckOfT tk) (posOfT tk) (maskOf [laneOfT tk])
        | _ => s
      let s := updThread s tk (fun t => { t with held := none, park := none, parkSeq := 0 })
      .next (becomesReady (trapAt s tk .signal v t.pc false) tk id)

/-! ## Ticks (R116, R117) -/

/-- A context's tick boundary is due. -/
def tickDue (s : State) (ctx : Nat) : Bool :=
  match tfind s.ctxs ctx with
  | some c => c.tickOn && decide (c.nextAt ≤ s.timebase)
  | none => false

/-- The tail word of a queue at its home; none where it does not translate (R116, R372). -/
def tailAt (s : State) (x : Nat × ControlBlock) : State × Option Nat :=
  match walkFill s (x.1 % 8) x.2.ctx x.2.tailVa .read false with
  | (s, .leaf e lv _) =>
    let pl := placeOf e lv x.2.tailVa
    if linkDenied s pl then (s, none)
    else
      let q := homeRead s pl 8
      (q.1, some (wordOfBytes q.2))
  | (s, _) => (s, none)

/-- The tail word of one armed tick-aligned queue sampled; one that does not translate is left (R116, R372). -/
def sampleQueue (s : State) (x : Nat × ControlBlock) : State :=
  match tailAt s x with
  | (s, some v) => { s with cbs := tupd s.cbs x.1 (fun cb => { cb with tickTail := v }) }
  | (s, none) => s

/-- A thread that waits in TICKWAIT goes on past it. -/
def endTickWait (t : Thread) : Thread := if t.park = some .tick then { t with park := none, parkSeq := 0, pc := t.pc + 4 } else t

/-- TICK_BOUNDARY (R116, R117): the count rises, the next period is the newest TICK, tails are sampled, TICKWAITs end, and a snapshot
that awaits the boundary quiesces from here (R77). -/
def execTickBoundary (ctx : Nat) (s : State) : Out :=
  if !running s || !tickDue s ctx then .next s
  else
    let s := { s with ctxs := tupd s.ctxs ctx (fun c =>
      { c with ticks := c.ticks + 1, period := c.nextPeriod, nextAt := c.nextAt + c.nextPeriod * 100 }) }
    let s := (s.cbs.filter (fun x => x.2.ctx == ctx && x.2.armed && x.2.qflags % 2 == 1)).foldl sampleQueue s
    let tks := (s.threads.filter (fun e => (clsAt s (ckOfT e.1)).ctx == ctx && e.2.park == some .tick)).map (·.1)
    let s := tks.foldl (fun s tk => becomesReady s tk endTickWait) s
    .next { s with book := s.book.map (fun e =>
      if recKind (e.2.built.getD []) = 6 ∧ recParent (e.2.built.getD []) = ctx ∧ e.2.phase = 1 then (e.1, { e.2 with phase := 2 }) else e) }

/-! ## Casting bins (R110, R111) -/

/-- A bin's timer has run out. -/
def binDue (s : State) (bin : Nat) : Bool :=
  match tfind s.bins bin with
  | some b => !b.expired && active s b.ck && decide (b.until_ ≤ coreCycle s (coreOf s b.ck))
  | none => false

/-- The initial value of cw.bintimer (R100). -/
def initialTimer (l : Launch) : Word := if l.binTimer = 0 then 2048 else BitVec.ofNat 32 l.binTimer

/-- A thread at its start (R104). -/
def startThread (l : Launch) (pc : DWord) (coords : Table Word) (now : Nat) : Thread :=
  { Thread.blank with pc := pc, binTimer := initialTimer l, coords := coords, readySince := now }

/-- Registers of a lane at zero (R104). -/
def clearLane (s : State) (ck p l : Nat) : State := restoreRegs s (tkey ck p l) []

/-- Device memory from `a` at zero, without cached copies (R104, R111, R150). -/
def zeroRange (s : State) (a n : Nat) : State :=
  let inside (x : Nat) : Bool := decide (a ≤ x) && decide (x < a + n)
  { s with dmem := s.dmem.filter (fun e => !inside e.1),
           l1 := s.l1.filter (fun e => hostOfLine e.1 || !inside (lineOfKey e.1 * 128)),
           rdc := s.rdc.filter (fun e => !inside (e.1 % 2 ^ 60 * 128)), passing := s.passing.filter (fun w => !inside (w.line * 128)),
           lateStores := s.lateStores.filter (fun e => e.pl.host || !inside e.pl.pa),
           early := s.early.filter (fun e => hostOfLine e.1 || !inside (lineOfKey e.1 * 128)), badDev := s.badDev.filter (fun x => !inside x) }

/-- The segment of a position at zero in every lane. -/
def clearSegment (s : State) (ck p : Nat) : State := zeroRange s (tget 0 (clsAt s ck).segBase p) (32 * (launchOf s ck).ownBytes)

/-- The lowest free reserved seat of a class in a section. -/
def freeSeat (s : State) (ck sec : Nat) : Option Nat :=
  minBy id ((clsAt s ck).spawnPos.filter (fun p => p % 4 == sec && (tfind s.troupes (pkey ck p)).isNone))

/-- The coordinates of a spawned thread (R111): the spawner's of class domain and wider, the lane, and no troupe number. -/
def spawnCoords (l : Launch) (c : Table Word) (k : Nat) : Table Word :=
  (List.range l.levels.length).foldl (fun t n =>
    match (l.levels.getD n ⟨0, 0, 0⟩).domain with
    | 0 => tset 0 t n (BitVec.ofNat 32 k)
    | 1 => tset 0 t n 0xFFFFFFFF
    | _ => tset 0 t n (tget 0 c n)) []

/-- One spawned thread started at lane k (R111). -/
def startSpawned (s : State) (ck p : Nat) (entry : DWord) (k : Nat) (sl : Slot) : State :=
  let s := clearLane s ck p k
  let s := setThread s (tkey ck p k) (startThread (launchOf s ck) entry (spawnCoords (launchOf s ck) sl.coords k) (coreCycle s (coreOf s ck)))
  (List.range sl.args.length).foldl (fun s n => writeDest s (tkey ck p k) s.issueSeq (.alloc (n + 1)) (sl.args.getD n 0)) s

/-- A bin can launch: it is full or its timer has expired, and its class runs (R111, R119). -/
def binReady (s : State) (bin : Nat) : Bool :=
  match tfind s.bins bin with
  | some b => (decide (32 ≤ b.slots.length) || b.expired) && issuing s b.ck && (freeSeat s b.ck (bin % 4)).isSome
  | none => false

/-- A bin's threads start in the lowest free reserved seat of the serving section, whose segment is zeroed, with an acquire at core scope (R111,
R112). -/
def launchBin (s : State) (bin : Nat) : State :=
  if !binReady s bin then s
  else
    match tfind s.bins bin with
    | none => s
    | some b =>
      match freeSeat s b.ck (bin % 4) with
      | none => s
      | some p =>
        let orders := (s.troupes.filter (fun e => e.1 / 64 == b.ck)).map (fun e => e.2.order + 1)
        let tr : Troupe := { Troupe.blank with lmask := maskOf (List.range b.slots.length), coord := 0xFFFFFFFF, spawned := true,
                                               order := orders.foldl max 0 }
        let s := clearSegment { s with troupes := tput s.troupes (pkey b.ck p) tr, bins := tdel s.bins bin,
                                       ended := s.ended.filter (fun e => e.1 / 32 != pkey b.ck p) } b.ck p
        let s := acquireAt s (coreOf s b.ck) 2
        ((List.range b.slots.length).zip b.slots).foldl (fun s x => startSpawned s b.ck p b.entry x.1 x.2) s

/-- BIN_TIMER_EXPIRE: the bin launches, at once if a seat is free (R111). -/
def execBinTimerExpire (bin : Nat) (s : State) : Out :=
  .next (if running s && binDue s bin then launchBin { s with bins := tupd s.bins bin (fun b => { b with expired := true }) } bin else s)

/-- BIN_LAUNCH: a bin that is full or has expired launches once a seat is free (R111). -/
def execBinLaunch (bin : Nat) (s : State) : Out := .next (if running s then launchBin s bin else s)

end Sys2Proof.Machine
end

