-- ==== Sys2Proof/Machine/Movers.lean ====
section
/-! DEFINITION. What the engines do after issue: copy requests move their bytes and complete (R340, R341), matrix loops step (R195 to
R201), ticketed instructions act (R198), and fabric operations are sent, arrive and settle (R34, R344, R345). -/

namespace Sys2Proof.Machine

/-! ## An engine's access to memory (R175, R341) -/

/-- A program is to be killed; the first reason stands (R144). -/
def condemn (s : State) (rid reason : Nat) : State :=
  updResident s rid (fun r => { r with killPending := some (r.killPending.getD (BitVec.ofNat 16 reason)) })

/-- A translation for an engine: its die's TLB, then the walker (R96, R341). -/
def engineWalk (s : State) (die ctx va : Nat) (k : Kind) : State × Walk :=
  if va / 2 ^ 48 ≠ 0 then (s, .bad)
  else
    match (tget [] s.dieTlb die).find? (tlbServes ctx va k false) with
    | some t => (s, .leaf t.leaf.toNat (tlbLevel t) t.entryAddr)
    | none => walkFill s die ctx va k false

/-- What an engine's access meets (R341). -/
inductive Met where
  | place (pl : Place)
  | scratch (o : Nat)
  /-- The reconciler will resolve it. -/
  | wait
  | fail
  deriving DecidableEq, Repr

/-- The place of `n` bytes of one line for an engine. A register-aperture offset, or one past the allocation, which a pointer table can
name, fails as an access that is not permitted does (log 32, DEDUCED); so does HOST memory while a link is down (R24). -/
def engineMeets (s : State) (die ck va n : Nat) (k : Kind) : State × Met :=
  if inAperture va then
    (s, if min (scratchSize s ck) 0x80000000 < va - apertureBase + n then .fail else .scratch (va - apertureBase))
  else
    match engineWalk s die (clsAt s ck).ctx va k with
    | (s, .leaf e lv _) => (s, if linkDenied s (placeOf e lv va) then .fail else .place (placeOf e lv va))
    | (s, .miss) => (s, if willBeMapped s (clsAt s ck).ctx va then .wait else .fail)
    | (s, .migrating) => (s, .wait)
    | (s, _) => (s, .fail)

/-- `n` bytes of one line read where an engine's access met them; none where some are spoiled (R165). -/
def engineRead (s : State) (ck n : Nat) : Met → State × Option (List Byte)
  | .place pl =>
    let q := homeRead s pl n
    (q.1, if spoiledAt q.1 pl.host pl.pa n then none else some q.2)
  | .scratch o => (s, if badScratchAt s ck o n then none else some (readScratch s ck o n))
  | _ => (s, some [])

/-- Bytes of one line written where an engine's access met them; copies leave the issuing core and its die (R175). -/
def engineWrite (s : State) (core ck : Nat) (bs : List Byte) : Met → State
  | .place pl => dropCopies (homeWrite s pl bs) core pl bs.length
  | .scratch o => writeScratch s ck o bs
  | _ => s

/-! ## Copy requests (R340, R341) -/

/-- Bytes that a request moves in all. -/
def totalOf (r : Request) : Nat := rowCount r.blk r.lrFirst r.lrLast * r.blk.size0

/-- The core whose FIFOs and caches a request uses. -/
def coreOfReq (s : State) (r : Request) : Nat := if r.blk.dest = 2 then coreOf s r.ck else r.core

/-- What moving the next piece of a request met. -/
inductive Piece where
  | moved (n : Nat)
  | wait (va : Nat) (k : Kind)
  | fail (va : Nat) (k : Kind)
  /-- An uncorrectable error on the data read (R341). -/
  | spoiled
  /-- No room in the FIFO (R193). -/
  | held
  deriving DecidableEq, Repr

/-- Bytes appended to a FIFO (R193). -/
def appendFifo (s : State) (core f : Nat) (bs : List Byte) : State :=
  let m := matrixAt s core
  let x := fifoAt m f
  setMatrix s core { m with fifos := tset Fifo.blank m.fifos f ⟨x.bytes ++ bs, x.pos⟩ }

/-- Room in a FIFO of 64 KiB (R193). -/
def fifoRoom (s : State) (core f : Nat) : Nat := 65536 - (fifoAt (matrixAt s core) f).bytes.length

/-- The source address of byte `x` of a request, and its destination. -/
def srcOf (r : Request) (x : Nat) : Nat := wrap64 ((rowSrc r.blk r.lrFirst r.bases (x / r.blk.size0) : Int) + (x % r.blk.size0 : Nat))
def dstOf (r : Request) (x : Nat) : Nat := wrap64 ((rowDst r.blk (x / r.blk.size0) : Int) + (x % r.blk.size0 : Nat))

/-- Where `n` bytes of a request's destination lie in memory or scratch. -/
def destMeets (s : State) (r : Request) (dst n : Nat) : State × Met :=
  if r.blk.dest = 1 then (s, .scratch dst) else engineMeets s (coreOfReq s r / 64) r.ck dst n .write

/-- `n` bytes of one source line written to one destination line. -/
def moveRun (s : State) (r : Request) (x n : Nat) : State × Piece :=
  let core := coreOfReq s r
  match engineMeets s (core / 64) r.ck (srcOf r x) n .read with
  | (s, .wait) => (s, .wait (srcOf r x) .read)
  | (s, .fail) => (s, .fail (srcOf r x) .read)
  | (s, m) =>
    match destMeets s r (dstOf r x) n with
    | (s, .wait) => (s, .wait (dstOf r x) .write)
    | (s, .fail) => (s, .fail (dstOf r x) .write)
    | (s, d) =>
      match engineRead s r.ck n m with
      | (s, none) => (s, .spoiled)
      | (s, some bs) => (engineWrite s core r.ck bs d, .moved n)

/-- Bytes of one destination word read one by one, with their places in memory, or what stops them. -/
def wordPieces (s : State) (r : Request) (x : Nat) : Nat → State × (Piece ⊕ List (Met × List Byte))
  | 0 => (s, .inr [])
  | n + 1 =>
    match engineMeets s (coreOfReq s r / 64) r.ck (srcOf r x) 1 .read with
    | (s, .wait) => (s, .inl (.wait (srcOf r x) .read))
    | (s, .fail) => (s, .inl (.fail (srcOf r x) .read))
    | (s, m) =>
      match destMeets s r (dstOf r x) 1 with
      | (s, .wait) => (s, .inl (.wait (dstOf r x) .write))
      | (s, .fail) => (s, .inl (.fail (dstOf r x) .write))
      | (s, d) =>
        match engineRead s r.ck 1 m with
        | (s, none) => (s, .inl .spoiled)
        | (s, some bs) =>
          match wordPieces s r (x + 1) n with
          | (s, .inr ps) => (s, .inr ((d, bs) :: ps))
          | q => q

/-- Bytes from `x` on that a request writes one after the other within one aligned word of eight. -/
def runLen (r : Request) (x : Nat) : Nat :=
  (((List.range 7).map (· + 1)).find? (fun k =>
    decide (totalOf r ≤ x + k) || dstOf r (x + k) != dstOf r x + k || dstOf r (x + k) % 8 == 0)).getD 8

/-- The next bytes of a request to memory or scratch, in the order of R340: within one source line and one destination line, but an aligned word
of eight that the request writes in full is written whole. -/
def moveWords (s : State) (r : Request) : State × Piece :=
  let x := r.rows
  let n := min (r.blk.size0 - x % r.blk.size0) (min (128 - srcOf r x % 128) (128 - dstOf r x % 128))
  let e := x + n
  if totalOf r ≤ e ∨ dstOf r e ≠ dstOf r x + n ∨ dstOf r e % 8 = 0 then moveRun s r x n
  else if dstOf r e % 8 < n then moveRun s r x (n - dstOf r e % 8)
  else
    match wordPieces s r x (runLen r x) with
    | (s, .inl p) => (s, p)
    | (s, .inr ps) => (ps.foldl (fun s p => engineWrite s (coreOfReq s r) r.ck p.2 p.1) s, .moved ps.length)

/-- A line warmed by a PREFETCH: in the remote-data cache of the die where DEST is 4 and its home is elsewhere; the home's own slice holds it
otherwise, and HOST lines are skipped (R340, R341, R175). -/
def warmLine (s : State) (core dest : Nat) (pl : Place) : State :=
  if pl.host ∨ dest ≠ 4 then s
  else
    let s := recallHost s { pl with pa := pl.pa / 128 * 128 } 128
    (fetchLine (if pl.mc = 0 then s else recallForRead s core false (pl.pa / 128)) core pl).1

/-- The next bytes of a request, in the order of R340. -/
def movePiece (s : State) (r : Request) : State × Piece :=
  let b := r.blk
  let core := coreOfReq s r
  if b.dest < 2 then moveWords s r
  else
    let src := srcOf r r.rows
    let n0 := min (b.size0 - r.rows % b.size0) (128 - src % 128)
    let n := if b.dest = 2 then min n0 (fifoRoom s core b.fifo) else n0
    if n = 0 then (s, .held)
    else
      match engineMeets s (core / 64) r.ck src n .read with
      | (s, .wait) => (s, .wait src .read)
      | (s, .fail) => (s, .fail src .read)
      | (s, m) =>
        if b.dest = 2 then
          (match engineRead s r.ck n m with
           | (s, none) => (s, .spoiled)
           | (s, some bs) => (appendFifo s core b.fifo bs, .moved n))
        else
          (match m with
           | .place pl => (if spoiledAt s pl.host pl.pa n then s else warmLine s core b.dest pl, .moved n)
           | _ => (s, .moved n))

/-- Bytes of the piece that a PREFETCH skips, where its page cannot be had (R341). -/
def skipLen (r : Request) : Nat :=
  let o := r.rows % r.blk.size0
  min (r.blk.size0 - o) (128 - wrap64 ((rowSrc r.blk r.lrFirst r.bases (r.rows / r.blk.size0) : Int) + o) % 128)

/-- A request changed. -/
def updReq (s : State) (id : Nat) (f : Request → Request) : State := { s with reqs := tupd s.reqs id f }

/-- A request moves its bytes in order until it has moved them all, must wait, or faults, which ends the RESIDENT whatever the destination but a PREFETCH's
(R211, R341); each round moves at least one byte. -/
def moveBytes (id : Nat) : Nat → State → State
  | 0, s => s
  | f + 1, s =>
    match tfind s.reqs id with
    | none => s
    | some r =>
      if totalOf r ≤ r.rows then updReq s id (fun r => { r with moved := true, waits := none })
      else
        match movePiece s r with
        | (s, .moved n) => moveBytes id f (updReq s id (fun r => { r with rows := r.rows + n }))
        | (s, .held) => s
        | (s, .spoiled) => condemn s (ridOf r.ck) 0x040F
        | (s, .wait va k) =>
          if r.blk.dest < 3 then updReq s id (fun r => { r with waits := some (BitVec.ofNat 64 va, k) })
          else moveBytes id f (updReq s id (fun r => { r with rows := r.rows + skipLen r }))
        | (s, .fail _ _) =>
          if r.blk.dest < 3 then condemn s (ridOf r.ck) 0x0404
          else moveBytes id f (updReq s id (fun r => { r with rows := r.rows + skipLen r }))

/-- The pointer table of a GATHER, read once as the request begins (R340): the bases so far, or what stops it. -/
def readTable (s : State) (r : Request) : Nat → State × List Nat × Option (Piece)
  | 0 => (s, [], none)
  | n + 1 =>
    match readTable s r n with
    | (s, bs, some p) => (s, bs, some p)
    | (s, bs, none) =>
      let va := r.blk.ptab + 8 * n
      match engineMeets s (coreOfReq s r / 64) r.ck va 8 .read with
      | (s, .wait) => (s, bs, some (.wait va .read))
      | (s, .fail) => (s, bs, some (.fail va .read))
      | (s, m) =>
        match engineRead s r.ck 8 m with
        | (s, none) => (s, bs, some .spoiled)
        | (s, some x) => (s, bs ++ [wordOfBytes x], none)

/-- A request begins: the pointer table is read, and for a FIFO its place in the stream is fixed (R193, R340). -/
def beginReq (s : State) (id : Nat) (r : Request) : State :=
  match readTable s r (if r.blk.kind = 2 then r.blk.groups else 0) with
  | (s, bs, none) =>
    let x := fifoAt (matrixAt s (coreOfReq s r)) r.blk.fifo
    updReq s id (fun r => { r with begun := true, bases := bs, start := x.pos + x.bytes.length - r.rows, waits := none })
  | (s, _, some (.fail va k)) =>
    if r.blk.dest < 3 then condemn s (ridOf r.ck) 0x0404 else updReq s id (fun r => { r with waits := some (BitVec.ofNat 64 va, k) })
  | (s, _, some (.wait va k)) => updReq s id (fun r => { r with waits := some (BitVec.ofNat 64 va, k) })
  | (s, _, some .spoiled) => condemn s (ridOf r.ck) 0x040F
  | (s, _, some _) => s

/-- A request to a FIFO may deliver: its class is placed, no request to the FIFO before it still has bytes to deliver, no FIFOCLR that
precedes it is still to act, and it has not faulted (R193, R206, R210). -/
def mayFeed (s : State) (id : Nat) (r : Request) : Bool :=
  active s r.ck && r.waits.isNone
    && !(s.reqs.any (fun e => decide (e.1 < id) && e.2.ck == r.ck && e.2.blk.dest == 2 && e.2.blk.fifo == r.blk.fifo && !e.2.moved))
    && !((matrixAt s (coreOf s r.ck)).acts.any (fun a =>
          match a.kind with
          | .fifoClear f upTo => f == r.blk.fifo && decide (upTo ≤ id)
          | _ => false))

/-- A request can move bytes now; one whose layer range is empty moves none and waits for nothing (R227). -/
def mayMove (s : State) (id : Nat) (r : Request) : Bool := running s && !r.moved && (r.blk.dest != 2 || totalOf r == 0 || mayFeed s id r)

/-- COPY_REQUEST_START: a request begins, or goes on after a wait (R340, R341). -/
def execCopyRequestStart (req : Nat) (s : State) : Out :=
  match tfind s.reqs req with
  | none => .next s
  | some r =>
    if !mayMove s req r then .next s
    else
      let s := if r.begun then updReq s req (fun r => { r with waits := none }) else beginReq s req r
      match tfind s.reqs req with
      | none => .next s
      | some r => .next (if r.begun then moveBytes req (totalOf r + 2) s else s)

/-- Requests whose bytes have all been consumed are no longer retained (R193); those that are complete and not retained are gone. -/
def releaseRetained (s : State) (ck : Nat) : State :=
  let m := matrixAt s (coreOf s ck)
  let used (r : Request) : Bool :=
    r.moved && (totalOf r == 0 || (r.begun && decide (r.start + totalOf r ≤ (fifoAt m r.blk.fifo).pos)))
  let f (e : Nat × Request) : Nat × Request :=
    if e.2.ck = ck ∧ e.2.blk.dest = 2 ∧ e.2.retained ∧ used e.2 then (e.1, { e.2 with retained := false }) else e
  { s with reqs := (s.reqs.map f).filter (fun e => !(e.2.completed && !e.2.retained)) }

/-- COPY_COMPLETE (R341, R149, R176). -/
def execCopyComplete (req : Nat) (s : State) : Out :=
  match tfind s.reqs req with
  | none => .next s
  | some r =>
    if !running s || !r.moved || r.completed then .next s
    else
      let s := freeLines s r.ck (linesOf r.blk r.lrFirst r.lrLast)
      let s := completeOn (updReq s req (fun r => { r with completed := true })) r.ck r.blk.tl r.num r.holds
      .next (releaseRetained s r.ck)

/-! ## The matrix unit -/

/-- The MATRIX class placed on a core. -/
def matrixClass (s : State) (core : Nat) : Option Nat :=
  ((s.classes.find? (fun e => e.2.placed && !e.2.quiesced && coreOfCls e.2 == core && (launchOf s e.1).matrix)).map (·.1))

/-- MATRIX_STEP: one step of a loop, or its end (R195 to R201). -/
def execMatrixStep (core : Nat) (ticket : Nat) (s : State) : Out :=
  let m := matrixAt s core
  match m.loops.find? (fun x => x.ticket == ticket), matrixClass s core with
  | some lp, some ck =>
    if !running s then .next s
    else
      (match loopStep m lp with
       | none => .next s
       | some (m', ended) =>
         let s := setMatrix s core m'
         .next (releaseRetained (if ended then completeOn s ck lp.tl lp.num true else s) ck))
  | _, _ => .next s

/-- TICKETED_SLATE_ACT (R198, R205, R206). -/
def execTicketedSlateAct (core : Nat) (ticket : Nat) (s : State) : Out :=
  let m := matrixAt s core
  match m.acts.find? (fun x => x.ticket == ticket), matrixClass s core with
  | some a, some ck => .next (if !running s || actHeld m a then s else releaseRetained (doAct s core ck a) ck)
  | _, _ => .next s

/-! ## Fabric operations at the source (R344, R345) -/

/-- A window changed. -/
def updWindow (s : State) (w : Nat) (f : Window → Window) : State := { s with windows := tupd s.windows w f }

/-- What stops an engine at a fabric operation's local side: it must wait, or the program is killed for a reason (R341). -/
inductive Stop where
  | wait | kill (reason : Nat)
  deriving DecidableEq, Repr

/-- Bytes of a fabric operation's local side, from `va`, piece by piece: read for its payload, or what stops them. -/
def gather (s : State) (die ck : Nat) : List (Nat × Nat) → State × (Stop ⊕ List Byte)
  | [] => (s, .inr [])
  | (va, n) :: r =>
    match engineMeets s die ck va n .read with
    | (s, .wait) => (s, .inl .wait)
    | (s, .fail) => (s, .inl (.kill 0x0404))
    | (s, m) =>
      match engineRead s ck n m with
      | (s, none) => (s, .inl (.kill 0x040F))
      | (s, some x) =>
        match gather s die ck r with
        | (s, .inr bs) => (s, .inr (x ++ bs))
        | q => q

/-- The payload rows of a PUT or PUTS. -/
def payloadRows (s : State) (die ck : Nat) (b : FabBlock) : Nat → State × (Stop ⊕ List (Nat × List Byte))
  | 0 => (s, .inr [])
  | k + 1 =>
    match payloadRows s die ck b k with
    | (s, .inl x) => (s, .inl x)
    | (s, .inr rs) =>
      match gather s die ck (splitLines (fabLocal b k) (b.size0 + 1) b.size0) with
      | (s, .inl x) => (s, .inl x)
      | (s, .inr bs) => (s, .inr (rs ++ [(fabRemote b k, bs)]))

/-- The pieces of the local side of a GET. -/
def getPieces (b : FabBlock) : List (Nat × Nat) := (List.range b.n1).flatMap (fun k => splitLines (fabLocal b k) (b.size0 + 1) b.size0)

/-- Every piece of a GET's destination translates for WRITE: its places, or what stops it. -/
def landing (s : State) (die ck : Nat) : List (Nat × Nat) → State × (Stop ⊕ List (Met × Nat))
  | [] => (s, .inr [])
  | (va, n) :: r =>
    match engineMeets s die ck va n .write with
    | (s, .wait) => (s, .inl .wait)
    | (s, .fail) => (s, .inl (.kill 0x0404))
    | (s, m) =>
      match landing s die ck r with
      | (s, .inr ms) => (s, .inr ((m, n) :: ms))
      | q => q

/-- An operation's window is held by PAUSED: it is refused (R39; log 33, DEDUCED). -/
def windowHeld (s : State) (w : Nat) : Bool := ((tfind s.windows w).map (·.paused)).getD false

/-- FABRIC_OP_SEND: LOCAL is accessed as a DEST 0 request would be, and the operation leaves; one whose LOCAL faults is sent as refused
by its own source (R344). -/
def execFabricOpSend (op : Nat) (s : State) : Out :=
  match tfind s.fabOps op with
  | none => .next s
  | some x =>
    let sent (s : State) (bad : Bool) (ps : List (Nat × List Byte)) : State :=
      { s with fabOps := tput s.fabOps op { x with phase := .sent, selfRefused := bad, payload := ps } }
    let stop (s : State) : Stop → State
      | .wait => s
      | .kill reason => sent (condemn s (ridOf x.ck) reason) true []
    if !running s || x.phase != .queued then .next s
    else if windowHeld s x.win then .next (sent s true [])
    else if x.blk.kind = 3 then
      (match landing s (x.core / 64) x.ck (getPieces x.blk) with
       | (s, .inl y) => .next (stop s y)
       | (s, .inr _) => .next (sent s false []))
    else
      (match payloadRows s (x.core / 64) x.ck x.blk x.blk.n1 with
       | (s, .inl y) => .next (stop s y)
       | (s, .inr ps) => .next (sent s false ps))

/-- The issue counter over the settled prefix, and the numbers settled beyond it (R345). -/
def settlePrefix : Nat → Nat → List Nat → Nat × List Nat
  | 0, n, ls => (n, ls)
  | f + 1, n, ls => if ls.contains (n + 1) then settlePrefix f (n + 1) (ls.filter (· != n + 1)) else (n, ls)

/-- An operation numbered `n` of a window settles (R345). -/
def settleOn (n : Nat) (refused : Bool) (w : Window) : Window :=
  let q := settlePrefix (w.settled.length + 2) w.issue (w.settled ++ [n])
  { w with issue := q.1, settled := q.2, refused := w.refused + refused.toNat }

/-- A GET's data written at its destination (R177, R345). -/
def land (s : State) (core ck : Nat) : List (Met × Nat) → List Byte → State
  | [], _ => s
  | (m, n) :: r, bs => land (engineWrite s core ck (bs.take n) m) core ck r (bs.drop n)

/-- An operation has settled: the counters, the timeline, presence bits, and its end (R345, R149). -/
def settle (s : State) (op : Nat) (x : FabOp) (refused : Bool) : State :=
  let s := updWindow s x.win (settleOn x.num refused)
  let s := completeOn (freeLines s x.ck (fabLines x.blk)) x.ck x.blk.tl x.tlNum x.holds
  { s with fabOps := tdel s.fabOps op }

/-- An image sent through a PEER window has become visible there, and its SNAPSHOT is COMPLETE; or it is refused, and the SNAPSHOT waits for its peer to be
written anew. One whose teardown has begun, or that is another version now, gets no mark of it (R78; log 36, DEDUCED). -/
def settleImage (s : State) (op id : Nat) (refused : Bool) : State :=
  let s := { s with imagesOut := tdel s.imagesOut op, wake := true }
  let e := entryAt s id
  if e.phase ≠ 4 then s
  else if e.tear then updEntry s id (fun e => { e with phase := 0 })
  else if refused then markAs (updEntry { s with snaps := tdel s.snaps id } id (fun e => { e with phase := 0, plan := [1] })) id .blocked 0 rPEER_WAIT 0 0
  else markAs (updEntry s id (fun e => { e with phase := 0, plan := [] })) id .complete 4 0 0 0

/-- An operation numbered `op` that is no thread's: an image, if it is one that was sent. -/
def settleOther (s : State) (op : Nat) (refused : Bool) : State :=
  match tfind s.imagesOut op with
  | some id => if running s then settleImage s op id refused else s
  | none => s

/-- FABRIC_OP_SETTLE: the target acknowledges or refuses; `data` is what a GET brings. A GET whose destination must wait for a
translation settles when it can be written: the settlement is tried again. -/
def execFabricOpSettle (op : Nat) (refused : Bool) (data : List Byte) (s : State) : Out :=
  match tfind s.fabOps op with
  | none => .next (settleOther s op refused)
  | some x =>
    if !running s || x.phase != .sent then .next s
    else if refused || x.selfRefused then .next (settle s op x true)
    else if x.blk.kind ≠ 3 then .next (settle s op x false)
    else if data.length ≠ x.blk.n1 * x.blk.size0 then .next s
    else
      match landing s (x.core / 64) x.ck (getPieces x.blk) with
      | (s, .inl .wait) => .next { s with agenda := s.agenda ++ [.fabricOpSettle op refused data] }
      | (s, .inl (.kill reason)) => .next (settle (condemn s (ridOf x.ck) reason) op x true)
      | (s, .inr ms) => .next (settle (land s x.core x.ck ms data) op x false)

/-- FABRIC_PATH_TIMEOUT: no path reached the target for 10 ms; the operation is refused (R34). -/
def execFabricPathTimeout (op : Nat) (s : State) : Out :=
  match tfind s.fabOps op with
  | none => .next (settleOther s op true)
  | some x => .next (if running s && x.phase == .sent then settle s op x true else s)

/-! ## Fabric operations at the target (R34, R177) -/

/-- The places of `n` bytes at a window's address, line by line, in its context: none where a page does not translate, or needs a link that is
down (R24). -/
def windowPlaces (s : State) (ctx : Nat) (k : Kind) : List (Nat × Nat) → State × Option (List (Place × Nat))
  | [] => (s, some [])
  | (va, n) :: r =>
    match engineWalk s 0 ctx va k with
    | (s, .leaf e lv _) =>
      if linkDenied s (placeOf e lv va) then (s, none)
      else
        (match windowPlaces s ctx k r with
         | (s, some ps) => (s, some ((placeOf e lv va, n) :: ps))
         | (s, none) => (s, none))
    | (s, _) => (s, none)

/-- Bytes written at the home slices, line by line. -/
def writePlaces (s : State) : List (Place × Nat) → List Byte → State
  | [], _ => s
  | (pl, n) :: r, bs => writePlaces (homeWrite s pl (bs.take n)) r (bs.drop n)

/-- Bytes read at the home slices, line by line. -/
def readPlaces (s : State) : List (Place × Nat) → State × List Byte
  | [] => (s, [])
  | (pl, n) :: r =>
    let p := homeRead s pl n
    let q := readPlaces p.1 r
    (q.1, p.2 ++ q.2)

/-- Some bytes of these places are spoiled (R165). -/
def placesSpoiled (s : State) (ps : List (Place × Nat)) : Bool := ps.any (fun x => spoiledAt s x.1.host x.1.pa x.2)

/-- An arrival is accepted: the window's record is CONVERGED and not held, it is LOCAL, and the arrival lies within it and is permitted (R34,
R39). -/
def arrivalOk (s : State) (w : Window) (kind : Nat) (rows : List (Nat × List Byte)) (sigOff : Nat) : Bool :=
  converged s w.rid && !w.paused && !w.peer && (if kind = 3 then w.perms % 2 == 1 else w.perms / 2 % 2 == 1)
    && rows.all (fun r => decide (r.1 + r.2.length ≤ w.size)) && (kind != 2 || decide (sigOff + 8 ≤ w.size))

/-- The pieces of the rows of an arrival, by virtual address. -/
def arrivalPieces (w : Window) (rows : List (Nat × List Byte)) : List (Nat × Nat) :=
  rows.flatMap (fun r => splitLines (w.va + r.1) (r.2.length + 1) r.2.length)

/-- FABRIC_OP_ARRIVAL: a peer's operation on a local window: 1 PUT, 2 PUTS, 3 GET (whose rows give lengths). It is refused whole, or
its payload, then its signal, is visible and the arrival counter advances (R34, R177). A page of the window that does not translate
refuses it, and so do spoiled bytes that a GET would read (log 33, DEDUCED); a GET that is answered counts as arrived (log 43, DESIGN CHOICE). -/
def execFabricOpArrival (win kind : Nat) (rows : List (Nat × List Byte)) (sigOp sigOff sigVal : Nat) (s : State) : Out :=
  let answer (s : State) (bad : Bool) (bs : List Byte) : State := { s with hostOut := s.hostOut ++ [.fabric bad bs] }
  if !running s then .next s
  else
    match tfind s.windows win with
    | none => .next (answer s true [])
    | some w =>
      if !arrivalOk s w kind rows sigOff then .next (answer s true [])
      else
        let k : Kind := if kind = 3 then .read else .write
        match windowPlaces s w.ctx k (arrivalPieces w rows ++ (if kind = 2 then [(w.va + sigOff, 8)] else [])) with
        | (s, none) => .next (answer s true [])
        | (s, some ps) =>
          let arrived (s : State) : State := updWindow s win (fun w => { w with arrival := w.arrival + 1 })
          let read := readPlaces s ps
          if kind = 3 then .next (if placesSpoiled read.1 ps then answer read.1 true [] else arrived (answer read.1 false read.2))
          else if kind = 2 ∧ sigOp ≠ 1 ∧ placesSpoiled s (ps.drop (ps.length - 1)) then .next (answer s true [])
          else
            let s := writePlaces s (if kind = 2 then ps.dropLast else ps) (rows.flatMap (·.2))
            let s :=
              match kind == 2, ps.getLast? with
              | true, some (pl, _) =>
                let q := homeRead s pl 8
                homeWrite q.1 pl (bytesOfNat 8 (if sigOp = 1 then sigVal else (wordOfBytes q.2 + sigVal) % 2 ^ 64))
              | _, _ => s
            .next (arrived (answer s false []))

/-! ## Gratric ports (R31 to R33) -/

/-- A port's state. -/
def portAt (s : State) (p : Nat) : Port := tget .untrained s.ports p

/-- FLIT_RESEND: programs never see a link error (R32). -/
def execFlitResend (_port : Nat) (s : State) : Out := .next s

/-- The FIRMWARE records of the stage managers that name a die and stand CONVERGED (R32; log 56, DESIGN CHOICE). -/
def dieRecords (s : State) (die : Nat) : List Nat :=
  (s.book.filter (fun e =>
    let w := e.2.want.getD []
    recKind w == 7 && fwPart w == 0 && recIntent w != 0 && fwDies w / 2 ^ die % 2 == 1 && e.2.stand.state == .converged)).map (·.1)

/-- The count of ports in service on the dies that a FIRMWARE record names, out of the 18 of each, shown in its mark (R32; log 56, DESIGN
CHOICE). -/
def portMark (s : State) (id : Nat) : State :=
  let ds := (List.range 8).filter (fun d => fwDies (wantOf s id) / 2 ^ d % 2 == 1)
  let up := (ds.flatMap (fun d => (List.range 18).map (· + 18 * d))).filter (fun p => portAt s p == .inService)
  markAs s id .converged 3 0 up.length (18 * ds.length)

/-- GRATRIC_PORT_FAIL: the port leaves service, and the FIRMWARE mark of its die says so; no operation is lost (R32). -/
def execGratricPortFail (port : Nat) (s : State) : Out :=
  .next (if running s && decide (port < 144) && portAt s port == .inService then
           (dieRecords s (port / 18)).foldl portMark { s with ports := tput s.ports port .failed }
         else s)

/-- The module has found its device number taken, and keeps every port down (R33). -/
def conflicted (s : State) : Bool := s.duplicate

/-- GRATRIC_PORT_TRAIN (R33). -/
def execGratricPortTrain (port : Nat) (s : State) : Out :=
  .next (if running s && decide (port < 144) && portAt s port == .untrained && !conflicted s then
           { s with ports := tput s.ports port .inService } else s)

/-- DEVICE_NUMBER_CONFLICT: this module was the second to train; every port stays down, and I3C reports it (R33). -/
def execDeviceNumberConflict (s : State) : Out :=
  .next (if running s && !conflicted s then { s with ports := [], duplicate := true, i3c := s.i3c ++ [.duplicateDevice] } else s)

end Sys2Proof.Machine
end

