-- ==== Sys2Proof/Machine/Choice.lean ====
section
/-! DEFINITION. What happens next when no instruction is at issue: the next outside event, or one event of the module itself, in an order
and at times that are free (log 4, DESIGN CHOICE). -/

namespace Sys2Proof.Machine

/-- Events of the threads. -/
def threadEvents (s : State) : List Instr :=
  s.threads.flatMap (fun e =>
    [.laneWake e.1, .monitorFire e.1, .signalDelivery e.1, .threadStarved e.1, .translationFaultResolve e.1]
      ++ (List.range e.2.pend.length).map (fun n => .deferredResultWrite e.1 n))

/-- Page walks that some access waits for (R91). -/
def walkEvents (s : State) : List Instr :=
  s.threads.filterMap (fun e =>
    match e.2.park with
    | some (.translation va k) => some (.pageWalk (clsAt s (ckOfT e.1)).die (clsAt s (ckOfT e.1)).ctx va.toNat (match k with | .read => 0 | .write => 1 | .exec => 2))
    | _ => none)
  ++ s.reqs.filterMap (fun e =>
    match e.2.waits with
    | some (va, k) => some (.pageWalk (e.2.core / 64) (clsAt s e.2.ck).ctx va.toNat (match k with | .read => 0 | .write => 1 | .exec => 2))
    | none => none)

/-- Events of the engines and the matrix units. -/
def engineEvents (s : State) : List Instr :=
  s.reqs.flatMap (fun e => [.copyRequestStart e.1, .copyComplete e.1, .fifoFeedFault e.1])
  ++ s.mats.flatMap (fun e => e.2.loops.map (fun x => .matrixStep e.1 x.ticket) ++ e.2.acts.map (fun x => .ticketedSlateAct e.1 x.ticket))
  ++ s.fabOps.map (fun e => .fabricOpSend e.1)

/-- Events of classes, programs and ushers. -/
def usherEvents (s : State) : List Instr :=
  s.classes.flatMap (fun e => [.classEnd e.1, .preempt e.1]) ++ s.residents.map (fun e => .residentKill e.1)
  ++ (List.range 8).flatMap (fun d => [.classPlace d, .steal d, .fetchwAnswer d])
  ++ s.bins.flatMap (fun e => [.binTimerExpire e.1, .binLaunch e.1])

/-- Instruction issue, sweeps, and the reconciler. -/
def moduleEvents (s : State) : List Instr :=
  ((s.classes.map (fun e => coreOfCls e.2)).eraseDups).flatMap (fun c => (List.range 4).map (fun k => .issueSelect c k))
  ++ (s.corePhase.filter (fun e => e.2.owed)).map (fun e => .phaseSweep e.1)
  ++ (s.rdcPhase.filter (fun e => e.2.owed)).map (fun e => .phaseSweep (512 + e.1))
  ++ (s.book.map (fun e => .snapshotQuiesce e.1)) ++ [.passStep, .backstopSweep]

/-- Every event that the module may make by itself; one that is not enabled changes nothing. -/
def ownEvents (s : State) : List Instr := threadEvents s ++ walkEvents s ++ engineEvents s ++ usherEvents s ++ moduleEvents s

/-- Tick boundaries that are due: they come first (R117). -/
def dueTicks (s : State) : List Instr := ((s.ctxs.map (·.1)).filter (tickDue s)).map (fun c => .tickBoundary c)

/-- The next event of the agenda, which leaves it. -/
def nextOutside (s : State) : State × Option Instr :=
  match s.agenda with
  | i :: r => ({ s with agenda := r }, some i)
  | [] => (s, none)

/-- What happens next, after a free time and what the caches do in it: while the clocks stand, only what comes from outside (R15, R17, R18). -/
def nextEvent (s : State) : State × Option Instr :=
  if !running s then nextOutside s
  else
    let a := draw s
    let b := draw a.2
    let c := draw b.2
    let s := evictFree (settleOverdue (passTime c.2 a.1 b.1))
    match dueTicks s with
    | i :: _ => (s, some i)
    | [] =>
      let es := ownEvents s
      if c.1 % 2 = 0 ∧ !s.agenda.isEmpty then nextOutside s else (s, es[c.1 / 2 % es.length]?)

end Sys2Proof.Machine
end

