-- ==== Sys2Proof/Machine/Crypto.lean ====
section
/-! DEFINITION. The hash functions and the signature check that the rules name (R82, R83): SHAKE256 (FIPS 202), SHA-384 (FIPS 180-4), and the
verification of XMSS-SHAKE256_20_256 (RFC 8391 with NIST SP 800-208). The rules name these standards; what they say is taken from them (log 16,
PRESUMED). -/

namespace Sys2Proof.Machine

/-! ## SHAKE256 -/

/-- The 24 round constants. -/
def keccakRounds : List Nat :=
  [0x0000000000000001, 0x0000000000008082, 0x800000000000808a, 0x8000000080008000] ++
  [0x000000000000808b, 0x0000000080000001, 0x8000000080008081, 0x8000000000008009] ++
  [0x000000000000008a, 0x0000000000000088, 0x0000000080008009, 0x000000008000000a] ++
  [0x000000008000808b, 0x800000000000008b, 0x8000000000008089, 0x8000000000008003] ++
  [0x8000000000008002, 0x8000000000000080, 0x000000000000800a, 0x800000008000000a] ++
  [0x8000000080008081, 0x8000000000008080, 0x0000000080000001, 0x8000000080008008]

/-- The rotation of lane `x + 5 * y`. -/
def keccakRots : List Nat :=
  [0, 1, 62, 28, 27, 36, 44, 6, 55, 20, 3, 10, 43, 25, 39, 41, 45, 15, 21, 8, 18, 2, 61, 56, 14]

/-- One round of Keccak-f[1600] on its 25 lanes. -/
def keccakRound (a : List DWord) (rc : Nat) : List DWord :=
  let l (v : List DWord) (x y : Nat) : DWord := v.getD (x % 5 + 5 * (y % 5)) 0
  let c : List DWord := (List.range 5).map (fun x => l a x 0 ^^^ l a x 1 ^^^ l a x 2 ^^^ l a x 3 ^^^ l a x 4)
  let d : List DWord := (List.range 5).map (fun x => c.getD ((x + 4) % 5) 0 ^^^ (c.getD ((x + 1) % 5) 0).rotateLeft 1)
  let t : List DWord := (List.range 25).map (fun i => (a.getD i 0 ^^^ d.getD (i % 5) 0).rotateLeft (keccakRots.getD i 0))
  let b : List DWord := (List.range 25).map (fun i => let x := i % 5; let y := i / 5; l t (x + 3 * y) x)
  let e : List DWord := (List.range 25).map (fun i => let x := i % 5; let y := i / 5; l b x y ^^^ (~~~(l b (x + 1) y) &&& l b (x + 2) y))
  (List.range 25).map (fun i => if i = 0 then e.getD 0 0 ^^^ BitVec.ofNat 64 rc else e.getD i 0)

/-- The permutation. -/
def keccakF (a : List DWord) : List DWord := keccakRounds.foldl keccakRound a

/-- Bytes in blocks of `n`. -/
def blocksOf (n : Nat) (bs : List Byte) : List (List Byte) := (List.range (bs.length / n)).map (fun k => (bs.drop (k * n)).take n)

/-- The first 32 bytes of SHAKE256 of some bytes: rate 136 bytes, suffix 1111. -/
def shake256 (bs : List Byte) : List Byte :=
  let pad := 136 - bs.length % 136
  let tail : List Byte := if pad = 1 then [0x9F] else 0x1F :: (List.replicate (pad - 2) 0 ++ [0x80])
  let absorb (a : List DWord) (b : List Byte) : List DWord :=
    keccakF ((List.range 25).map (fun i => a.getD i 0 ^^^ (if i < 17 then BitVec.ofNat 64 (fieldAt b (8 * i) 8) else 0)))
  let a := (blocksOf 136 (bs ++ tail)).foldl absorb (List.replicate 25 0)
  (List.range 4).flatMap (fun i => bytesOfNat 8 (a.getD i 0).toNat)

/-! ## SHA-384 -/

/-- The 80 round constants. -/
def sha512Consts : List Nat :=
  [0x428a2f98d728ae22, 0x7137449123ef65cd, 0xb5c0fbcfec4d3b2f, 0xe9b5dba58189dbbc] ++
  [0x3956c25bf348b538, 0x59f111f1b605d019, 0x923f82a4af194f9b, 0xab1c5ed5da6d8118] ++
  [0xd807aa98a3030242, 0x12835b0145706fbe, 0x243185be4ee4b28c, 0x550c7dc3d5ffb4e2] ++
  [0x72be5d74f27b896f, 0x80deb1fe3b1696b1, 0x9bdc06a725c71235, 0xc19bf174cf692694] ++
  [0xe49b69c19ef14ad2, 0xefbe4786384f25e3, 0x0fc19dc68b8cd5b5, 0x240ca1cc77ac9c65] ++
  [0x2de92c6f592b0275, 0x4a7484aa6ea6e483, 0x5cb0a9dcbd41fbd4, 0x76f988da831153b5] ++
  [0x983e5152ee66dfab, 0xa831c66d2db43210, 0xb00327c898fb213f, 0xbf597fc7beef0ee4] ++
  [0xc6e00bf33da88fc2, 0xd5a79147930aa725, 0x06ca6351e003826f, 0x142929670a0e6e70] ++
  [0x27b70a8546d22ffc, 0x2e1b21385c26c926, 0x4d2c6dfc5ac42aed, 0x53380d139d95b3df] ++
  [0x650a73548baf63de, 0x766a0abb3c77b2a8, 0x81c2c92e47edaee6, 0x92722c851482353b] ++
  [0xa2bfe8a14cf10364, 0xa81a664bbc423001, 0xc24b8b70d0f89791, 0xc76c51a30654be30] ++
  [0xd192e819d6ef5218, 0xd69906245565a910, 0xf40e35855771202a, 0x106aa07032bbd1b8] ++
  [0x19a4c116b8d2d0c8, 0x1e376c085141ab53, 0x2748774cdf8eeb99, 0x34b0bcb5e19b48a8] ++
  [0x391c0cb3c5c95a63, 0x4ed8aa4ae3418acb, 0x5b9cca4f7763e373, 0x682e6ff3d6b2b8a3] ++
  [0x748f82ee5defb2fc, 0x78a5636f43172f60, 0x84c87814a1f0ab72, 0x8cc702081a6439ec] ++
  [0x90befffa23631e28, 0xa4506cebde82bde9, 0xbef9a3f7b2c67915, 0xc67178f2e372532b] ++
  [0xca273eceea26619c, 0xd186b8c721c0c207, 0xeada7dd6cde0eb1e, 0xf57d4f7fee6ed178] ++
  [0x06f067aa72176fba, 0x0a637dc5a2c898a6, 0x113f9804bef90dae, 0x1b710b35131c471b] ++
  [0x28db77f523047d84, 0x32caab7b40c72493, 0x3c9ebe0a15c9bebc, 0x431d67c49c100d4c] ++
  [0x4cc5d4becb3e42b6, 0x597f299cfc657e2a, 0x5fcb6fab3ad6faec, 0x6c44198c4a475817]

/-- The initial hash value. -/
def sha384Init : List Nat :=
  [0xcbbb9d5dc1059ed8, 0x629a292a367cd507, 0x9159015a3070dd17, 0x152fecd8f70e5939] ++
  [0x67332667ffc00b31, 0x8eb44a8768581511, 0xdb0c2e0d64f98fa7, 0x47b5481dbefa4fa4]

/-- A number in `n` bytes, most significant first. -/
def bytesBE (n v : Nat) : List Byte := (bytesOfNat n v).reverse

/-- A number read from bytes, most significant first. -/
def natBE (bs : List Byte) : Nat := bs.foldl (fun v b => v * 256 + b.toNat) 0

/-- The 80 words of a block's message schedule. -/
def shaSchedule (b : List Byte) : List DWord :=
  let s0 (x : DWord) : DWord := x.rotateRight 1 ^^^ x.rotateRight 8 ^^^ (x >>> 7)
  let s1 (x : DWord) : DWord := x.rotateRight 19 ^^^ x.rotateRight 61 ^^^ (x >>> 6)
  let first : List DWord := (List.range 16).map (fun i => BitVec.ofNat 64 (natBE ((b.drop (8 * i)).take 8)))
  (List.range 64).foldl (fun w k => w ++ [s1 (w.getD (k + 14) 0) + w.getD (k + 9) 0 + s0 (w.getD (k + 1) 0) + w.getD k 0]) first

/-- One round: the eight working words. -/
def shaRound (v : List DWord) (x : DWord × Nat) : List DWord :=
  let a := v.getD 0 0
  let e := v.getD 4 0
  let t1 := v.getD 7 0 + (e.rotateRight 14 ^^^ e.rotateRight 18 ^^^ e.rotateRight 41) + ((e &&& v.getD 5 0) ^^^ (~~~e &&& v.getD 6 0))
    + BitVec.ofNat 64 x.2 + x.1
  let t2 := (a.rotateRight 28 ^^^ a.rotateRight 34 ^^^ a.rotateRight 39) + ((a &&& v.getD 1 0) ^^^ (a &&& v.getD 2 0) ^^^ (v.getD 1 0 &&& v.getD 2 0))
  [t1 + t2, a, v.getD 1 0, v.getD 2 0, v.getD 3 0 + t1, e, v.getD 5 0, v.getD 6 0]

/-- SHA-384 of some bytes. -/
def sha384 (bs : List Byte) : List Byte :=
  let zeros := (239 - bs.length % 128) % 128
  let padded := bs ++ [0x80] ++ List.replicate zeros 0 ++ bytesBE 16 (8 * bs.length)
  let step (h : List DWord) (b : List Byte) : List DWord :=
    let v := ((shaSchedule b).zip sha512Consts).foldl shaRound h
    (List.range 8).map (fun i => h.getD i 0 + v.getD i 0)
  let h := (blocksOf 128 padded).foldl step (sha384Init.map (BitVec.ofNat 64))
  (h.take 6).flatMap (fun w => bytesBE 8 w.toNat)

/-! ## XMSS-SHAKE256_20_256 (RFC 8391, SP 800-208) -/

/-- The OID of the parameter set, as SP 800-208 assigns it. -/
def xmssOid : Nat := 0x12

/-- The keyed functions F, H, H_msg and PRF, by number. -/
def xmssHash (f : Nat) (key m : List Byte) : List Byte := shake256 (bytesBE 32 f ++ key ++ m)

/-- An address: type, three words of it, and keyAndMask; layer and tree are 0. -/
def xmssAddr (ty a b c km : Nat) : List Byte := bytesBE 12 0 ++ bytesBE 4 ty ++ bytesBE 4 a ++ bytesBE 4 b ++ bytesBE 4 c ++ bytesBE 4 km

def xorBytes (a b : List Byte) : List Byte := List.zipWith (· ^^^ ·) a b

/-- The chaining function from step `i` on, `n` steps, for chain `c` of the one-time key at leaf `idx`. -/
def wotsChain (seed : List Byte) (idx c i n : Nat) (x : List Byte) : List Byte :=
  (List.range n).foldl (fun x k =>
    let prf (km : Nat) : List Byte := xmssHash 3 seed (xmssAddr 0 idx c (i + k) km)
    xmssHash 0 (prf 0) (xorBytes x (prf 1))) x

/-- RAND_HASH of two nodes at an address given but for keyAndMask. -/
def randHash (seed : List Byte) (addr : Nat → List Byte) (l r : List Byte) : List Byte :=
  let prf (km : Nat) : List Byte := xmssHash 3 seed (addr km)
  xmssHash 1 (prf 0) (xorBytes l (prf 1) ++ xorBytes r (prf 2))

/-- The 67 digits of base 16 that a 32-byte message gives, with its checksum. -/
def wotsDigits (m : List Byte) : List Nat :=
  let ds := m.flatMap (fun b => [b.toNat / 16, b.toNat % 16])
  let sum := (ds.map (15 - ·)).sum
  ds ++ [sum / 256 % 16, sum / 16 % 16, sum % 16]

/-- The one-time public key that a signature of a message gives. -/
def wotsKey (seed : List Byte) (idx : Nat) (m : List Byte) (sig : List (List Byte)) : List (List Byte) :=
  ((List.range 67).zip (sig.zip (wotsDigits m))).map (fun x => wotsChain seed idx x.1 x.2.2 (15 - x.2.2) x.2.1)

/-- One level of the L-tree. -/
def ltreeLevel (seed : List Byte) (idx h : Nat) (ns : List (List Byte)) : List (List Byte) :=
  (List.range (ns.length / 2)).map (fun i => randHash seed (fun km => xmssAddr 1 idx h i km) (ns.getD (2 * i) []) (ns.getD (2 * i + 1) []))
    ++ (if ns.length % 2 = 1 then ns.drop (ns.length - 1) else [])

/-- The L-tree's root. -/
def ltree (seed : List Byte) (idx : Nat) (ns : List (List Byte)) : List Byte :=
  ((List.range 7).foldl (fun ns h => ltreeLevel seed idx h ns) ns).headD []

/-- The root that a leaf and its authentication path give. -/
def xmssRoot (seed : List Byte) (idx : Nat) (leaf : List Byte) (auth : List (List Byte)) : List Byte :=
  (List.range 20).foldl (fun node k =>
    let addr (km : Nat) : List Byte := xmssAddr 2 0 k (idx / 2 ^ (k + 1)) km
    let sib := auth.getD k []
    if idx / 2 ^ k % 2 = 0 then randHash seed addr node sib else randHash seed addr sib node) leaf

/-- A signature is one of a message under a root and a seed (RFC 8391, algorithm 14): index, randomizer, 67 chain values and 20 nodes. -/
def xmssVerify (root seed msg sig : List Byte) : Bool :=
  let part (o : Nat) : List Byte := (sig.drop o).take 32
  let idx := natBE (sig.take 4)
  let m := xmssHash 2 (part 4 ++ root ++ bytesBE 32 idx) msg
  let key := wotsKey seed idx m ((List.range 67).map (fun k => part (36 + 32 * k)))
  sig.length == 2820 && decide (idx < 2 ^ 20)
    && xmssRoot seed idx (ltree seed idx key) ((List.range 20).map (fun k => part (2180 + 32 * k))) == root

end Sys2Proof.Machine
end

