-- ==== Sys2Proof/Machine/Usher.lean ====
section
/-! DEFINITION. Launch records, placement, stealing, ends and kills of classes (R100 to R113, R210, R211, R373). -/

namespace Sys2Proof.Machine

/-! ## The launch record (R100 to R103) -/

/-- A launch record read from its 256 bytes (R100, R101). -/
def parseLaunch (bs : List Byte) : Launch :=
  let lv (k : Nat) : Level :=
    let v := fieldAt bs (0x60 + 8 * k) 8
    ⟨v / 2 ^ 32 % 8, v / 2 ^ 36 % 8, v % 2 ^ 32⟩
  let nq (k : Nat) : NoteDecl :=
    let v := fieldAt bs (0x20 + 4 * k) 4
    ⟨v / 2 ^ 16 % 4, v / 2 ^ 18 % 8, v % 65536⟩
  let fl := fieldAt bs 6 2
  { levels := (List.range (fieldAt bs 4 1)).map lv, dies := fieldAt bs 5 1, restartable := fl % 2 == 1, matrix := fl / 2 % 2 == 1,
    regs := fieldAt bs 8 2, spawnSeats := fieldAt bs 0x0A 1, barriers := fieldAt bs 0x0B 1, scratch := fieldAt bs 0x0C 4,
    ownBytes := fieldAt bs 0x10 4, trapVec := fieldAt bs 0x14 4, binTimer := fieldAt bs 0x18 4, queues := (List.range 16).map nq }

/-- The bound dies, ascending (R100). -/
def boundDies (l : Launch) : List Nat := (List.range 8).filter (fun d => l.dies / 2 ^ d % 2 == 1)

/-- Classes of a program (R103). -/
def classCount (l : Launch) : Nat := ((l.levels.filter (fun v => decide (2 ≤ v.domain))).map (·.extent)).foldl (· * ·) 1

/-- Levels of a domain. -/
def levelsOf (l : Launch) (d : Nat) : List Level := l.levels.filter (fun v => v.domain == d)

/-- Positions of an empty core that a class would take (R106). -/
def freePositions (taken : List Nat) : List Nat := (List.range 64).filter (fun p => !taken.contains p)

/-- The positions of a new class where `taken` are not free: its own troupes, then its reserved seats; none where they do not fit
(R106). -/
def newPositions (taken : List Nat) (e seats : Nat) : Option (List Nat × List Nat) :=
  let free := freePositions taken
  let own := free.take e
  let rest := free.drop e
  let spawn := (List.range 4).flatMap (fun sec => (rest.filter (fun p => p % 4 == sec)).take seats)
  if own.length = e ∧ spawn.length = 4 * seats then some (own, spawn) else none

/-- Register and scratch bytes that a class claims (R106). -/
def claimBytes (l : Launch) : Nat := l.regs * 128 * (extentOf l 1 + 4 * l.spawnSeats) + l.scratch

/-- The fields of R100 and R101 meet their limits. -/
def launchFields (bs : List Byte) (imageSize : Nat) : Bool :=
  let l := parseLaunch bs
  let q (k : Nat) : Bool :=
    let v := fieldAt bs (0x20 + 4 * k) 4
    let d := l.queues.getD k ⟨0, 0, 0⟩
    v / 2 ^ 21 == 0 && d.scope != 3 && (d.scope == 2 || d.die == 0) && (d.cap == 0 || powerIn d.cap 2 4096)
  let lv (k : Nat) : Bool :=
    let v := fieldAt bs (0x60 + 8 * k) 8
    if k < l.levels.length then v / 2 ^ 39 == 0 && v / 2 ^ 35 % 2 == 0 && decide (v / 2 ^ 32 % 8 ≤ 5) && v % 2 ^ 32 != 0 else v == 0
  fieldAt bs 0 4 == 0x4C41554E && decide (1 ≤ l.levels.length) && decide (l.levels.length ≤ 8) && l.dies != 0
    && fieldAt bs 6 2 / 4 == 0 && decide (128 ≤ l.regs) && decide (l.regs ≤ 1024) && l.regs % 32 == 0 && decide (l.spawnSeats ≤ 15)
    && decide (l.barriers ≤ 16) && l.scratch % 128 == 0 && decide (l.scratch ≤ 2 ^ 22) && l.ownBytes % 4 == 0
    && decide (l.ownBytes ≤ 65536) && (l.trapVec == 0xFFFFFFFF || (l.trapVec % 4 == 0 && decide (l.trapVec < imageSize)))
    && (l.binTimer == 0 || (decide (32 ≤ l.binTimer) && decide (l.binTimer ≤ 65535))) && fieldAt bs 0x1C 4 == 0
    && (List.range 16).all q && (List.range 8).all lv && (bs.drop 0xA0).all (· == 0)

/-- Each domain code at least the next (R102). -/
def falling : List Nat → Bool
  | a :: b :: r => decide (b ≤ a) && falling (b :: r)
  | _ => true

/-- A launch record is valid (R102, R319). -/
def launchValid (bs : List Byte) (imageSize : Nat) : Bool :=
  let l := parseLaunch bs
  let one (d sc lo hi : Nat) : Bool :=
    decide ((levelsOf l d).length ≤ 1) && (levelsOf l d).all (fun v => v.scope == sc && decide (lo ≤ v.extent) && decide (v.extent ≤ hi))
  let big := 2 ^ 32
  launchFields bs imageSize && falling (l.levels.map (·.domain))
    && one 0 0 1 32 && (l.levels.getLast?.map (·.domain)) == some 0 && one 1 1 1 64 && one 2 2 1 big && (levelsOf l 2).length == 1
    && one 3 3 1 4 && one 4 4 (boundDies l).length (boundDies l).length
    && decide ((levelsOf l 5).length ≤ 3) && (levelsOf l 5).all (fun v => decide (5 ≤ v.scope))
    && decide (claimBytes l ≤ 2 ^ 22) && (newPositions [] (extentOf l 1) l.spawnSeats).isSome
    && decide ((l.queues.map noteBytes).sum ≤ l.scratch) && decide (classCount l < 2 ^ 48)

/-- Extents of the device-domain levels inside level N, innermost first (R103). -/
def innerDevice (l : Launch) (n : Nat) : Nat := (((l.levels.drop (n + 1)).filter (fun v => v.domain == 5)).map (·.extent)).foldl (· * ·) 1

/-- The coordinate of level N for class i, troupe t and lane (R103). -/
def coordAt (l : Launch) (i t lane n : Nat) : Nat :=
  let e4 := extentOf l 4
  let e3 := extentOf l 3
  let e2 := extentOf l 2
  let v := l.levels.getD n ⟨0, 0, 0⟩
  match v.domain with
  | 0 => lane
  | 1 => t
  | 2 => i / (e4 * e3) % e2
  | 3 => i / e4 % e3
  | 4 => i % e4
  | _ => i / (e4 * e3 * e2) / innerDevice l n % v.extent

/-- The coordinate words of a thread (R103). -/
def coordsOf (l : Launch) (i t lane : Nat) : Table Word :=
  (List.range l.levels.length).foldl (fun c n => tset 0 c n (BitVec.ofNat 32 (coordAt l i t lane n))) []

/-- The die that owns class i (R105). -/
def ownerDie (l : Launch) (i : Nat) : Nat :=
  let ds := boundDies l
  ds.getD (i % ds.length) 0

/-- The units of a program that a die owns, in ascending index (R105, R107): a gang goes with its first member (log 29, DEDUCED). -/
def unitsOf (rid : Nat) (l : Launch) (die : Nat) : List UnitOfWork :=
  let e4 := extentOf l 4
  let e3 := extentOf l 3
  let gang := !(levelsOf l 3).isEmpty
  ((List.range (classCount l)).filter (fun i => ownerDie l i == die && (!gang || i / e4 % e3 == 0))).map (fun i =>
    ⟨rid, if gang then (List.range e3).map (fun c => i + c * e4) else [i]⟩)

/-! ## What a core holds (R106) -/

/-- Classes placed on a core. -/
def classesOn (s : State) (core : Nat) : List (Nat × Cls) := s.classes.filter (fun e => e.2.placed && coreOfCls e.2 == core)

/-- Positions taken on a core. -/
def takenOn (s : State) (core : Nat) : List Nat := (classesOn s core).flatMap (fun e => e.2.troupePos ++ e.2.spawnPos)

/-- Cores on which a context has a class. -/
def coresOf (s : State) (ctx : Nat) : List Nat :=
  ((s.classes.filter (fun e => e.2.placed && e.2.ctx == ctx)).map (fun e => coreOfCls e.2)).eraseDups

/-- Bytes of the segments of a class (R150). -/
def segmentBytes (l : Launch) : Nat := 32 * l.ownBytes * (extentOf l 1 + 4 * l.spawnSeats)

def Ctx.blank : Ctx := ⟨0, false, 0, 0, 0, 0, 0, 0, 0, [], false, false, 0, 0, 0, 0, [], [], []⟩

/-- A context's quotas and what it has (R47). -/
def ctxOf (s : State) (ctx : Nat) : Ctx := tget Ctx.blank s.ctxs ctx

/-- A number of bytes more keeps a context within MEMQUOTA; 0 is no limit (R47). -/
def withinQuota (s : State) (ctx n : Nat) : Bool :=
  let c := ctxOf s ctx
  c.memQuota == 0 || decide (c.memUsed + n ≤ c.memQuota)

/-- The conditions of R106 but for positions and MEMQUOTA. -/
def coreServes (s : State) (l : Launch) (ctx core : Nat) : Bool :=
  let cs := classesOn s core
  let ls := cs.map (fun e => launchOf s e.1)
  !s.vacant.contains core
    && decide ((ls.map claimBytes).sum + claimBytes l ≤ 2 ^ 22)
    && decide ((ls.map (·.barriers)).sum + l.barriers ≤ 64)
    && !(l.matrix && ls.any (·.matrix))
    && (cs.any (fun e => e.2.ctx == ctx) || decide ((coresOf s ctx).length + 1 ≤ (ctxOf s ctx).coreQuota))

/-- Pages of one troupe's segments: each starts on a page of its own (R150; log 9, DESIGN CHOICE). -/
def segmentPages (l : Launch) : Nat := (32 * l.ownBytes + 4095) / 4096

/-- Who holds the pages of a class's segments. -/
def segmentOwner (ck : Nat) : Nat := 2 * ck + 1

/-- The reserved part has room on a die for the segments of a class (R90, R150). -/
def segmentsFit (s : State) (l : Launch) (die : Nat) : Bool :=
  let n := segmentPages l * (extentOf l 1 + 4 * l.spawnSeats)
  n == 0 || (takeReserved s n (8 + die) 0).isSome

/-- The positions a new or relaunched class takes on a core, if it fits (R106); a first placement in a launch is charged. -/
def fitNew (s : State) (rid core : Nat) (charged : Bool) : Option (List Nat × List Nat) :=
  let r := residentAt s rid
  if coreServes s r.launch r.ctx core
      && (charged || (withinQuota s r.ctx (segmentBytes r.launch) && segmentsFit s r.launch (core / 64))) then
    newPositions (takenOn s core) (extentOf r.launch 1) r.launch.spawnSeats
  else none

/-- A pre-empted class fits where its own positions are free (R106). -/
def fitAgain (s : State) (ck core : Nat) : Bool :=
  let c := clsAt s ck
  let r := residentAt s c.rid
  coreServes s r.launch r.ctx core && (c.troupePos ++ c.spawnPos).all (fun p => !(takenOn s core).contains p)

/-! ## Placing a class (R104, R106) -/

/-- Everything of a class's threads and storage back to nothing, and no line tagged read-only for it (R104, R157). -/
def wipeClass (s : State) (ck : Nat) : State :=
  { s with regs := s.regs.filter (fun e => e.1 / 2 ^ 21 != ck), cregs := s.cregs.filter (fun e => e.1 / 8 != ck),
           cregSeq := s.cregSeq.filter (fun e => e.1 / 32 != ck), cregLast := s.cregLast.filter (fun e => e.1 / 8 != ck), timelines := s.timelines.filter (fun e => e.1 / 8 != ck),
           scratch := s.scratch.filter (fun e => e.1 / 2 ^ 32 != ck), absent := s.absent.filter (fun e => e.1 / 2 ^ 25 != ck),
           troupes := s.troupes.filter (fun e => e.1 / 64 != ck), threads := s.threads.filter (fun e => e.1 / 2048 != ck),
           ended := s.ended.filter (fun e => e.1 / 2048 != ck), bins := s.bins.filter (fun e => e.2.ck != ck),
           badRegs := s.badRegs.filter (fun k => k / 2 ^ 21 != ck), badScratch := s.badScratch.filter (fun k => k / 2 ^ 32 != ck),
           l1 := s.l1.map (fun e => if e.2.ro.contains ck then (e.1, { e.2 with ro := e.2.ro.filter (· != ck) }) else e) }

/-- One troupe of a class started (R103, R104). -/
def startTroupe (s : State) (ck t p : Nat) : State :=
  let c := clsAt s ck
  let r := residentAt s c.rid
  let e := extentOf r.launch 0
  let tr : Troupe := { Troupe.blank with lmask := maskOf (List.range e), coord := BitVec.ofNat 32 t, order := t }
  (List.range e).foldl (fun s l =>
      setThread s (tkey ck p l) (startThread r.launch (BitVec.ofNat 64 (r.imageVa + r.entry)) (coordsOf r.launch c.idx t l)
        (coreCycle s (coreOfCls c))))
    { s with troupes := tput s.troupes (pkey ck p) tr }

/-- Segments for the positions of a class: those it has, in the same order, or new ones from the reserved part, charged to its context
(R150; log 9, DESIGN CHOICE). -/
def giveSegments (s : State) (c : Cls) (die : Nat) : State × Cls :=
  let l := (residentAt s c.rid).launch
  let ps := c.troupePos ++ c.spawnPos
  let pages := segmentPages l
  let put (f : Nat → Nat) : Table Nat := (List.range ps.length).foldl (fun t k => tput t (ps.getD k 0) (f k)) []
  if c.segBase.isEmpty then
    let q := (takeReserved s (pages * ps.length) (8 + die) (segmentOwner (ckOf c.rid c.idx))).getD (s, 0)
    ({ q.1 with ctxs := tupd q.1.ctxs c.ctx (fun x => { x with memUsed := x.memUsed + segmentBytes l }) },
     { c with segBase := put (fun k => q.2 + k * pages * 4096), segDie := die })
  else
    let bases := c.segBase.map (·.2)
    (s, { c with segBase := put (fun k => bases.getD k 0) })

/-- A class starts from R104 on a core, at the given positions. Dirty lines of the core's L1 are at their homes before its first thread starts (R147), and it
finds no line there that was filled before it was placed (R157). -/
def startClass (s : State) (rid idx core : Nat) (pos : List Nat × List Nat) (restart : Word) : State :=
  let ck := ckOf rid idx
  let r := residentAt s rid
  let old := clsAt s ck
  let c : Cls :=
    { Cls.blank with rid := rid, ctx := r.ctx, idx := idx, die := core / 64, core := core % 64, placed := true, seq := s.placeSeq,
                     restart := restart, troupePos := pos.1, spawnPos := pos.2, coords := coordsOf r.launch idx 0 0,
                     segBase := old.segBase, segDie := old.segDie }
  let q := giveSegments (wipeClass s ck) c (core / 64)
  let s := { q.1 with classes := tput q.1.classes ck q.2, placeSeq := s.placeSeq + 1 }
  let s := (q.2.segBase.map (·.1)).foldl (fun s p => clearSegment s ck p) s
  let s := arriveAt (if r.launch.matrix then setMatrix s core Matrix.blank else s) core
  evictFree ((List.range pos.1.length).foldl (fun s t => startTroupe s ck t (pos.1.getD t 0)) s)

/-- The key of a class's bin n that is in no core's bin; `k` tells several of one number apart. -/
def asideKey (ck n k : Nat) : Nat := (1024 + ck) * 16 + n + k * 2 ^ 128

/-- A bin of a class put aside under a key that none has. -/
def putAside (s : State) (ck n : Nat) (b : Bin) : State :=
  let k := ((List.range (s.bins.length + 1)).find? (fun k => (tfind s.bins (asideKey ck n k)).isNone)).getD 0
  { s with bins := tput s.bins (asideKey ck n k) b }

/-- A bin is in no core's bin. -/
def isAside (e : Nat × Bin) : Bool := decide (1024 ≤ e.1 / 16)

/-- The bins of a class that leaves its core, those that stayed aside when it came there among them, with what remains of their timers (R120). -/
def binsAside (s : State) (ck : Nat) : State :=
  let now := coreCycle s (coreOf s ck)
  (s.bins.filter (fun e => e.2.ck == ck)).foldl (fun s e =>
    let b : Bin := { e.2 with until_ := e.2.until_ - now }
    if isAside e then { s with bins := tput s.bins e.1 b } else putAside { s with bins := tdel s.bins e.1 } ck (e.1 % 16) b) s

/-- Those bins on the core where the class resumes: the same number, else the lowest empty one of its section, else still aside, where it
fills and launches as before (log 34, DESIGN CHOICE). -/
def binsBack (s : State) (ck core : Nat) : State :=
  (s.bins.filter (fun e => e.2.ck == ck && isAside e)).foldl (fun s e =>
    let n := e.1 % 16
    let home := ((n :: (List.range 4).map (fun k => 4 * k + n % 4)).find? (fun b => (binAt s core b).isNone)).map (core * 16 + ·)
    { s with bins := tput (tdel s.bins e.1) (home.getD e.1) { e.2 with until_ := e.2.until_ + coreCycle s core } }) s

/-- A pre-empted class placed again where it fits, as it stood; its matrix unit is restored and its FIFO requests are replayed from
the first unconsumed byte (R119, R209). Its save block is free (R120). It finds no line there older than what it has seen (R167). -/
def resumeClass (s : State) (ck core : Nat) : State :=
  let c := clsAt s ck
  let s := { s with
    classes := tput s.classes ck { c with die := core / 64, core := core % 64, placed := true, savedMatrix := none, save := none },
    ctxs := tupd s.ctxs c.ctx (fun x => { x with saveBlocks := x.saveBlocks.filter (fun b => some b != c.save) }),
    reqs := s.reqs.map (fun e => if e.2.ck = ck ∧ e.2.blk.dest = 2 then (e.1, { e.2 with core := core }) else e),
    cregLast := s.cregLast.filter (fun e => e.1 / 8 != ck) }
  let s := arriveAt s core
  let s := if (launchOf s ck).matrix then setMatrix s core (c.savedMatrix.getD Matrix.blank) else s
  let s := binsBack s ck core
  let tks := (s.threads.filter (fun e => ckOfT e.1 == ck)).map (·.1)
  evictFree (tks.foldl (fun s tk => becomesReady s tk id) s)

/-! ## Marks of a program (R67, R70, R373) -/

/-- Blocked records, and a retirement that waits for a core to empty, get a pass (R65, R81). -/
def wakeCarried (s : State) : State :=
  if s.book.any (fun e => e.2.stand.state == .blocked || (recKind (e.2.want.getD []) == 7 && !e.2.plan.isEmpty)) then { s with wake := true }
  else s

/-- An index has been placed, for marks and for POLICY: progress, and CONVERGED once every class has been placed (R67, R70). -/
def countPlaced (s : State) (rid idx : Nat) : State :=
  let r := residentAt s rid
  if r.placedOnce.contains idx then s
  else
    let s := updResident s rid (fun r => { r with placedOnce := r.placedOnce ++ [idx] })
    let e := entryAt s rid
    let d := r.placedOnce.length + 1
    if e.stand.state = .converging ∧ e.stand.step = 2 then
      (if d = r.n then wakeCarried (markAs s rid .converged 3 0 0 0)
       else
         let shown := (thresholds r.n).contains d && !recQuiet (wantOf s rid)
         progressMark (if shown then updResident s rid (fun r => { r with marked := d }) else s) rid .converging 2 0 d r.n)
    else s

/-- Units handed to the ushers of the bound dies; an idle usher steals again (R105, R108). Note-queue rings are empty (R318). -/
def handOver (s : State) (rid : Nat) : State :=
  let l := (residentAt s rid).launch
  (boundDies l).foldl (fun s d => updUsher s d (fun u => { u with queue := u.queue ++ unitsOf rid l d, idle := false }))
    { s with noteQueues := s.noteQueues.filter (fun e => e.1 / 128 != rid) }

/-- An index has ended: POLICY, when every class has (R109). -/
def countEnded (s : State) (rid : Nat) : State :=
  let s := updResident s rid (fun r => { r with ended := r.ended + 1 })
  let r := residentAt s rid
  if r.ended < r.n ∨ r.policy = 2 then s
  else if r.policy = 0 then markAs s rid .complete 3 0 0 0
  else
    handOver (updResident s rid (fun r => { r with restart := r.restart + 1, placedOnce := [], ended := 0, kills := [] })) rid

/-- The entry that a killed class awaits is written, or will not be (R210). -/
def entryWritten (s : State) (r : Resume) : Bool :=
  match r.awaits with
  | none => true
  | some va => (let w := peekWalk s (clsAt s r.ck).ctx va.toNat .read; !(walkParks w && resolvable s (clsAt s r.ck).ctx va.toNat w))

/-- Killed classes whose entries are written join their ushers' resume lists (R210). -/
def joinWritten (s : State) : State :=
  { s with ushers := s.ushers.map (fun e =>
      let xs := e.2.killed.filter (entryWritten s)
      if xs.isEmpty then e
      else (e.1, { e.2 with killed := e.2.killed.filter (fun r => !entryWritten s r),
                            resume := e.2.resume ++ xs.map (fun r => { r with awaits := none }), idle := false })) }

/-- An entry joins a die's resume list. -/
def joinResume (s : State) (die : Nat) (x : Resume) : State := updUsher s die (fun u => { u with resume := u.resume ++ [x], idle := false })

/-- Classes of a record that pausing waits for: those of its program or context that are still placed (R63, R118). -/
def toHold (s : State) (id : Nat) : Nat := (s.classes.filter (fun e => e.2.placed && (e.2.rid == id || e.2.ctx == id))).length

/-- A record that pauses, step 0x20: progress, and CONVERGED once every class is off its core (R63). -/
def pauseProgress (s : State) (id : Nat) : State :=
  let e := (entryAt s id).stand
  if e.state = .converging ∧ e.step = 0x20 then
    (if toHold s id = 0 then wakeCarried (markAs s id .converged 0x20 0 e.total e.total)
     else progressMark s id .converging 0x20 0 (e.total - toHold s id) e.total)
  else s

/-- A class has left its core: a pause of its program or its context may be complete. -/
def pauseStep (s : State) (rid ctx : Nat) : State := pauseProgress (pauseProgress s rid) ctx

/-! ## CLASS_PLACE (R107, R118) -/

/-- A class's program, or its context, is paused, or a snapshot holds the context (R77, R118). -/
def isHeld (s : State) (rid : Nat) : Bool :=
  (residentAt s rid).held || (ctxOf s (residentAt s rid).ctx).held || snapHolds s (residentAt s rid).ctx

/-- A resume entry can be tried: nothing holds it (R118). -/
def canTry (s : State) (r : Resume) : Bool := !isHeld s (ridOf r.ck)

/-- The unit for which classes were pre-empted still waits here, and nothing holds it. -/
def handWaits (s : State) (u : Usher) : Head → Bool
  | .resume r => u.resume.contains r && canTry s r
  | .unit x => u.queue.contains x && !isHeld s x.rid

/-- The usher's next unit (R107): the one for which classes were pre-empted, else the resume list's first, else the sequence's (log 41, DEDUCED). -/
def headOf (s : State) (u : Usher) : Option Head :=
  (u.hand.filter (handWaits s u)).or
    (match u.resume.find? (canTry s) with
     | some r => some (.resume r)
     | none => (u.queue.find? (fun x => !isHeld s x.rid)).map .unit)

/-- Engine operations of a class that have not completed: it is not placed again before they have (R119). -/
def unfinished (s : State) (ck : Nat) : Bool :=
  s.reqs.any (fun e => e.2.ck == ck && e.2.blk.dest != 2 && !e.2.completed) || s.fabOps.any (fun e => e.2.ck == ck)

/-- The cores of a die from its round-robin position. -/
def coresFrom (die rr : Nat) : List Nat := (List.range 64).map (fun k => coreKey die ((rr + k) % 64))

/-- What cw.restart is for a class: relaunches of the program and of the class by itself (R109, R211). -/
def restartOf (s : State) (rid idx : Nat) : Word := (residentAt s rid).restart + tget 0 (residentAt s rid).bumps idx

/-- One class of an index placed on the first of some cores that fits. -/
def placeOn (s : State) (rid idx : Nat) : List Nat → Option (State × Nat)
  | [] => none
  | c :: r =>
    match fitNew s rid c (!(clsAt s (ckOf rid idx)).segBase.isEmpty) with
    | some pos => some (startClass s rid idx c pos (restartOf s rid idx), c)
    | none => placeOn s rid idx r

/-- The members of a gang placed on cores of one cluster, in ascending index (R107). -/
def placeGang (s : State) (rid : Nat) (cores : List Nat) : List Nat → Option State
  | [] => some s
  | i :: r =>
    match placeOn s rid i cores with
    | some (s, _) => placeGang s rid cores r
    | none => none

/-- The clusters of a die from the one that holds its round-robin position. -/
def clustersFrom (die rr : Nat) : List (List Nat) :=
  (List.range 16).map (fun k => (List.range 4).map (fun j => coreKey die ((rr / 4 + k) % 16 * 4 + j)))

/-- A unit placed on a die: the state and the core after which the round-robin position stands; none where it does not fit. -/
def tryPlace (s : State) (die : Nat) : Head → Option (State × Nat)
  | .resume r =>
    if unfinished s r.ck then none
    else if r.relaunch then
      placeOn s (ridOf r.ck) (r.ck % 2 ^ 48) (coresFrom die (usherAt s die).rr)
    else
      ((coresFrom die (usherAt s die).rr).find? (fitAgain s r.ck)).map (fun c => (resumeClass s r.ck c, c))
  | .unit u =>
    let r := residentAt s u.rid
    if (levelsOf r.launch 3).isEmpty then
      (match u.members with
       | [] => none
       | i :: _ => placeOn s u.rid i (coresFrom die (usherAt s die).rr))
    else
      (clustersFrom die (usherAt s die).rr).findSome? (fun cl => (placeGang s u.rid cl u.members).map (fun s => (s, cl.getD 3 0)))

/-- The usher's lists without the unit placed, and the position moved on (R107). -/
def afterPlace (s : State) (die core : Nat) (h : Head) : State :=
  updUsher s die (fun u =>
    { u with resume := (match h with | .resume r => u.resume.erase r | .unit _ => u.resume),
             queue := (match h with | .unit x => u.queue.erase x | .resume _ => u.queue), rr := (core % 64 + 1) % 64, hand := none })

/-- Indices that a placement counts for the mark. -/
def placedIdx : Head → List Nat
  | .resume r => [r.ck % 2 ^ 48]
  | .unit u => u.members

/-- The program of a unit. -/
def ridOfHead : Head → Nat
  | .resume r => ridOf r.ck
  | .unit u => u.rid

/-- A class's priority (R118). -/
def priorityOf (s : State) (rid : Nat) : Nat := min (residentAt s rid).priority (ctxOf s (residentAt s rid).ctx).priority

/-- Bytes of a class's save block, in 4 KiB units (R120). -/
def saveBytes (s : State) (ck : Nat) : Nat :=
  let l := launchOf s ck
  let n := (s.troupes.filter (fun e => e.1 / 64 == ck)).length
  let own := extentOf l 1
  let n := max n own
  (128 + 256 + n * (8320 + 128 * l.regs) + 16 * 1040 + l.scratch + (if l.matrix then 53760 else 0) + 4095) / 4096 * 4096

/-- The first place in a context's save area with room for `n` bytes (R120). -/
def saveFit (s : State) (ctx n : Nat) : Option Nat :=
  let c := ctxOf s ctx
  (((List.range (c.saveSize / 4096 + 1)).map (· * 4096)).find? (fun o =>
    decide (o + n ≤ c.saveSize) && c.saveBlocks.all (fun b => !rangesMeet o n b.1 b.2)))

/-- Room set aside for a class's save block, first fit (R120); none where its save area lacks it. -/
def setAside (s : State) (ck : Nat) : Option State :=
  let ctx := (clsAt s ck).ctx
  (saveFit s ctx (saveBytes s ck)).map (fun o =>
    let b := (o, saveBytes s ck)
    { updCls s ck (fun c => { c with save := some b }) with ctxs := tupd s.ctxs ctx (fun x => { x with saveBlocks := x.saveBlocks ++ [b] }) })

/-- Room for the blocks of several classes at once. -/
def setAsideAll (s : State) : List Nat → Option State
  | [] => some s
  | ck :: r => (setAside s ck).bind (fun s => setAsideAll s r)

/-- Victims on one core: lower priority than `p`, ranked lowest priority first, then newest; never one for which the save area lacks room beside
those ranked before it (R118). -/
def ranking (s : State) (core p : Nat) : List Nat :=
  let vs := (classesOn s core).filter (fun e => decide (priorityOf s e.2.rid < p) && !e.2.stopping)
  let key (e : Nat × Cls) : Nat := priorityOf s e.2.rid * 2 ^ 64 + (2 ^ 64 - 1 - e.2.seq)
  let rec go : Nat → List (Nat × Cls) → List Nat
    | 0, _ => []
    | f + 1, xs =>
      match minBy id (xs.map key) with
      | none => []
      | some m => ((xs.filter (fun e => key e == m)).map (·.1)) ++ go f (xs.filter (fun e => key e != m))
  ((go (vs.length + 1) vs).foldl (fun q ck => match setAside q.1 ck with | some s => (s, q.2 ++ [ck]) | none => q) (s, [])).2

/-- The state with some classes off their cores. -/
def without (s : State) (ks : List Nat) : State :=
  { s with classes := s.classes.map (fun e => if ks.contains e.1 then (e.1, { e.2 with placed := false }) else e) }

/-- The shortest prefix of a ranking after which the unit fits on this core, or in its cluster (R118). -/
def victimsOn (s : State) (die core : Nat) (h : Head) : Option (List Nat) :=
  let vs := ranking s core (priorityOf s (ridOfHead h))
  let fits (s : State) : Bool :=
    match h with
    | .resume r => !unfinished s r.ck && (if r.relaunch then (placeOn s (ridOf r.ck) (r.ck % 2 ^ 48) [core]).isSome else fitAgain s r.ck core)
    | .unit u =>
      if (levelsOf (residentAt s u.rid).launch 3).isEmpty then (placeOn s u.rid (u.members.headD 0) [core]).isSome
      else (placeGang s u.rid ((List.range 4).map (fun j => coreKey die (core % 64 / 4 * 4 + j))) u.members).isSome
  ((List.range vs.length).map (fun k => vs.take (k + 1))).find? (fun ks => fits (without s ks))

/-- A class that is to leave its core has room for its save block, set aside or to be had (R118). -/
def canLeave (s : State) (e : Nat × Cls) : Bool := e.2.save.isSome || (saveFit s e.2.ctx (saveBytes s e.1)).isSome

/-- CLASS_PLACE: the usher places its next unit, or the reconciler chooses victims for it, or it waits (R107, R118). -/
def execClassPlace (die : Nat) (s : State) : Out :=
  if !running s ∨ 8 ≤ die then .next s
  else
    match headOf s (usherAt s die) with
    | none => .next s
    | some h =>
      match tryPlace s die h with
      | some (s', core) => .next ((placedIdx h).foldl (fun s i => countPlaced s (ridOfHead h) i) (afterPlace s' die core h))
      | none =>
        if s.classes.any (fun e => e.2.placed && e.2.stopping && e.2.die == die && canLeave s e) then .next s
        else
          match (coresFrom die (usherAt s die).rr).findSome? (fun c => victimsOn s die c h) with
          | none => .next (if (usherAt s die).hand.isSome then updUsher s die (fun u => { u with hand := none }) else s)
          | some vs =>
            let s := (setAsideAll s vs).getD s
            let s := { s with classes := s.classes.map (fun e => if vs.contains e.1 then (e.1, { e.2 with stopping := true }) else e) }
            .next (updUsher s die (fun u => { u with hand := some h }))

/-! ## STEAL (R108) -/

/-- A program binds a die. -/
def binds (s : State) (rid die : Nat) : Bool := (boundDies (residentAt s rid).launch).contains die

/-- The unit that a victim gives: the last of its sequence among those allowed, never the one it is trying to place (R108). -/
def gift (s : State) (victim : Nat) (ok : UnitOfWork → Bool) : Option UnitOfWork :=
  let u := usherAt s victim
  let trying : Option UnitOfWork :=
    match headOf s u with
    | some (.unit x) => some x
    | _ => none
  (u.queue.filter (fun x => ok x && some x != trying)).getLast?

/-- Steal requests to the other dies in cyclic order: the first unit given, and by whom. -/
def askAround (s : State) (die : Nat) (ok : UnitOfWork → Bool) : Option (Nat × UnitOfWork) :=
  ((List.range 7).map (fun k => (die + k + 1) % 8)).findSome? (fun v => (gift s v ok).map (fun x => (v, x)))

/-- A unit moved from a victim's sequence to a thief's. -/
def moveUnit (s : State) (die v : Nat) (x : UnitOfWork) : State :=
  updUsher (updUsher s v (fun u => { u with queue := u.queue.erase x })) die (fun u => { u with queue := u.queue ++ [x], idle := false })

/-- STEAL: an empty usher asks the other dies; one that receives nothing stops (R108). -/
def execSteal (die : Nat) (s : State) : Out :=
  let u := usherAt s die
  if !running s ∨ 8 ≤ die ∨ !u.resume.isEmpty ∨ !u.queue.isEmpty ∨ u.idle then .next s
  else
    match askAround s die (fun x => binds s x.rid die) with
    | some (v, x) => .next (moveUnit s die v x)
    | none => .next (updUsher s die (fun u => { u with idle := true }))

/-! ## CLASS_END (R109) -/

/-- A class has ended: threads, bins, engine operations and loops are all done (R109). -/
def classDone (s : State) (ck : Nat) : Bool :=
  let m := matrixAt s (coreOf s ck)
  (clsAt s ck).placed && !(s.threads.any (fun e => ckOfT e.1 == ck)) && !(s.bins.any (fun e => e.2.ck == ck))
    && !(s.reqs.any (fun e => e.2.ck == ck && !e.2.completed)) && !(s.fabOps.any (fun e => e.2.ck == ck))
    && !(s.ushers.any (fun e => e.2.fetches.any (fun f => f.ck == ck)))
    && (!(launchOf s ck).matrix || (m.loops.isEmpty && m.acts.isEmpty))

/-- A class off its core for good: its storage, requests and segments go, and its matrix unit is free. -/
def removeClass (s : State) (ck : Nat) : State :=
  let c := clsAt s ck
  let l := launchOf s ck
  let core := coreOfCls c
  let s := if c.placed && l.matrix then setMatrix s core Matrix.blank else s
  let s := freeReserved (wipeClass s ck) (segmentOwner ck)
  { s with classes := tdel s.classes ck, reqs := s.reqs.filter (fun e => e.2.ck != ck),
           ctxs := tupd s.ctxs c.ctx (fun x =>
             { x with memUsed := if c.segBase.isEmpty then x.memUsed else x.memUsed - segmentBytes l,
                      saveBlocks := x.saveBlocks.filter (fun b => some b != c.save) }) }

/-- A class of an index relaunches by itself: its cw.restart advances by 1 (R109, R211). -/
def bump (idx : Nat) (r : Resident) : Resident := { r with bumps := tset 0 r.bumps idx (tget 0 r.bumps idx + 1) }

/-- CLASS_END: resources return to the core, and POLICY applies (R109). -/
def execClassEnd (ck : Nat) (s : State) : Out :=
  if !running s || !classDone s ck then .next s
  else
    let c := clsAt s ck
    let r := residentAt s c.rid
    let s := removeClass s ck
    if r.policy = 2 then
      let again : Cls := { Cls.blank with rid := c.rid, ctx := c.ctx, idx := c.idx }
      let s := updResident s c.rid (bump c.idx)
      .next (pauseStep (wakeCarried (joinResume { s with classes := tput s.classes ck again } (ownerDie r.launch c.idx) ⟨ck, true, none⟩)) c.rid c.ctx)
    else .next (pauseStep (wakeCarried (countEnded s c.rid)) c.rid c.ctx)

/-! ## Kills (R109, R144, R210, R211, R373) -/

/-- Requests of a class drain: what can move does, in the order of issue (R210). -/
def drainReqs (s : State) (ck : Nat) : State :=
  let ids := (s.reqs.filter (fun e => e.2.ck == ck && e.2.blk.dest != 2)).map (fun e => (e.1, totalOf e.2))
  ids.foldl (fun s x =>
    let s := match tfind s.reqs x.1 with
      | some r => if r.begun then s else beginReq s x.1 r
      | none => s
    match tfind s.reqs x.1 with
    | some r => if r.begun then moveBytes x.1 (x.2 + 2) s else s
    | none => s) s

/-- Every class of a program killed and out of the ushers (R109). -/
def killClasses (s : State) (rid : Nat) : State :=
  let cks := (s.classes.filter (fun e => e.2.rid == rid)).map (·.1)
  let s := cks.foldl (fun s ck => removeClass (drainReqs s ck) ck) s
  { s with ushers := s.ushers.map (fun e =>
      (e.1, { e.2 with queue := e.2.queue.filter (fun u => u.rid != rid), resume := e.2.resume.filter (fun x => ridOf x.ck != rid),
                       killed := e.2.killed.filter (fun x => ridOf x.ck != rid),
                       fetches := e.2.fetches.filter (fun f => ridOf f.ck != rid) })),
           issue := s.issue.bind (fun g => if ridOf g.ck = rid then none else some g) }

/-- The STEP, DONE and TOTAL that a kill reports: those of the last mark of that step (R373; log 47, DEDUCED). -/
def killStep (r : Resident) : Nat × Nat × Nat := if r.placedOnce.length < r.n then (2, r.marked, r.n) else (3, 0, 0)

/-- RESIDENT_KILL: every class is killed and the mark is FAULTED with the reason (R144, R211, R341, R373). -/
def execResidentKill (rid : Nat) (s : State) : Out :=
  match tfind s.residents rid, running s with
  | some r, true =>
    (match r.killPending with
     | none => .next s
     | some reason =>
       let k := killStep r
       let s := killClasses s rid
       let s := { s with residents := tdel s.residents rid, noteQueues := s.noteQueues.filter (fun e => e.1 / 128 != rid) }
       .next (pauseProgress (wakeCarried (markAs s rid .faulted k.1 reason.toNat k.2.1 k.2.2)) r.ctx))
  | _, _ => .next s

/-- FIFO_FEED_FAULT: a FIFO-bound request has met a fault. One that the reconciler resolves kills and relaunches its class; a third such
kill, or one in a program that is not RESTARTABLE, kills the program with RELAUNCH_LIMIT; any other fault kills it with 0x0404 (R210,
R211). -/
def execFifoFeedFault (req : Nat) (s : State) : Out :=
  match tfind s.reqs req with
  | none => .next s
  | some r =>
    match r.waits, running s && r.blk.dest == 2 && active s r.ck with
    | some (va, _), true =>
      let c := clsAt s r.ck
      let rs := residentAt s c.rid
      let w := if inAperture va.toNat then .bad else peekWalk s c.ctx va.toNat .read
      let fatal : Bool :=
        match w with
        | .leaf e lv _ => linkDenied s (placeOf e lv va.toNat)
        | .miss => !resolvable s c.ctx va.toNat w
        | .migrating => false
        | _ => true
      let k := tget 0 rs.kills c.idx + 1
      if fatal then .next (condemn s c.rid 0x0404)
      else if !rs.launch.restartable ∨ 3 ≤ k then .next (condemn s c.rid rRELAUNCH_LIMIT)
      else
        let s := drainReqs s r.ck
        let s := setMatrix s (coreOfCls c) Matrix.blank
        let s := wipeClass { s with reqs := s.reqs.filter (fun e => !(e.2.ck == r.ck && e.2.blk.dest == 2)) } r.ck
        let s := updCls s r.ck (fun c => { c with placed := false, stopping := false, barSlots := [], save := none })
        let s := updResident s c.rid (fun x => bump c.idx { x with kills := tset 0 x.kills c.idx k })
        let s := { s with issue := s.issue.bind (fun g => if g.ck = r.ck then none else some g),
                          ctxs := tupd s.ctxs c.ctx (fun x => { x with saveBlocks := x.saveBlocks.filter (fun b => some b != c.save) }) }
        let s := updUsher s (ownerDie rs.launch c.idx) (fun u => { u with killed := u.killed ++ [⟨r.ck, true, some va⟩] })
        .next (pauseStep (wakeCarried s) c.rid c.ctx)
    | _, _ => .next s

/-! ## FETCHW_ANSWER (R113) -/

/-- The mark of a program stands at STEP 0x02 or 0x03, with its classes (R113). -/
def fetchable (s : State) (rid : Nat) : Bool :=
  let e := (entryAt s rid).stand
  (tfind s.residents rid).isSome && (e.step == 2 || e.step == 3) && [MarkState.converging, .converged, .complete].contains e.state

/-- The lowest-indexed class of a program taken out of a sequence. -/
def withdraw (rid : Nat) : List UnitOfWork → Option (Nat × List UnitOfWork)
  | [] => none
  | u :: r =>
    if u.rid = rid then
      match u.members with
      | [] => none
      | i :: m => some (i, if m.isEmpty then r else ⟨rid, m⟩ :: r)
    else (withdraw rid r).map (fun q => (q.1, u :: q.2))

/-- The coordinate words of the mailbox: class domain and wider, outermost first (R113). -/
def mailCoords (l : Launch) (i : Nat) : List Nat :=
  let ns := (List.range l.levels.length).filter (fun n => decide (2 ≤ (l.levels.getD n ⟨0, 0, 0⟩).domain))
  (ns.map (coordAt l i 0 0) ++ List.replicate 6 0).take 6

/-- The mailbox written: FLAG, zero and the coordinates (R113). -/
def writeMail (s : State) (f : Fetch) (flag : Nat) (cs : List Nat) : State :=
  writeScratch s f.ck f.mailbox (bytesOfNat 4 flag ++ bytesOfNat 4 0 ++ ((cs ++ List.replicate 6 0).take 6).flatMap (bytesOfNat 4))

/-- Which of the withdrawals on one mailbox is answered first: a free choice (R113; log 23, DESIGN CHOICE). -/
def nextFetch (s : State) (f : Fetch) (fs : List Fetch) : State × Fetch :=
  match fs.filter (fun g => g.ck == f.ck && g.mailbox == f.mailbox) with
  | _ :: _ :: _ =>
    let q := draw s
    let gs := fs.filter (fun g => g.ck == f.ck && g.mailbox == f.mailbox)
    (q.2, gs.getD (q.1 % gs.length) f)
  | _ => (s, f)

/-- FETCHW_ANSWER: the oldest withdrawal of a die is answered; the class withdrawn counts as placed and ended. An usher whose sequence
holds no class of the program first steals a unit of it (R113, R108). -/
def execFetchwAnswer (die : Nat) (s : State) : Out :=
  match (usherAt s die).fetches, running s with
  | first :: _, true =>
    let (s, f) := nextFetch s first (usherAt s die).fetches
    let s := updUsher s die (fun u => { u with fetches := u.fetches.erase f })
    if !fetchable s f.rid || (residentAt s f.rid).ctx != (clsAt s f.ck).ctx then .next (writeMail s f 3 [])
    else
      let s :=
        if (withdraw f.rid (usherAt s die).queue).isSome then s
        else
          match askAround s die (fun x => x.rid == f.rid && binds s x.rid die) with
          | some (v, x) => moveUnit s die v x
          | none => s
      (match withdraw f.rid (usherAt s die).queue with
       | none => .next (writeMail s f 2 [])
       | some (i, q) =>
         let s := updUsher s die (fun u => { u with queue := q })
         let s := writeMail s f 1 (mailCoords (residentAt s f.rid).launch i)
         let r := residentAt s f.rid
         .next (wakeCarried ((if r.policy = 2 then id else fun s => countEnded s f.rid) (countPlaced s f.rid i))))
  | _, _ => .next s

end Sys2Proof.Machine
end

