-- ==== Sys2Proof/Machine/Build.lean ====
section
/-! DEFINITION. What the build and teardown steps do to page tables, frames, mappings, windows and control blocks (R25, R26, R87 to R90,
R98, R99). -/

namespace Sys2Proof.Machine

/-! ## Page tables (R87, R88) -/

/-- A table page of a context, empty (R87). -/
def takeTable (s : State) (ctx : Nat) : Option (State × Nat) :=
  (takeReserved s 1 0 (2 * ctx)).map (fun q => (zeroRange q.1 q.2 4096, q.2))

/-- The reserved part has room for the table pages that a range may need (R65, R87; log 9, DESIGN CHOICE). -/
def tableRoom (s : State) (len : Nat) : Bool := decide (4 + len / 2 ^ 30 + len / 2 ^ 21 ≤ reservedLeft s)

/-- A leaf written at level `target`, with table pages from the reserved part where they are missing (R87). -/
def setLeaf (ctx target va e : Nat) : Nat → State → Nat → State
  | 0, s, _ => s
  | lv + 1, s, t =>
    let a := t + 8 * (va / 2 ^ (12 + 9 * lv) % 512)
    if lv = target then { s with dmem := wrNat s.dmem a 8 e }
    else
      let p := rdNat s.dmem a 8
      if eV p && !eR p && !eW p && !eX p then setLeaf ctx target va e lv s (ePFN p * 4096)
      else
        match takeTable s ctx with
        | some (s, n) => setLeaf ctx target va e lv { s with dmem := wrNat s.dmem a 8 (1 + n) } n
        | none => s

/-- The leaf that covers an address: entry, level and entry address. -/
def leafUnder (m : Memory) (va : Nat) : Nat → Nat → Option (Nat × Nat × Nat)
  | 0, _ => none
  | lv + 1, t =>
    let a := t + 8 * (va / 2 ^ (12 + 9 * lv) % 512)
    let e := rdNat m a 8
    if !eV e then none
    else if !eR e && !eW e && !eX e then leafUnder m va lv (ePFN e * 4096)
    else some (e, lv, a)

/-- The leaf of an address in a context. -/
def leafOf (s : State) (ctx va : Nat) : Option (Nat × Nat × Nat) := (rootOf s ctx).bind (leafUnder s.dmem va 4)

/-- A leaf entered in a context. -/
def enterLeaf (s : State) (ctx va lv e : Nat) : State :=
  match rootOf s ctx with
  | some root => setLeaf ctx lv va e 4 s root
  | none => s

/-- The leaf of an address taken out by a plain store of 0 (R95). -/
def dropLeaf (s : State) (ctx va : Nat) : State :=
  match leafOf s ctx va with
  | some (_, _, a) => { s with dmem := wrNat s.dmem a 8 0 }
  | none => s

/-! ## Mappings -/

/-- A mapping's body from a MAPPING record (R48), or the image of a RESIDENT: PHASED, interleaved, read-execute (R51, R89; log 29, DEDUCED). -/
def mapOf (r : Rec) : Map :=
  if recKind r = kResident then
    ⟨recParent r, rsImageVa r, rsImageSize r, rsSrcKind r, 0, 0, 5, 0, 0, rsImageSrc r, [], true, [], []⟩
  else
    ⟨recParent r, mpVa r, mpLen r, mpSrcKind r, mpClass r, if mpSrcKind r = 1 then 0 else mpPlace r, mpPerms r, mpPageSize r, mpDirty r,
     mpSource r, [], mpSrcKind r != 2, [], []⟩

/-- The mapping has no frames: its entries point at host memory (R64). -/
def onHost (m : Map) : Bool := m.srckind == 1 && m.mclass == 2

/-- Bytes of a unit of progress, and how many the range has (R48, R56). -/
def unitBytes (m : Map) : Nat := pageBytes m.pagesize
def unitCount (m : Map) : Nat := m.len / unitBytes m

/-- First virtual page of unit k. -/
def unitPage (m : Map) (k : Nat) : Nat := (m.va + k * unitBytes m) / 4096

/-- Pages of a unit. -/
def unitPages (m : Map) : Nat := unitBytes m / 4096

/-- The physical address behind a virtual page: its frame, or the host page (R48, R88). -/
def framePa (m : Map) (vp : Nat) : Nat := if onHost m then m.source + (vp * 4096 - m.va) else tget 0 m.frames vp

/-- The level of a mapping's leaves, and whether they carry CONT (R89). -/
def leafLevel (m : Map) : Nat := if m.dirty = 1 ∨ m.pagesize ≤ 1 then 0 else m.pagesize - 1
def leafCont (m : Map) : Bool := m.dirty == 0 && m.pagesize == 1

/-- Pages that one leaf of a mapping covers. -/
def leafPages (m : Map) : Nat := leafBytes (leafLevel m) / 4096

/-! ## Frames (R90) -/

/-- The frame record of a page changed. -/
def setFrame (s : State) (page : Nat) (f : Frame) : State := { s with frames := tset ⟨0, false, 0⟩ s.frames page f }

/-- Save areas of CONTEXT records that are not ABSENT: as recorded and as reserved (R90, R371). -/
def saveAreas (s : State) : List (Nat × Nat) :=
  s.book.filterMap (fun e =>
    let w := e.2.want.getD []
    if recKind w = 1 ∧ recIntent w ≠ 0 then some (cxSaveArea w, cxSaveSize w) else none)
  ++ s.ctxs.map (fun e => (e.2.saveArea, e.2.saveSize))

/-- Source ranges of in-place mappings (R90). -/
def inPlaceRanges (s : State) : List (Nat × Nat) :=
  s.maps.filterMap (fun e => if e.2.owns then none else some (e.2.source, e.2.len))

/-- Source ranges of in-place mappings, built or still to be built (R90). -/
def sourceRanges (s : State) : List (Nat × Nat) :=
  inPlaceRanges s ++ s.book.filterMap (fun e =>
    let w := e.2.want.getD []
    if recKind w = 2 ∧ recIntent w ≠ 0 ∧ mpSrcKind w = 2 ∧ e.2.stand.state ≠ .absent then some (mpSource w, mpLen w) else none)

/-- `n` bytes of exported memory at `a` are free: no frame, marks table, save area or in-place source lies there (R29, R90). -/
def rangeFree (s : State) (a n : Nat) : Bool :=
  exported s a n && !rangesMeet a n s.cfg.mkoff marksBytes
    && (saveAreas s).all (fun x => x.2 == 0 || !rangesMeet a n x.1 x.2) && (sourceRanges s).all (fun x => !rangesMeet a n x.1 x.2)
    && s.frames.all (fun e => e.2.owner == 0 || !rangesMeet a n (e.1 * 4096) 4096)

/-- The first free run of `n` bytes, aligned to its size, from unit `k` on, cyclically (R90; log 7, DESIGN CHOICE). -/
def findFree (s : State) (n pl total : Nat) : Nat → Nat → Option Nat
  | 0, _ => none
  | f + 1, k =>
    let a := k % total * n
    if rangeFree s a n && (List.range (n / 4096)).all (fun j => !onRetired s (a / 4096 + j) pl) then some a else findFree s n pl total f (k + 1)

/-- A free run for unit `k` of a record's mapping: where the search begins depends on the two alone, so that what a pass does depends on its
copies and the actual state (R74, R90; log 7, DESIGN CHOICE). -/
def allocRun (s : State) (n pl id k : Nat) : Option Nat :=
  let total := s.cfg.hdmSize / n
  if total = 0 then none else findFree s n pl total total (Config.frameStart id k % total)

/-- The placement of an in-place run: that asked for, or, where a granule would lie on a retired channel, the first other that has none there
(R81, R90; log 38, DEDUCED). -/
def placeFor (s : State) (a n want : Nat) : Option Nat :=
  (want :: 0 :: (List.range 8).map (· + 8)).find? (fun pl => (List.range (n / 4096)).all (fun j => !onRetired s (a / 4096 + j) pl))

/-- Pages given to a record: owner and placement, bias as it was (R25, R90). No copy from an earlier use is left of a page that is to be
COHERENT. -/
def ownPages (s : State) (id a n pl mc : Nat) : State :=
  (List.range (n / 4096)).foldl (fun s j =>
    let s := if mc = 1 then flushPage s false (a / 4096 + j) else s
    setFrame s (a / 4096 + j) { frameAt s (a / 4096 + j) with owner := id + 1, place := pl }) s

/-- Pages freed: placement and bias stay (R90). Clean lines of a PHASED page may stay in a cache (R329); those of a COHERENT one leave. -/
def freePages (s : State) (a n mc : Nat) : State :=
  (List.range (n / 4096)).foldl (fun s j =>
    let s := if mc = 1 then flushPage s false (a / 4096 + j) else s
    setFrame s (a / 4096 + j) { frameAt s (a / 4096 + j) with owner := 0 }) s

/-- Frames of a unit recorded in a mapping. -/
def addFrames (m : Map) (vp a : Nat) : Map :=
  { m with frames := (List.range (unitPages m)).foldl (fun t j => tput t (vp + j) (a + j * 4096)) m.frames, fresh := m.fresh ++ [vp] }

/-- A context's use of MEMQUOTA changed. -/
def charge (s : State) (ctx : Nat) (d : Int) : State :=
  { s with ctxs := tupd s.ctxs ctx (fun c => { c with memUsed := ((c.memUsed : Int) + d).toNat }) }

/-- The frame of one unit obtained, if it has none (step 0x01, R90): none where there is no room. -/
def allocUnit (id : Nat) (x : State × Map) (k : Nat) : Option (State × Map) :=
  let s := x.1
  let m := x.2
  let n := unitBytes m
  let vp := unitPage m k
  if onHost m ∨ (tfind m.frames vp).isSome then some x
  else if m.owns then
    if withinQuota s m.ctx n then
      (allocRun s n m.place id vp).map (fun a => (charge (ownPages s id a n m.place m.mclass) m.ctx n, addFrames m vp a))
    else none
  else
    let a := m.source + k * n
    if (s.frames.all (fun e => e.2.owner == 0 || e.2.owner == id + 1 || !rangesMeet a n (e.1 * 4096) 4096))
        && (saveAreas s).all (fun y => y.2 == 0 || !rangesMeet a n y.1 y.2) then
      (placeFor s a n m.place).map (fun pl => (ownPages s id a n pl m.mclass, addFrames m vp a))
    else none

/-- Frames of every unit (step 0x01): none where some unit cannot have one, which is BLOCKED with RESOURCES. -/
def allocMap (s : State) (id : Nat) (m : Map) : Option (State × Map) :=
  (List.range (unitCount m)).foldl (fun o k => o.bind (fun x => allocUnit id x k)) (some (s, m))

/-- The frames of one unit given up. -/
def freeUnit (s : State) (m : Map) (vp n : Nat) : State :=
  match tfind m.frames vp with
  | none => s
  | some a =>
    let s := freePages s a n m.mclass
    if m.owns then charge s m.ctx (-(n : Int)) else s

/-! ## Filling (step 0x02) -/

/-- The class that the lines of an exported page have: that of the MAPPING it backs; COHERENT where it backs none, and no device copy is
left. -/
def pageClass (s : State) (page : Nat) : Nat :=
  match (frameAt s page).owner with
  | 0 => 1
  | n + 1 => ((tfind s.maps n).map (·.mclass)).getD 1

/-- The place of an exported offset for an access at its home slice. -/
def homePlace (s : State) (o : Nat) : Place := ⟨false, pageClass s (o / 4096), (frameAt s (o / 4096)).place, (frameAt s (o / 4096)).bias, o⟩

/-- The place of a host physical address for the device: host memory over CXL.cache, or device memory where the host sees it (R28, R90). -/
def hostPlace (s : State) (a : Nat) : Place :=
  match hdmOffset s a with
  | some o => homePlace s o
  | none => ⟨true, 2, 0, false, a⟩

/-- `n` bytes at a source address: exported memory at its home, or host memory over CXL.cache (R46). -/
def readSource (s : State) (host : Bool) (a n : Nat) : State × List Byte :=
  (splitLines a (n + 1) n).foldl (fun q x =>
    let r := homeRead q.1 (if host then hostPlace q.1 x.1 else homePlace q.1 x.1) x.2
    (r.1, q.2 ++ r.2)) (s, [])

/-- Bytes written to a home by a stage manager, a copy that the host holds invalidated first (R25): they are good whatever was there (R165). -/
def putBytes (s : State) (host : Bool) (a : Nat) (bs : List Byte) : State :=
  let s := mendRange (recallHost s ⟨host, 0, 0, false, a⟩ bs.length) host a bs.length
  setHome s host (wrBytes (homeMem s host) a bs)

/-- The bytes that step 0x02 gives one page: those of a restored snapshot, where the map is a MAPPING's (`idx`), zeros, or the source's (R80,
R90). -/
def pageFill (s : State) (m : Map) (idx : Bool) (vp : Nat) : State × Option (List Byte) :=
  match (if idx then (ctxOf s m.ctx).restore.find? (fun x => x.1 == vp) else none) with
  | some x => (s, some x.2)
  | none =>
    if !m.owns then (s, none)
    else if m.srckind = 0 then (s, some (List.replicate 4096 0))
    else
      let q := readSource s (m.srckind == 1) (m.source + (vp * 4096 - m.va)) 4096
      (q.1, some q.2)

/-- One fresh unit filled. -/
def fillUnit (s : State) (m : Map) (idx : Bool) (vp : Nat) : State :=
  (List.range (unitPages m)).foldl (fun s j =>
    match pageFill s m idx (vp + j) with
    | (s, some bs) => putBytes s false (tget 0 m.frames (vp + j)) bs
    | (s, none) => s) s

/-! ## Entries (step 0x03) -/

/-- The leaf of one page as the mapping has it, with A and D as found; PL is the frame record's placement, which it always equals (R88, R90,
R95). -/
def leafEntry (s : State) (m : Map) (vp : Nat) (a d : Bool) : Nat :=
  let pa := framePa m vp
  let dev := m.mclass != 2
  mkEntry (pa / 4096) m.mclass (if dev then (frameAt s (pa / 4096)).place else 0) m.perms (dev && (frameAt s (pa / 4096)).bias) (leafCont m) a d

/-- Whether some page among `n` from `vp` has A, and whether one has D. -/
def foundAD (s : State) (ctx vp n : Nat) : Bool × Bool :=
  let es := (List.range n).filterMap (fun j => (leafOf s ctx ((vp + j) * 4096)).map (·.1))
  (es.any (fun e => eBit e 4), es.any eD)

/-- The leaves of a unit, each by its first page, with the A and D found there now (R95). -/
def unitAD (s : State) (m : Map) (vp : Nat) : List (Nat × Bool × Bool) :=
  let n := leafPages m
  (List.range (unitPages m / n)).map (fun k => (vp + k * n, foundAD s m.ctx (vp + k * n) n))

/-- The leaves of one unit entered anew, with the A and D found before any of the old ones was taken out (R89, R95); killed classes that await one
join their usher (R210). -/
def enterUnit (s : State) (m : Map) (vp : Nat) (ads : List (Nat × Bool × Bool)) : State :=
  let s := (List.range (unitPages m)).foldl (fun s j => dropLeaf s m.ctx ((vp + j) * 4096)) s
  joinWritten (ads.foldl (fun s x => enterLeaf s m.ctx (x.1 * 4096) (leafLevel m) (leafEntry s m x.1 x.2.1 x.2.2)) s)

/-- Units of a map with what is found of them before the first is changed. -/
def unitsWithAD (s : State) (m : Map) (us : List Nat) : List (Nat × List (Nat × Bool × Bool)) :=
  us.map (fun k => (k, unitAD s m (unitPage m k)))

/-- One unit unmapped (R71). -/
def unmapUnit (s : State) (m : Map) (vp : Nat) : State :=
  (List.range (unitPages m)).foldl (fun s j => dropLeaf s m.ctx ((vp + j) * 4096)) s

/-! ## Bias (step 0x04, R26) -/

/-- Pages of a mapping's frames, by physical page. -/
def physPages (m : Map) : List Nat := if onHost m then [] else m.frames.map (fun e => e.2 / 4096)

/-- Some page's bias differs from the record's (R64). -/
def biasDiffers (s : State) (m : Map) (bias : Bool) : Bool := (physPages m).any (fun p => (frameAt s p).bias != bias)

/-- The virtual pages of a mapping whose bias changes, ascending. -/
def flipping (s : State) (m : Map) (bias : Bool) : List Nat :=
  ((List.range (m.len / 4096)).map (m.va / 4096 + ·)).filter (fun vp => (frameAt s (tget 0 m.frames vp / 4096)).bias != bias)

/-- One 4 KiB page flipped: its lines leave every cache, or every host copy is recalled, and the frame record changes (R26). -/
def flipPage (m : Map) (bias : Bool) (s : State) (vp : Nat) : State :=
  let p := tget 0 m.frames vp / 4096
  let s := flushPage s false p
  let s := if bias then s else recallHost s ⟨false, 0, 0, false, p * 4096⟩ 4096
  setFrame s p { frameAt s p with bias := bias }

/-- The pages of step 0x04 flipped, and their entries with them (R26, R64). -/
def flipPages (s : State) (m : Map) (bias : Bool) (vps : List Nat) : State :=
  let s := vps.foldl (flipPage m bias) s
  let us := (List.range (unitCount m)).filter (fun k => vps.any (fun v => decide (unitPage m k ≤ v) && decide (v < unitPage m k + unitPages m)))
  (unitsWithAD s m us).foldl (fun s x => enterUnit s m (unitPage m x.1) x.2) s

/-! ## Migration (step 0x05, R99) -/

/-- The contents of a place that a mapping's page has, read at its home. -/
def pageBytesAt (s : State) (m : Map) (vp : Nat) : State × List Byte :=
  homeRead s (if onHost m then ⟨true, 2, 0, false, framePa m vp⟩ else ⟨false, 1, m.place, false, framePa m vp⟩) 4096

/-- A new frame takes the bias of the page that moves to it, as its entry keeps it (R25, R99). -/
def carryBias (o : Map) (s : State) (vp page : Nat) : State :=
  let b := !onHost o && (frameAt s (framePa o vp / 4096)).bias
  let s := if b then s else recallHost s ⟨false, 0, 0, false, page * 4096⟩ 4096
  setFrame s page { frameAt s page with bias := b }

/-- What an open region has recorded of the `n` pages from `vp` is of the new frames from now on (R99). -/
def moveRegion (m : Map) (vp n : Nat) (r : Region) : Region :=
  let here (va : Nat) : Bool := decide (vp ≤ va / 4096) && decide (va / 4096 < vp + n)
  let pa (va : Nat) : Nat := framePa m (va / 4096) + va % 4096
  { r with inputs := r.inputs.map (fun i => if here i.va then { i with host := onHost m, pa := pa i.va } else i),
           reads := r.reads.map (fun l => if here l.va then { l with host := onHost m, line := pa l.va / 128 } else l),
           stores := r.stores.map (fun b => if here b.va then { b with host := onHost m, pa := pa b.va } else b) }

/-- The open regions of a context follow pages that have moved (R99). -/
def moveRegions (s : State) (ctx : Nat) (m : Map) (vp n : Nat) : State :=
  { s with threads := s.threads.map (fun e =>
      if (clsAt s (ckOfT e.1)).ctx = ctx then (e.1, { e.2 with region := e.2.region.map (moveRegion m vp n) }) else e) }

/-- One unit moved from mapping `o` to the class, placement and size of mapping `m`: new frames, within MEMQUOTA where the old had none, the
bytes copied, the leaf switched with A and D as found, the old frame's lines invalidated and the frame freed (R65, R99). In-place pages are
re-homed where they stand (R90). -/
def migrateUnit (id : Nat) (o : Map) (x : State × Map) (k : Nat) (ads : List (Nat × Bool × Bool)) : Option (State × Map) :=
  let s := x.1
  let m := x.2
  let n := unitBytes m
  let vp := unitPage m k
  let olds := (List.range (unitPages m)).map (fun j => framePa o (vp + j))
  if !m.owns then
    (placeFor s (framePa o vp) n m.place).map (fun pl =>
      let s := (olds.map (· / 4096)).foldl (fun s p => setFrame (flushPage s false p) p { frameAt s p with place := pl }) s
      (enterUnit s m vp ads, m))
  else if onHost o && !onHost m && !withinQuota s m.ctx n then none
  else
    let rd := olds.foldl (fun (a : State × List Byte) pa =>
      let q := homeRead (flushPage a.1 (onHost o) (pa / 4096)) (if onHost o then ⟨true, 2, 0, false, pa⟩ else ⟨false, 1, o.place, false, pa⟩) 4096
      (q.1, a.2 ++ q.2)) (s, [])
    let s := rd.1
    let moved : Option (State × Map) :=
      if onHost m then
        some (putBytes s true (framePa m vp) rd.2, { m with frames := m.frames.filter (fun e => !(decide (vp ≤ e.1) && decide (e.1 < vp + unitPages m))) })
      else
        (allocRun s n m.place id vp).map (fun a =>
          let s := ownPages s id a n m.place m.mclass
          let s := (List.range (unitPages m)).foldl (fun s j => carryBias o s (vp + j) (a / 4096 + j)) s
          (putBytes s false a rd.2,
           { m with frames := (List.range (unitPages m)).foldl (fun t j => tput t (vp + j) (a + j * 4096)) m.frames }))
    moved.map (fun y =>
      let s := moveRegions (enterUnit y.1 y.2 vp ads) m.ctx y.2 vp (unitPages m)
      let s := if onHost o then s else olds.foldl (fun s pa => freePages s pa 4096 1) s
      let d : Int := (if onHost y.2 then 0 else (n : Int)) - (if onHost o then 0 else (n : Int))
      (charge s m.ctx d, y.2))

/-! ## Windows and queues -/

/-- The leaves of a PEER window (R88, R89). The page index of one larger than 2^24 pages wraps (log 57, DEDUCED). -/
def enterWindow (s : State) (r : Rec) : State :=
  (List.range (wdSize r / 4096)).foldl (fun s k =>
    enterLeaf s (recParent r) (wdVa r + k * 4096) 0 (mkEntry (wdNo r + k * 65536) 3 0 3 false false false false)) s

/-- Those leaves taken out. -/
def leaveWindow (s : State) (r : Rec) : State :=
  if wdRole r = 1 then (List.range (wdSize r / 4096)).foldl (fun s k => dropLeaf s (recParent r) (wdVa r + k * 4096)) s else s

/-- A window registered (R34, R49): its counters start at 0. -/
def windowOf (r : Rec) : Window :=
  ⟨recId r, recParent r, wdRole r == 1, wdVa r, wdSize r, wdPerms r, wdPeerDev r, wdPeerWin r, false, 0, [], 0, 0, 0⟩

/-- A control block from its record (R114). -/
def blockOf (r : Rec) : ControlBlock :=
  ⟨recId r, recParent r, 0, Nat.log2 (quItems r), Nat.log2 (quItemSize r), quFlags r, false, quRing r, quTail r, 0, false⟩

/-- CONVERGED MAPPINGs of a context cover a range with these permissions (R372). -/
def covered (s : State) (ctx a n perms : Nat) : Bool :=
  let ms := s.book.filterMap (fun e =>
    let w := e.2.want.getD []
    if recKind w = 2 ∧ recParent w = ctx ∧ e.2.stand.state = .converged ∧ mpPerms w &&& perms = perms then some (mpVa w, mpLen w) else none)
  let rec go : Nat → Nat → Bool
    | 0, x => decide (a + n ≤ x)
    | f + 1, x =>
      if a + n ≤ x then true
      else
        match ms.find? (fun m => decide (m.1 ≤ x) && decide (x < m.1 + m.2)) with
        | some m => go f (m.1 + m.2)
        | none => false
  go (ms.length + 1) a

/-- Bytes that a launch record's note queues take in the store of a die (R318). -/
def noteStore (l : Launch) (die : Nat) : Nat :=
  (l.queues.map (fun d =>
    if d.cap = 0 then 0
    else if d.scope = 1 ∧ (boundDies l).contains die then 128 + 4 * d.cap
    else if d.scope = 2 ∧ d.die = die then 128 + 4 * d.cap
    else 0)).sum

/-- Every die's 1 MiB store has room for one more program (R318). -/
def noteRoom (s : State) (rid : Nat) (l : Launch) : Bool :=
  (List.range 8).all (fun d => decide (((s.residents.filter (fun e => e.1 != rid)).map (fun e => noteStore e.2.launch d)).sum + noteStore l d ≤ 2 ^ 20))

end Sys2Proof.Machine
end

