-- ==== Sys2Proof/Machine/Preempt.lean ====
section
/-! DEFINITION. Pre-emption of a class and its save block (R118 to R120, R208, R224). The block's bytes are written as the rules lay them
out, with free bytes where no encoding is given; the class itself waits in the tables of the state, from which it resumes (log 8, DESIGN CHOICE). -/

namespace Sys2Proof.Machine

/-! ## Stopping (R119, R208) -/

/-- A class can leave its core: every deferred result is written and its scratch-bound requests have drained (R119, steps 2 and 3). -/
def canStop (s : State) (ck : Nat) : Bool :=
  s.threads.all (fun e => ckOfT e.1 != ck || e.2.pend.isEmpty)
    && !(s.reqs.any (fun e => e.2.ck == ck && !(linesOf e.2.blk e.2.lrFirst e.2.lrLast).isEmpty && !e.2.completed))
    && (match s.issue with | some g => g.ck != ck | none => true)

/-- A FIFO-bound request that has stopped: what the unit has consumed of it stays moved, the rest is replayed (R208, R209). One that has not begun
again since it was last stopped stands as it stood. -/
def rewind (m : Matrix) (r : Request) : Request :=
  let used := if r.begun then min ((fifoAt m r.blk.fifo).pos - r.start) (totalOf r) else r.rows
  { r with rows := used, begun := false, moved := decide (totalOf r ≤ used), bases := [], waits := none }

/-- A thread whose park ends with the monitor it had set: it executes its instruction again once it is resumed (R119). -/
def dropMonitor (t : Thread) : Thread :=
  match t.park with
  | some (.monitor _) => { t with park := none }
  | _ => t

/-- The threads of a class. -/
def threadsOf (s : State) (ck : Nat) : List Nat := (s.threads.filter (fun e => ckOfT e.1 == ck)).map (·.1)

/-- The class's threads, loops and FIFO requests stopped: open regions abort with status PREEMPTED, unconsumed FIFO bytes are discarded
(R119, R208, R224). -/
def stopClass (s : State) (ck : Nat) : State :=
  let core := coreOf s ck
  let s := (threadsOf s ck).foldl (fun s tk => abortRegion s tk 0x13 0) s
  if (launchOf s ck).matrix then
    let m := matrixAt s core
    setMatrix { s with reqs := s.reqs.map (fun e => if e.2.ck = ck ∧ e.2.blk.dest = 2 then (e.1, rewind m e.2) else e) } core
      { m with fifos := m.fifos.map (fun e => (e.1, { e.2 with bytes := [] })) }
  else s

/-! ## The save block (R120, R208) -/

/-- `n` free bytes (log 8, DESIGN CHOICE). -/
def freeBytes (k n : Nat) : List Byte := (List.range n).map (fun j => Config.freeByte (k + j))

/-- A signed stride as 32 bits. -/
def strideBytes (x : Int) : List Byte := bytesOfNat 4 (BitVec.ofInt 32 x).toNat

/-- The 64 bytes of a copy request block (R337). -/
def copyBytes (b : CopyBlock) : List Byte :=
  bytesOfNat 4 (b.kind + b.dest * 2 ^ 8 + b.fifo * 2 ^ 11 + b.tl * 2 ^ 13 + b.dims * 2 ^ 16 + b.layers.toNat * 2 ^ 18) ++ bytesOfNat 4 b.inc
    ++ bytesOfNat 8 b.src ++ bytesOfNat 8 b.dst ++ bytesOfNat 4 b.size0 ++ bytesOfNat 4 b.count1 ++ strideBytes b.sstride1
    ++ strideBytes b.dstride1 ++ bytesOfNat 4 b.count2 ++ strideBytes b.sstride2 ++ strideBytes b.dstride2
    ++ (if b.layers then strideBytes b.lstride else bytesOfNat 4 b.groups) ++ bytesOfNat 8 b.ptab

/-- A row of a slate: 32 mantissas, E, the flags, five zero bytes (R208). -/
def rowBytes (r : Row) : List Byte :=
  (List.range 32).flatMap (fun j => bytesOfNat 6 (r.m.getD j 0).toNat) ++ bytesOfNat 2 (BitVec.ofInt 16 r.e).toNat
    ++ bytesOfNat 1 (r.z.toNat + 2 * r.n.toNat + 4 * r.o.toNat) ++ [0, 0, 0, 0, 0]

/-- The matrix part (R208); `k` numbers the free bytes of the slots that hold nothing (log 8, DESIGN CHOICE). -/
def matrixBytes (s : State) (ck : Nat) (m : Matrix) (k : Nat) : List Byte :=
  let loopBytes (x : Loop) : List Byte :=
    bytesOfNat 4 x.ticket ++ bytesOfNat 4 (Config.loopNames x.slate x.fa x.fb).toNat ++ bytesOfNat 4 x.fmt.toNat ++ bytesOfNat 4 x.remaining ++ bytesOfNat 4 x.applied
      ++ bytesOfNat 8 x.num ++ [0, 0, 0, 0]
  let kept (f : Nat) : List Request :=
    (s.reqs.filter (fun e => e.2.ck == ck && e.2.blk.dest == 2 && e.2.blk.fifo == f && e.2.retained)).map (·.2)
  let fifoBytes (f : Nat) : List Byte :=
    bytesOfNat 8 (fifoAt m f).pos ++ bytesOfNat 8 ((((kept f).head?).map (·.rows)).getD 0)
      ++ (((kept f).flatMap (fun r => copyBytes r.blk)) ++ freeBytes k 256).take 256
  (List.range 8).flatMap (fun n => (List.range 32).flatMap (fun i => rowBytes (rowAt (slateAt m n) i)))
    ++ (List.range 8).flatMap (fun n => bytesOfNat 4 (slateAt m n).steps.toNat ++ bytesOfNat 4 (slateAt m n).stopped.toNat)
    ++ bytesOfNat 4 m.ticket ++ bytesOfNat 4 m.lost.toNat ++ bytesOfNat 4 m.lostCount ++ bytesOfNat 4 m.log.length
    ++ ((m.log.flatMap (fun e => (eventQuad m (some e)).flatMap (fun w => bytesOfNat 4 w.toNat))) ++ freeBytes k 1024).take 1024
    ++ ((m.loops.flatMap loopBytes) ++ freeBytes k 128).take 128 ++ (List.range 4).flatMap fifoBytes ++ List.replicate 240 0

/-- A lane record (R120): that of the lane's thread, live or exited. The operands that a park needs again have no encoding, and the record of a lane that
never had a thread is free, but for the bits that R120 makes zero (R6; log 8, DESIGN CHOICE). -/
def laneBytes (s : State) (tk k : Nat) : List Byte :=
  match (tfind s.threads tk).or (tfind s.ended tk) with
  | none =>
    let regs := (launchOf s (ckOfT tk)).regs
    let low (x n : Nat) : List Byte := bytesOfNat 4 (fieldAt (freeBytes x 4) 0 4 % 2 ^ n)
    freeBytes k 0x58 ++ low (k + 0x58) 16 ++ low (k + 0x5C) 13 ++ freeBytes (k + 0x60) 32
      ++ bytesOfNat 128 (fieldAt (freeBytes (k + 0x80) 128) 0 128 % 2 ^ regs)
  | some t =>
    bytesOfNat 8 t.pc.toNat ++ bytesOfNat 8 t.epc.toNat ++ bytesOfNat 8 t.tval.toNat ++ bytesOfNat 4 t.wb.toNat ++ bytesOfNat 4 t.cause.toNat
      ++ bytesOfNat 4 t.inHandler.toNat ++ bytesOfNat 4 t.binTimer.toNat ++ bytesOfNat 4 t.lrFirst.toNat ++ bytesOfNat 4 t.lrLast.toNat
      ++ (List.range 8).flatMap (fun n => bytesOfNat 4 (tget 0 t.coords n).toNat) ++ bytesOfNat 4 t.cycleHi.toNat ++ bytesOfNat 4 t.tickHi.toNat
      ++ bytesOfNat 4 (t.out.toNat / 2 ^ 1024 % 65536)
      ++ bytesOfNat 4 (match t.held with | some v => 4096 + v.toNat | none => 0)
      ++ freeBytes k 32 ++ bytesOfNat 128 t.out.toNat

/-- One troupe (R120). -/
def troupeBytes (s : State) (ck p k : Nat) : List Byte :=
  let t := troupeAt s ck p
  let parked := maskOf ((List.range 32).filter (fun l => (threadAt s (tkey ck p l)).park.isSome))
  bytesOfNat 4 (p / 4) ++ bytesOfNat 4 (p % 4) ++ bytesOfNat 4 t.lmask.toNat ++ bytesOfNat 4 parked.toNat
    ++ (List.range 8).flatMap (fun n => bytesOfNat 4 (tget 0 t.kregs n).toNat)
    ++ (List.range 8).flatMap (fun j => bytesOfNat 4 (enrolledAt t j).toNat ++ bytesOfNat 4 (arrivedAt t j).toNat)
    ++ List.replicate 16 0
    ++ (List.range 32).flatMap (fun l => laneBytes s (tkey ck p l) (k + 256 * l))
    ++ (List.range (launchOf s ck).regs).flatMap (fun a => (List.range 32).flatMap (fun l => bytesOfNat 4 (tget 0 s.regs (regKey ck p a l)).toNat))

/-- Which bin of a class each slot of its save block holds, by key: that of its number, or of two of one number the second in the first empty slot of its
section; one that finds none is left out (R120; log 8, DESIGN CHOICE). -/
def binSlots (s : State) (ck : Nat) : Table Nat :=
  (s.bins.filter (fun e => e.2.ck == ck)).foldl (fun t e =>
    let n := e.1 % 16
    match (n :: (List.range 4).map (fun k => 4 * k + n % 4)).find? (fun j => (tfind t j).isNone) with
    | some j => tput t j e.1
    | none => t) []

/-- The casting bins of a class: entry, count, remaining timer, 32 slots of eight argument words; an empty bin has count 0, and what holds no thread
is free (R120; log 8, DESIGN CHOICE). -/
def binBytes (s : State) (ck core k : Nat) : List Byte :=
  let empty : List Byte := freeBytes k 8 ++ bytesOfNat 4 0 ++ freeBytes (k + 8) 1028
  let slots := binSlots s ck
  (List.range 16).flatMap (fun n =>
    match (tfind slots n).bind (tfind s.bins) with
    | some b =>
      bytesOfNat 8 b.entry.toNat ++ bytesOfNat 4 b.slots.length ++ bytesOfNat 4 (if (clsAt s ck).placed then b.until_ - coreCycle s core else b.until_)
        ++ ((b.slots.flatMap (fun x => ((x.args ++ List.replicate 8 0).take 8).flatMap (fun w => bytesOfNat 4 w.toNat))) ++ freeBytes k 1024).take 1024
    | none => empty)

/-- Positions of a class's troupes, its own by number and then the spawned ones by position (R120, R135). -/
def orderOf (ts : Table Troupe) : List Nat :=
  let key (e : Nat × Troupe) : Nat := if e.2.spawned then 2 ^ 64 + e.1 % 64 else e.2.order
  let rec go : Nat → List (Nat × Troupe) → List Nat
    | 0, _ => []
    | f + 1, xs =>
      match minBy id (xs.map key) with
      | none => []
      | some m => ((xs.filter (fun e => key e == m)).map (fun e => e.1 % 64)) ++ go f (xs.filter (fun e => key e != m))
  go (ts.length + 1) ts

/-- The troupes of a class in the order of its save block. -/
def troupesInOrder (s : State) (ck : Nat) : List Nat := orderOf (s.troupes.filter (fun e => e.1 / 64 == ck))

/-- The save block of a class whose matrix unit holds `m` (R120); its length is `saveBytes`, filled up with free bytes. -/
def saveBlock (s : State) (ck : Nat) (m : Matrix) (k : Nat) : List Byte :=
  let l := launchOf s ck
  let body :=
    freeBytes k 128 ++ (List.range 8).flatMap (fun n => bytesOfNat 4 (tget 0 s.cregs (ck * 8 + n)).toNat)
      ++ (List.range 8).flatMap (fun n => bytesOfNat 8 (timelineAt s ck n).issued ++ bytesOfNat 8 (visibleOf (timelineAt s ck n)))
      ++ List.replicate 96 0 ++ (troupesInOrder s ck).flatMap (fun p => troupeBytes s ck p (k + 8192 * p))
      ++ binBytes s ck (coreOf s ck) k ++ readScratch s ck 0 l.scratch ++ (if l.matrix then matrixBytes s ck m k else [])
  body ++ freeBytes k (saveBytes s ck - body.length)

/-! ## PREEMPT (R119) -/

/-- A class saved at an offset of its save area and taken off its core; it joins its owner's resume list (R118, R119). What it has stored, or seen in the
die's remote-data cache, is at its home before it runs elsewhere (R167, R170). -/
def takeOff (s : State) (ck o : Nat) : State :=
  let s := stopClass s ck
  let c := clsAt s ck
  let l := launchOf s ck
  let core := coreOfCls c
  let m := matrixAt s core
  let q := draw s
  let bs := saveBlock q.2 ck m q.1
  let s := (threadsOf s ck).foldl (fun s tk => updThread s tk dropMonitor) (flushCore q.2 core)
  let s := settlePassing s (fun w => w.die == core / 64)
  let s := homeWrite s ⟨false, 1, 0, false, (ctxOf s c.ctx).saveArea + o⟩ bs
  let s := if l.matrix then setMatrix s core Matrix.blank else s
  let off (c : Cls) : Cls :=
    { c with placed := false, stopping := false, core := 512, die := 0, savedMatrix := if l.matrix then some m else none, save := some (o, bs.length) }
  let s := updCls (binsAside s ck) ck off
  let s := { s with ctxs := tupd s.ctxs c.ctx (fun x => { x with saveBlocks := x.saveBlocks.filter (fun b => some b != c.save) ++ [(o, bs.length)] }) }
  wakeCarried (joinResume s (ownerDie l c.idx) ⟨ck, false, none⟩)

/-- PREEMPT: a class whose pre-emption has been asked for stops once it can, is saved where room was set aside for it, or else where there is room, and
leaves its core (R119). One whose save area has no room waits. -/
def execPreempt (ck : Nat) (s : State) : Out :=
  let c := clsAt s ck
  if !running s || !c.placed || !c.stopping || c.quiesced || !canStop s ck then .next s
  else
    match (c.save.map (·.1)).or (saveFit s c.ctx (saveBytes s ck)) with
    | none => .next s
    | some o => .next (pauseStep (takeOff s ck o) c.rid c.ctx)

end Sys2Proof.Machine
end

