-- ==== Sys2Proof/Machine/Snapshot.lean ====
section
/-! DEFINITION. Snapshots (R77 to R80): the quiesce, the image, and what a restored context takes from it. A class of an image is restored from its
save block where that has an encoding of what it needs, and from what the device remembers of it for the rest: what its parks wait for, the coordinates of
spawned threads, and the slate and FIFOs of a loop (log 8, 36, DESIGN CHOICE and DEDUCED). -/

namespace Sys2Proof.Machine

/-! ## Pages (R79) -/

/-- Mappings of a context whose pages a snapshot holds: PHASED and COHERENT MAPPINGs (R79). -/
def snapMaps (s : State) (ctx : Nat) : List Map :=
  (s.maps.filter (fun e => e.2.ctx == ctx && e.2.mclass != 2 && recKind (builtOf s e.1) == kMapping)).map (·.2)

/-- The pages of a mapping that are mapped. -/
def mappedPages (s : State) (m : Map) : List Nat := (m.frames.map (·.1)).filter (fun vp => (leafOf s m.ctx (vp * 4096)).isSome)

/-- Pages of the context's DIRTY mappings whose entry has D set (R79). -/
def writtenPages (s : State) (ctx : Nat) : List Nat :=
  ((snapMaps s ctx).filter (fun m => m.dirty == 1)).flatMap (fun m =>
    (mappedPages s m).filter (fun vp => match leafOf s ctx (vp * 4096) with | some (e, _, _) => eD e | none => false))

/-- Numbers in ascending order. -/
def sortNats (xs : List Nat) : List Nat := xs.foldl (fun ys x =>
  let rec ins : List Nat → List Nat
    | [] => [x]
    | y :: r => if x ≤ y then x :: y :: r else y :: ins r
  ins ys) []

/-- The pages that a snapshot writes, ascending, when the pages written since its base are `since` (R79). -/
def snapPages (s : State) (ctx : Nat) (delta : Bool) (since : List Nat) : List Nat :=
  sortNats ((snapMaps s ctx).flatMap (fun m => (mappedPages s m).filter (fun vp => !delta || m.dirty == 0 || since.contains vp)))

/-- Pages written since the quiesce of a base, counting those whose D is set now (R79). -/
def sinceBase (s : State) (ctx base : Nat) : List Nat :=
  let b := (tfind s.snaps base).map (·.num)
  ((ctxOf s ctx).quiesces.drop ((b.getD 0) + 1)).flatten ++ writtenPages s ctx

/-! ## The image (R78) -/

/-- Classes of a program with saved state: those placed, and those pre-empted. -/
def liveOf (s : State) (rid : Nat) : List Nat :=
  (s.classes.filter (fun e => e.2.rid == rid && (e.2.placed || e.2.save.isSome))).map (·.1)

/-- The programs of a context. -/
def programsOf (s : State) (ctx : Nat) : List Nat := (s.residents.filter (fun e => e.2.ctx == ctx)).map (·.1)

/-- The classes of a context with saved state, in the order of its image. -/
def liveClasses (s : State) (ctx : Nat) : List Nat := (programsOf s ctx).flatMap (liveOf s)

/-- State bytes of a context's image. -/
def stateBytes (s : State) (ctx : Nat) : Nat := ((liveClasses s ctx).map (saveBytes s)).sum

/-- Bytes of an image (R78). -/
def imageSize (state pages : Nat) : Nat := 4096 + state + pages * 4104

/-- Bytes of the image that a record asks for, as its context stands (R78). -/
def imageNeeds (s : State) (r : Rec) : Nat :=
  let ctx := recParent r
  imageSize (stateBytes s ctx) (snapPages s ctx (snMode r == 1) (if snMode r = 1 then sinceBase s ctx (snBase r) else [])).length

/-- The image of a record is larger than its target (R78). -/
def tooLarge (s : State) (r : Rec) : Bool := decide (snTsize r < imageNeeds s r)

/-- The window that a SNAPSHOT's image goes to: a CONVERGED one of its context, that takes writes, and whose peer can be reached (R49, R52, R78;
log 36, DEDUCED). -/
def twinOf (s : State) (r : Rec) : Option Window :=
  (tfind s.windows (snTwin r)).filter (fun w =>
    converged s w.rid && !w.paused && w.ctx == recParent r && w.perms / 2 % 2 == 1 && (!w.peer || s.ports.any (fun e => e.2 == .inService)))

/-- The matrix unit of a class, on its core or saved. -/
def matrixOfClass (s : State) (ck : Nat) : Matrix :=
  if (clsAt s ck).placed then matrixAt s (coreOf s ck) else (clsAt s ck).savedMatrix.getD Matrix.blank

/-- One page of an image: its address and its bytes at the home (R78). -/
def pageEntry (s : State) (ctx vp : Nat) : List Byte :=
  bytesOfNat 8 (vp * 4096) ++
    (match leafOf s ctx (vp * 4096) with
     | some (e, lv, _) => rdBytes s.dmem (placeOf e lv (vp * 4096)).pa 4096
     | none => List.replicate 4096 0)

/-- The image with its CRC, taken over all of it with the CRC's bytes as zero (R41, R78). Header bytes of no field are free (log 8, DESIGN CHOICE). -/
def imageBytes (s : State) (r : Rec) (pages : List Nat) (k : Nat) : List Byte :=
  let ctx := recParent r
  let state := (liveClasses s ctx).flatMap (fun ck => saveBlock s ck (matrixOfClass s ck) k)
  let head (crc : Nat) : List Byte :=
    bytesOfNat 4 0x4B534E50 ++ bytesOfNat 4 (snMode r) ++ bytesOfNat 4 ctx ++ bytesOfNat 4 (snBase r) ++ bytesOfNat 8 (ctxOf s ctx).ticks
      ++ bytesOfNat 8 state.length ++ bytesOfNat 4 pages.length ++ bytesOfNat 4 crc ++ freeBytes k (4096 - 40)
  let rest := state ++ pages.flatMap (pageEntry s ctx)
  head (crc32c (head 0 ++ rest)) ++ rest

/-! ## Saved programs (R80) -/

/-- Entries of a table whose keys lie in one block of `n`, with their places in it. -/
def tblock {α : Type} (t : Table α) (n k : Nat) : Table α := (t.filter (fun e => e.1 / n == k)).map (fun e => (e.1 % n, e.2))

/-- Entries put back at block `k`. -/
def tunblock {α : Type} (t u : Table α) (n k : Nat) : Table α := u.foldl (fun t e => tput t (k * n + e.1) e.2) t

/-- The bins of a class by their slots in its save block; of one that finds no slot the key is 16 or more, its number mod 16. -/
def savedBins (s : State) (ck : Nat) : Table Bin :=
  let slots := binSlots s ck
  let rest := (s.bins.filter (fun e => e.2.ck == ck)).filter (fun e => !slots.any (fun x => x.2 == e.1))
  slots.filterMap (fun x => (tfind s.bins x.2).map (fun b => (x.1, b)))
    ++ ((List.range rest.length).zip rest).map (fun x => (16 * (x.1 + 1) + x.2.1 % 16, x.2.2))

/-- A class as it is saved: its bins carry what remains of their timers. -/
def saveClass (s : State) (ck : Nat) : SavedClass :=
  let c := clsAt s ck
  let n := 32 * (launchOf s ck).ownBytes
  let now := if c.placed then coreCycle s (coreOfCls c) else 0
  { cls := { c with placed := false, stopping := false, quiesced := false, save := none,
                    savedMatrix := if (launchOf s ck).matrix then some (matrixOfClass s ck) else none },
    regs := tblock s.regs (2 ^ 21) ck, cregs := tblock s.cregs 8 ck, timelines := tblock s.timelines 8 ck,
    scratch := tblock s.scratch (2 ^ 32) ck, troupes := tblock s.troupes 64 ck, threads := tblock s.threads 2048 ck, ended := tblock s.ended 2048 ck,
    bins := (savedBins s ck).map (fun e => (e.1, { e.2 with until_ := e.2.until_ - now })),
    reqs := s.reqs.filter (fun e => e.2.ck == ck && e.2.blk.dest == 2), segs := c.segBase.map (fun e => (e.1, rdBytes s.dmem e.2 n)),
    block := saveBytes s ck }

/-- A program as it is saved. -/
def saveProgram (s : State) (rid : Nat) : SavedProgram :=
  { imageVa := (residentAt s rid).imageVa, launchOff := rsLaunch (builtOf s rid), program := residentAt s rid,
    waiting := s.ushers.flatMap (fun e => (e.2.queue.filter (fun u => u.rid == rid)).map (·.members)),
    relaunch := (s.classes.filter (fun e => e.2.rid == rid && !e.2.placed && e.2.save.isNone)).map (·.2.idx),
    notes := tblock s.noteQueues 128 rid,
    classes := (liveOf s rid).map (saveClass s) }

/-! ## SNAPSHOT_QUIESCE (R77, R79) -/

/-- Every class of the context can stop, and no engine operation of it is under way but those that feed a FIFO (R77). -/
def canQuiesce (s : State) (ctx : Nat) : Bool :=
  s.classes.all (fun e => e.2.ctx != ctx || ((!e.2.placed || canStop s e.1)
    && !(s.reqs.any (fun x => x.2.ck == e.1 && x.2.blk.dest != 2 && !x.2.completed)) && !(s.fabOps.any (fun x => x.2.ck == e.1))))

/-- D cleared in one page's entry (R95). -/
def clearDirty (s : State) (ctx vp : Nat) : State :=
  match leafOf s ctx (vp * 4096) with
  | some (e, _, a) => { s with dmem := wrNat s.dmem a 8 (setBitTo e 5 false) }
  | none => s

/-- Classes of a context released from a snapshot's hold, where they stand (R78). -/
def releaseHold (s : State) (ctx : Nat) : State :=
  { s with classes := s.classes.map (fun e => if e.2.ctx = ctx then (e.1, { e.2 with quiesced := false }) else e) }

/-- The context's classes stopped where they stand on their cores, with the progress of step 0x01, and nothing of the context dirty in a cache (R77). -/
def quiesceClasses (s : State) (rid : Nat) : State :=
  let e := entryAt s rid
  let ctx := recParent (builtOf s rid)
  let cks := (s.classes.filter (fun x => x.2.placed && x.2.ctx == ctx)).map (·.1)
  let s := shootdown (cks.foldl (fun s ck => updCls (stopClass s ck) ck (fun c => { c with quiesced := true })) s) ctx
  if e.stand.state = .converging then
    ((thresholds e.stand.total).filter (fun d => decide (d ≤ cks.length))).foldl (fun s d => progressMark s rid .converging 1 0 d e.stand.total) s
  else s

/-- The image of a quiesced context, with the pages written since its base where it is a DELTA (R78, R79). Copies that the host holds are invalidated first
(R25); host-biased pages are read at their homes as they stand, a link that is down or not, for R24 speaks of a thread's access (log 36, DEDUCED). -/
def fixedImage (s : State) (rid : Nat) : State × List Byte :=
  let r := builtOf s rid
  let ctx := recParent r
  let pages := snapPages s ctx (snMode r == 1) (if snMode r = 1 then sinceBase s ctx (snBase r) else [])
  let s := pages.foldl (fun s vp =>
    match leafOf s ctx (vp * 4096) with
    | some (e, lv, _) => recallHost s (placeOf e lv (vp * 4096)) 4096
    | none => s) s
  let q := draw s
  (q.2, imageBytes q.2 r pages q.1)

/-- Dirty tracking begins anew: the pages with D set are remembered, and D is cleared (R79, R95). -/
def trackAnew (s : State) (ctx : Nat) : State :=
  let dirty := writtenPages s ctx
  let s := { s with ctxs := tupd s.ctxs ctx (fun c => { c with quiesces := c.quiesces ++ [dirty] }) }
  shootdown (dirty.foldl (fun s vp => clearDirty s ctx vp) s) ctx

/-- SNAPSHOT_QUIESCE: the context's classes stop where they stand, dirty tracking is cleared, and the image is fixed (R77 to R79). An
image that has come to exceed its target is not written, and waits for a new version (log 35, DEDUCED). -/
def execSnapshotQuiesce (rid : Nat) (s : State) : Out :=
  let r := builtOf s rid
  let ctx := recParent r
  if !running s || (entryAt s rid).phase != 2 || recKind r != kSnapshot || !canQuiesce s ctx then .next s
  else
    let q := fixedImage (quiesceClasses s rid) rid
    let num := (ctxOf q.1 ctx).quiesces.length
    let saved := (programsOf q.1 ctx).map (saveProgram q.1)
    let s := trackAnew q.1 ctx
    if snTsize r < q.2.length then
      .next (markAs (updEntry (releaseHold s ctx) rid (fun e => { e with phase := 9, plan := [1] })) rid .blocked 0 rRESOURCES 0 0)
    else
      .next { updEntry s rid (fun e => { e with phase := 3 }) with
        snaps := tput s.snaps rid ⟨ctx, num, q.2, saved⟩, wake := true }

/-! ## Writing and resuming (R78) -/

/-- The lines of a range of virtual addresses. -/
def linesFrom (va n : Nat) : List (Nat × Nat) := splitLines va (n + 1) n

/-- Where an image goes: device memory, the memory behind a LOCAL window, or a peer's. -/
inductive Target where
  | memory
  | places (ps : List (Place × Nat))
  | peer
  deriving DecidableEq, Repr

/-- The target of a quiesced SNAPSHOT's image as it is now, or why it cannot be written: its window is not there, is smaller than what it is to take, or
exposes a page that is not mapped (R34, R78; log 36, DEDUCED). -/
def imageTarget (s : State) (r : Rec) (n : Nat) : State × (Nat ⊕ Target) :=
  if snTkind r = 0 then (s, .inr .memory)
  else
    match twinOf s r with
    | none => (s, .inl rPEER_WAIT)
    | some w =>
      if w.size < snTaddr r + n then (s, .inl rREF_WAIT)
      else if w.peer then (s, .inr .peer)
      else
        match windowPlaces s w.ctx .write (linesFrom (w.va + snTaddr r) n) with
        | (s, some ps) => (s, .inr (.places ps))
        | (s, none) => (s, .inl rREF_WAIT)

/-- The image written; for a peer it leaves the module as an operation that settles later (R78). -/
def writeImage (s : State) (rid : Nat) (bs : List Byte) : Target → State
  | .memory => homeWrite s ⟨false, 1, 0, false, snTaddr (builtOf s rid)⟩ bs
  | .places ps => writePlaces s ps bs
  | .peer =>
    let r := builtOf s rid
    { s with hostOut := s.hostOut ++ [.image s.nextReq (snTwin r) (snTaddr r) bs], imagesOut := tput s.imagesOut s.nextReq rid, nextReq := s.nextReq + 1 }

/-- A window does not hold an image of `n` bytes, or exposes pages that are not all mapped (R78; log 36, DEDUCED). -/
def unmappedTarget (s : State) (r : Rec) (n : Nat) : Bool := (imageTarget s r n).2 == .inl rREF_WAIT

/-- What the image holds, registers, scratch or pages, has been spoiled by an uncorrectable error: the step that reads it (R66). -/
def imageSpoiled (s : State) (rid : Nat) (x : Snap) : Option Nat :=
  let cks := liveClasses s x.ctx
  let st := fieldAt x.image 0x18 8
  if s.mishap == some (.lost rid) || s.badRegs.any (fun k => cks.contains (k / 2 ^ 21)) || s.badScratch.any (fun k => cks.contains (k / 2 ^ 32)) then some 2
  else if (List.range (fieldAt x.image 0x20 4)).any (fun k =>
      let vp := fieldAt x.image (4096 + st + 4104 * k) 8 / 4096
      match leafOf s x.ctx (vp * 4096) with
      | some (e, lv, _) => spoiledAt s false (placeOf e lv (vp * 4096)).pa 4096
      | none => false) then some 3
  else none

/-! ## Restoring (R80) -/

/-- An image as its target has it now: none where it cannot be read, for an uncorrectable error or because its window is there no more. What a peer's
memory holds is free: what was written there, or any bytes (log 36, DEDUCED). -/
def readImage (s : State) (id : Nat) : State × Option (List Byte) :=
  let r := builtOf s id
  match tfind s.snaps id with
  | none => (s, none)
  | some x =>
    let n := x.image.length
    if snTkind r = 0 then
      (if spoiledAt s false (snTaddr r) n then (s, none)
       else let q := homeRead s ⟨false, 1, 0, false, snTaddr r⟩ n; (q.1, some q.2))
    else
      match twinOf s r with
      | none => (s, none)
      | some w =>
        if w.peer then
          let q := draw s
          (q.2, some (if q.1 % 2 = 0 then x.image else freeBytes q.1 n))
        else
        match windowPlaces s w.ctx .read (linesFrom (w.va + snTaddr r) n) with
        | (s, some ps) => if placesSpoiled s ps then (s, none) else let q := readPlaces s ps; (q.1, some q.2)
        | (s, none) => (s, none)

/-- An image passes its header's CRC (R78, R80). -/
def imageOk (bs : List Byte) : Bool := decide (4096 ≤ bs.length) && fieldAt bs 0x24 4 == crc32c (bs.take 0x24 ++ [0, 0, 0, 0] ++ bs.drop 0x28)

/-- The pages in an image. -/
def imagePages (bs : List Byte) : List (Nat × List Byte) :=
  let base := 4096 + fieldAt bs 0x18 8
  (List.range (fieldAt bs 0x20 4)).map (fun k => (fieldAt bs (base + 4104 * k) 8 / 4096, (bs.drop (base + 4104 * k + 8)).take 4096))

/-- A lane record read back, but for its park (R120). -/
def readLane (b : List Byte) (t : Thread) : Thread :=
  let held := fieldAt b 0x5C 4
  { t with
    pc := BitVec.ofNat 64 (fieldAt b 0 8), epc := BitVec.ofNat 64 (fieldAt b 8 8), tval := BitVec.ofNat 64 (fieldAt b 16 8),
    wb := BitVec.ofNat 32 (fieldAt b 0x18 4), cause := BitVec.ofNat 8 (fieldAt b 0x1C 4), inHandler := fieldAt b 0x20 4 % 2 == 1,
    binTimer := BitVec.ofNat 32 (fieldAt b 0x24 4), lrFirst := BitVec.ofNat 32 (fieldAt b 0x28 4), lrLast := BitVec.ofNat 32 (fieldAt b 0x2C 4),
    coords := (List.range 8).foldl (fun c n => tset 0 c n (BitVec.ofNat 32 (fieldAt b (0x30 + 4 * n) 4))) t.coords,
    cycleHi := BitVec.ofNat 32 (fieldAt b 0x50 4), tickHi := BitVec.ofNat 32 (fieldAt b 0x54 4),
    out := BitVec.ofNat 1040 (fieldAt b 0x80 128 + fieldAt b 0x58 4 % 65536 * 2 ^ 1024),
    held := if held / 4096 % 2 = 1 then some (BitVec.ofNat 12 held) else none }

/-- The words of 32 lanes of each register of a troupe, as the block lays them out (R120). -/
def readRegs (b : List Byte) (p regs : Nat) (t : Table Word) : Table Word :=
  (List.range regs).foldl (fun t a =>
    let row := (b.drop (128 * a)).take 128
    (List.range 32).foldl (fun t l => tset 0 t ((p * 1024 + a) * 32 + l) (BitVec.ofNat 32 (fieldAt row (4 * l) 4))) t) t

/-- One troupe read back: k registers, rejoin masks, lane records and registers (R120). -/
def readTroupe (regs : Nat) (b : List Byte) (x : SavedClass) (p : Nat) : SavedClass :=
  let word (o : Nat) : Word := BitVec.ofNat 32 (fieldAt b o 4)
  let lanes (t : Table Thread) : Table Thread :=
    t.map (fun e => if e.1 / 32 = p then (e.1, readLane ((b.drop (128 + 256 * (e.1 % 32))).take 256) e.2) else e)
  { x with
    troupes := tupd x.troupes p (fun t =>
      { t with kregs := (List.range 8).foldl (fun m n => tset 0 m n (word (16 + 4 * n))) t.kregs,
               enrolled := (List.range 8).foldl (fun m j => tset 0 m j (word (48 + 8 * j))) t.enrolled,
               arrived := (List.range 8).foldl (fun m j => tset 0 m j (word (52 + 8 * j))) t.arrived }),
    threads := lanes x.threads, ended := lanes x.ended, regs := readRegs (b.drop 8320) p regs x.regs }

/-- A row of a slate read back (R208). -/
def readRow (b : List Byte) : Row :=
  let fl := fieldAt b 194 1
  ⟨(List.range 32).map (fun j => BitVec.ofNat 48 (fieldAt b (6 * j) 6)), (BitVec.ofNat 16 (fieldAt b 192 2)).toInt, fl % 2 == 1, fl / 2 % 2 == 1,
   fl / 4 % 2 == 1⟩

/-- The slates of a MATRIX class read back, with their loop status (R208). -/
def readSlates (b : List Byte) (m : Matrix) : Matrix :=
  { m with slates := (List.range 8).foldl (fun t n =>
      let sl := slateAt m n
      let rows := (List.range 32).foldl (fun t i => tset Row.blank t i (readRow ((b.drop (6400 * n + 200 * i)).take 200))) sl.rows
      let st := 51200 + 8 * n
      tset Slate.blank t n { sl with rows := rows, steps := BitVec.ofNat 32 (fieldAt b st 4), stopped := fieldAt b (st + 4) 4 % 2 == 1 }) m.slates }

/-- An entry of the event log read back from its quad (R202, R208). -/
def readEvent (b : List Byte) : LogEntry :=
  ⟨fieldAt b 0 4 % 8, fieldAt b 0 4 / 8 % 32, fieldAt b 0 4 / 2 ^ 16, (BitVec.ofNat 16 (fieldAt b 4 4)).toInt, fieldAt b 8 4, fieldAt b 12 4⟩

/-- An accepted loop read back, but for its slate and its FIFOs, whose encoding is free (R208; log 8, DESIGN CHOICE). -/
def readLoop (b : List Byte) (lp : Loop) : Loop :=
  { lp with ticket := fieldAt b 0 4, fmt := BitVec.ofNat 32 (fieldAt b 8 4), remaining := fieldAt b 12 4, applied := fieldAt b 16 4, num := fieldAt b 20 8 }

/-- The matrix part of a class read back (R208). -/
def readMatrix (b : List Byte) (m : Matrix) : Matrix :=
  let part (o n : Nat) : List Byte := (b.drop o).take n
  { readSlates b m with
    ticket := fieldAt b 51264 4, lost := fieldAt b 51268 4 % 2 == 1, lostCount := fieldAt b 51272 4,
    log := (List.range (min 64 (fieldAt b 51276 4))).map (fun k => readEvent (part (51280 + 16 * k) 16)),
    loops := ((List.range m.loops.length).zip m.loops).map (fun x => if x.1 < 4 then readLoop (part (52304 + 32 * x.1) 32) x.2 else x.2),
    fifos := (List.range 4).foldl (fun t f => tset Fifo.blank t f { fifoAt m f with pos := fieldAt b (52432 + 272 * f) 8 }) m.fifos }

/-- The retained requests of a class read back: their blocks, and how far the oldest of each FIFO has come (R208). -/
def readReqs (b : List Byte) (xs : List (Nat × Request)) : List (Nat × Request) :=
  ((List.range xs.length).zip xs).map (fun x =>
    let r := x.2.2
    let k := ((xs.take x.1).filter (fun y => y.2.retained && y.2.blk.fifo == r.blk.fifo)).length
    let o := 52432 + 272 * r.blk.fifo
    if !r.retained ∨ 4 ≤ k then x.2
    else (x.2.1, { r with blk := copyBlockOf ((b.drop (o + 16 + 64 * k)).take 64), rows := if k = 0 then fieldAt b (o + 8) 8 else r.rows }))

/-- A timeline read back from its issued and visible counts: of the operations that held the visible count, those above it still do (R120, R176). -/
def readTimeline (issued visible : Nat) (t : Timeline) : Timeline :=
  let ops := t.ops.filter (fun n => decide (visible < n) && decide (n ≤ issued))
  ⟨issued, if visible < issued ∧ !ops.contains (visible + 1) then (visible + 1) :: ops else ops⟩

/-- The casting bins of a class read back, but for the coordinates of the threads in them (R120; log 8, DESIGN CHOICE). -/
def readBins (ck : Nat) (b : List Byte) (bins : Table Bin) : Table Bin :=
  (List.range 16).filterMap (fun j =>
    let o := 1040 * j
    let old := (tfind bins j).getD ⟨ck, 0, [], 0, false⟩
    let n := min 32 (fieldAt b (o + 8) 4)
    let slot (k : Nat) : Slot :=
      ⟨(List.range 8).map (fun a => BitVec.ofNat 32 (fieldAt b (o + 16 + 32 * k + 4 * a) 4)), ((old.slots[k]?).map (·.coords)).getD []⟩
    if n = 0 then none
    else some (j, { old with entry := BitVec.ofNat 64 (fieldAt b o 8), slots := (List.range n).map slot, until_ := fieldAt b (o + 12) 4 }))
  ++ bins.filter (fun e => decide (16 ≤ e.1))

/-- A saved class as its save block in the image has it now (R78, R80, R120). -/
def readBlock (l : Launch) (b : List Byte) (x : SavedClass) : SavedClass :=
  let size := 8320 + 128 * l.regs
  let ps := orderOf x.troupes
  let x := ((List.range ps.length).zip ps).foldl (fun x e => readTroupe l.regs ((b.drop (384 + size * e.1)).take size) x e.2) x
  let o := 384 + size * ps.length + 16640
  let matrix := b.drop (o + l.scratch)
  { x with
    timelines := (List.range 8).foldl (fun t n =>
      tset Timeline.blank t n (readTimeline (fieldAt b (160 + 16 * n) 8) (fieldAt b (168 + 16 * n) 8) (tget Timeline.blank t n))) x.timelines,
    bins := readBins (ckOf x.cls.rid x.cls.idx) (b.drop (o - 16640)) x.bins, reqs := if l.matrix then readReqs matrix x.reqs else x.reqs,
    cregs := (List.range 8).foldl (fun t n => tset 0 t n (BitVec.ofNat 32 (fieldAt b (128 + 4 * n) 4))) x.cregs,
    scratch := wrBytes x.scratch 0 ((b.drop o).take l.scratch),
    cls := { x.cls with savedMatrix := x.cls.savedMatrix.map (readMatrix matrix) } }

/-- The classes of an image's programs as its STATE part has them (R78, R80). -/
def readState (b : List Byte) : List SavedProgram → List SavedProgram
  | [] => []
  | p :: r =>
    let q := p.classes.foldl (fun (q : List Byte × List SavedClass) x => (q.1.drop x.block, q.2 ++ [readBlock p.program.launch (q.1.take x.block) x])) (b, [])
    { p with classes := q.2 } :: readState q.1 r

/-- The chain of a snapshot, newest first, down to a FULL one: its pages and its programs; none where an image fails its check (R80). -/
def readChain (s : State) : Nat → Nat → State × Option (List (Nat × List Byte) × List SavedProgram)
  | 0, _ => (s, none)
  | f + 1, id =>
    match readImage s id with
    | (s, none) => (s, none)
    | (s, some bs) =>
      let here := readState (bs.drop 4096) (((tfind s.snaps id).map (·.saved)).getD [])
      if !imageOk bs then (s, none)
      else if snMode (builtOf s id) = 0 then (s, some (imagePages bs, here))
      else
        match readChain s f (snBase (builtOf s id)) with
        | (s, some (ps, ss)) => (s, some (imagePages bs ++ ps.filter (fun p => !((imagePages bs).any (fun x => x.1 == p.1))), here ++ ss))
        | (s, none) => (s, none)

/-- The saved program that a RESIDENT resumes (R80): the newest with its IMAGEVA and LAUNCH, if that still had something to run. -/
def savedFor (s : State) (r : Rec) : Option SavedProgram :=
  ((ctxOf s (recParent r)).saved.find? (fun p => p.imageVa == rsImageVa r && p.launchOff == rsLaunch r)).filter
    (fun p => !(p.classes.isEmpty && p.waiting.isEmpty && p.relaunch.isEmpty))

/-- The segments of a saved program's classes fit in the reserved part, and in MEMQUOTA (R65, R150). -/
def restoreFits (s : State) (ctx : Nat) (l : Launch) (p : SavedProgram) : Bool :=
  let n := (p.classes.filter (fun x => !x.segs.isEmpty)).length
  withinQuota s ctx (n * segmentBytes l) && decide (n * (segmentPages l * (extentOf l 1 + 4 * l.spawnSeats)) ≤ reservedLeft s)

/-- A park with its objects named in the new program. -/
def rekeyPark (rid : Nat) : Park → Park
  | .arrival o f g => .arrival (ckOf rid (o % 2 ^ 48)) f g
  | .barWait o f j c => .barWait (ckOf rid (o % 2 ^ 48)) f j c
  | .absent o l => .absent (ckOf rid (o % 2 ^ 48)) l
  | p => p

/-- The acts of a matrix unit, whose FIFOCLRs name the requests by their new numbers. -/
def rekeyActs (reqs : List (Nat × Request)) (first : Nat) (m : Matrix) : Matrix :=
  { m with acts := m.acts.map (fun a =>
      match a.kind with
      | .fifoClear f n => { a with kind := .fifoClear f (first + (reqs.filter (fun e => decide (e.1 < n))).length) }
      | _ => a) }

/-- A saved class put back, on its owner's resume list (R80, R209). -/
def restoreClass (s : State) (rid ctx : Nat) (x : SavedClass) : State :=
  let ck := ckOf rid x.cls.idx
  let l := (residentAt s rid).launch
  let c := { x.cls with rid := rid, ctx := ctx, core := 512, die := 0, segBase := [], savedMatrix := x.cls.savedMatrix.map (rekeyActs x.reqs s.nextReq) }
  let g := if x.segs.isEmpty then (s, c) else giveSegments s c x.cls.segDie
  let s := x.segs.foldl (fun s e => putBytes s false (tget 0 g.2.segBase e.1) e.2) g.1
  let rs := (List.range x.reqs.length).zip x.reqs
  let s := rs.foldl (fun s e => { s with reqs := tput s.reqs (s.nextReq + e.1) { e.2.2 with ck := ck, core := 512 } }) s
  let s :=
    { s with
      nextReq := s.nextReq + x.reqs.length, classes := tput s.classes ck g.2, regs := tunblock s.regs x.regs (2 ^ 21) ck,
      cregs := tunblock s.cregs x.cregs 8 ck, timelines := tunblock s.timelines x.timelines 8 ck,
      scratch := x.scratch.foldl (fun m e => wr8 m (scratchKey ck e.1) e.2) s.scratch, troupes := tunblock s.troupes x.troupes 64 ck,
      threads := tunblock s.threads (x.threads.map (fun e => (e.1, { e.2 with park := e.2.park.map (rekeyPark rid) }))) 2048 ck,
      ended := tunblock s.ended x.ended 2048 ck }
  let s := x.bins.foldl (fun s e => putAside s ck (e.1 % 16) { e.2 with ck := ck }) s
  joinResume s (ownerDie l x.cls.idx) ⟨ck, false, none⟩

/-- Units that join a program's owners, in ascending index (R105). -/
def joinUnits (s : State) (rid : Nat) (units : List (List Nat)) : State :=
  (sortNats (units.map (fun ms => ms.headD 0))).foldl (fun s i =>
    updUsher s (ownerDie (residentAt s rid).launch i) (fun u =>
      { u with queue := u.queue ++ ((units.filter (fun ms => ms.headD 0 == i)).map (fun ms => ⟨rid, ms⟩)) })) s

/-- A saved program resumed: its counts, its classes, and the units that still wait; every bound die's usher steals again (R80, R105, R108; log 36,
DEDUCED). -/
def restoreProgram (s : State) (rid ctx : Nat) (p : SavedProgram) : State :=
  let l := (residentAt s rid).launch
  let left := p.classes.map (fun x => x.cls.idx) ++ p.relaunch ++ p.waiting.flatten
  let s := updResident s rid (fun r =>
    { r with placedOnce := (List.range r.n).filter (fun i => !left.contains i), ended := p.program.ended, restart := p.program.restart,
             bumps := p.program.bumps, kills := p.program.kills })
  let s := { s with noteQueues := tunblock s.noteQueues p.notes 128 rid }
  let s := p.classes.foldl (fun s x => restoreClass s rid ctx x) s
  let s := p.relaunch.foldl (fun s i =>
    let c : Cls := { Cls.blank with rid := rid, ctx := ctx, idx := i }
    joinResume { s with classes := tput s.classes (ckOf rid i) c } (ownerDie l i) ⟨ckOf rid i, true, none⟩) s
  (boundDies l).foldl (fun s d => updUsher s d (fun u => { u with idle := false })) (joinUnits s rid p.waiting)

end Sys2Proof.Machine
end

