-- ==== Sys2Proof/Machine/Steps.lean ====
section
/-! DEFINITION. What a pass does to one record: what blocks it (R65), its teardown (R68, R71) and its build steps (R56, R64, R66). Each
step's marks are written with it. -/

namespace Sys2Proof.Machine

/-! ## Plans (R64) -/

/-- The internal code of a return from PAUSED (R63): it writes no mark of its own. -/
def sResume : Nat := 0x21

/-- Every build step of a kind (R56). -/
def fullPlan (r : Rec) : List Nat :=
  match recKind r with
  | 1 => if cxRestore r = 0 then [1, 2, 3] else [1, 2, 3, 4]
  | 2 => [1, 2, 3, 4]
  | 3 => [1, 2]
  | 4 => [1, 2, 3]
  | 5 => [1, 2]
  | 6 => [1]
  | _ => [1, 2, 3]

/-- Two records have equal bytes from `o`, `n` of them. -/
def sameField (a b : Rec) (o n : Nat) : Bool := fieldAt a o n == fieldAt b o n

/-- Two records have the same body. -/
def sameBody (a b : Rec) : Bool := (a.drop 0x20) == (b.drop 0x20)

/-- A MAPPING's pages are refilled (R64): a new SRCKIND or SOURCE, or a new VA of pages whose place the SOURCE gives (log 37, DEDUCED). -/
def refills (b w : Rec) : Bool :=
  !(sameField b w 0x30 1 && sameField b w 0x38 8)
    || (mpVa b != mpVa w && (mpSrcKind w == 2 || (mpSrcKind w == 1 && mpClass w == 2)))

/-- A MAPPING's pages migrate (R64). -/
def migrates (b w : Rec) : Bool := !(sameField b w 0x31 2 && sameField b w 0x34 1)

/-- Pages enter a MAPPING's range (R64). -/
def grows (b w : Rec) : Bool := decide (mpVa w < mpVa b) || decide (mpVa b + mpLen b < mpVa w + mpLen w)

/-- Pages leave a MAPPING's range (R64). -/
def shrinks (b w : Rec) : Bool := grows w b

/-- The change from `b` to `w` is applied by tearing down and rebuilding (R64). -/
def rebuilds (b w : Rec) : Bool :=
  match recKind w with
  | 3 => !sameBody b w
  | 4 => !sameBody b w && !((b.take 0x34).drop 0x20 == (w.take 0x34).drop 0x20 && quFlags b / 2 == quFlags w / 2 && b.drop 0x35 == w.drop 0x35)
  | 5 => !sameBody b w && !((b.take 0x22).drop 0x20 == (w.take 0x22).drop 0x20 && b.drop 0x23 == w.drop 0x23)
  | _ => false

/-- The build steps of a change in place, ascending (R64). -/
def changeSteps (b w : Rec) : List Nat :=
  if sameBody b w then []
  else
    match recKind w with
    | 1 =>
      (if sameField b w 0x20 10 && sameField b w 0x48 8 then [] else [2]) ++ (if sameField b w 0x30 16 then [] else [3])
    | 2 =>
      let fill := refills b w || grows b w
      (if fill then [1, 2] else []) ++ (if fill || !(sameField b w 0x33 1 && sameField b w 0x36 1) then [3] else []) ++ [4]
        ++ (if migrates b w then [5] else [])
    | 4 => [3]
    | 6 => [1]
    | 7 => [1, 2, 3]
    | _ => []

/-- Two ascending lists of steps in one, each step once. -/
def mergeSteps (a b : List Nat) : List Nat := (List.range 0x22).filter (fun k => a.contains k || b.contains k)

/-- The steps that a change of INTENT adds (R63). -/
def intentSteps (paused : Bool) (w : Rec) : List Nat :=
  if recIntent w = 2 ∧ !paused then [0x20] else if recIntent w = 1 ∧ paused then [sResume] else []

/-- The record stands held by PAUSED. -/
def isPaused (s : State) (id : Nat) : Bool :=
  let b := builtOf s id
  match recKind b with
  | 1 => (ctxOf s id).held
  | 3 => (match tfind s.windows (wdNo b) with | some w => w.paused | none => false)
  | 4 => (match tfind s.cbs (quCb b) with | some c => c.held | none => false)
  | 5 => (residentAt s id).held
  | _ => false

/-! ## Mappings: the working map -/

/-- Pages of a mapping's range. -/
def rangePages (m : Map) : List Nat := (List.range (m.len / 4096)).map (m.va / 4096 + ·)

/-- The map that steps 0x01 to 0x04 build: that of the record, or, while pages are still to migrate, the old class over the new range
(R64). -/
def workMap (s : State) (id : Nat) : Map :=
  let w := mapOf (wantOf s id)
  match tfind s.maps id with
  | none => w
  | some o =>
    let w := { w with frames := o.frames, fresh := o.fresh, lost := o.lost }
    if ((entryAt s id).plan).contains 5 then
      { w with mclass := o.mclass, place := o.place, source := o.source, srckind := o.srckind, owns := o.owns,
               pagesize := if o.pagesize = w.pagesize then w.pagesize else 0 }
    else w

/-- The units of a map whose frame is missing, by number; every unit where none is (R64). -/
def unitsWithout (m : Map) (has : Nat → Bool) : List Nat :=
  let us := List.range (unitCount m)
  let xs := us.filter (fun k => !has (unitPage m k))
  if xs.isEmpty then us else xs

/-- The leaf of a page stands as the map has it, whatever A and D say. -/
def leafStands (s : State) (m : Map) (vp : Nat) : Bool :=
  match leafOf s m.ctx (vp * 4096) with
  | some (e, lv, _) => lv == leafLevel m && e == leafEntry s m vp (eBit e 4) (eD e)
  | none => false

/-- A restored snapshot fills the page (R80). -/
def indexed (s : State) (m : Map) (vp : Nat) : Bool := (ctxOf s m.ctx).restore.any (fun x => x.1 == vp)

/-- What step 0x02 fills, by first page: units that are fresh or have a lost page; of an in-place mapping the pages that a snapshot fills, and those only as
it is `first` built: a new SOURCE moves no data (R66, R80, R90). -/
def fillItems (s : State) (m : Map) (first : Bool) : List Nat :=
  if m.owns then
    ((List.range (unitCount m)).map (unitPage m)).filter (fun vp =>
      m.fresh.contains vp || m.lost.any (fun v => decide (vp ≤ v) && decide (v < vp + unitPages m)))
  else if !first then []
  else
    (((List.range (unitCount m)).map (unitPage m)).filter m.fresh.contains).flatMap (fun vp =>
      ((List.range (unitPages m)).map (vp + ·)).filter (indexed s m))

/-- One page filled. -/
def fillPage (s : State) (m : Map) (vp : Nat) : State :=
  match pageFill s m true vp with
  | (s, some bs) => putBytes s false (tget 0 m.frames vp) bs
  | (s, none) => s

/-- The pages of one item of step 0x02. -/
def itemPages (m : Map) (vp : Nat) : List Nat :=
  if !m.owns then [vp]
  else if m.fresh.contains vp then (List.range (unitPages m)).map (vp + ·)
  else m.lost.filter (fun v => decide (vp ≤ v) && decide (v < vp + unitPages m))

/-- One item's part of step 0x02. -/
def fillStep (s : State) (m : Map) (vp : Nat) : State := (itemPages m vp).foldl (fun s v => fillPage s m v) s

/-! ## Steps that cannot finish (R66) -/

/-- Where a step of `n` units meets what it cannot pass: a lost link that it needs, the uncorrectable error that falls during the pass, at a unit of its
own, or a unit whose source or frame is spoiled (R24, R66, R84). The reason, and the units done before. -/
def stopAt (s : State) (id n : Nat) (host : Bool) (bad : Nat → Bool) : State × Option (Nat × Nat) :=
  if host && !linksUp s then (s, some (rLINK, 0))
  else if s.mishap == some (.lost id) then
    let q := draw s
    ({ q.2 with mishap := none }, some (rMEMORY_LOST, q.1 % max 1 n))
  else (s, ((List.range n).find? bad).map (fun k => (rMEMORY_LOST, k)))

/-- How many of `n` units a step does. -/
def doneOf (n : Nat) (stop : Option (Nat × Nat)) : Nat := (stop.map (·.2)).getD n

/-- The source of a page is spoiled (R66). -/
def sourceBad (s : State) (m : Map) (vp : Nat) : Bool :=
  m.owns && m.srckind != 0 && (splitLines (m.source + (vp * 4096 - m.va)) 4097 4096).any (fun x =>
    let pl := if m.srckind = 1 then hostPlace s x.1 else homePlace s x.1
    spoiledAt s pl.host pl.pa x.2)

/-- The contents of a page are spoiled where they stand. -/
def pageBad (s : State) (m : Map) (vp : Nat) : Bool := spoiledAt s (onHost m) (framePa m vp) 4096

/-! ## What blocks a record (R65) -/

/-- The parent is a CONVERGED CONTEXT (R65). -/
def parentReady (s : State) (w : Rec) : Bool :=
  recKind w == 7 || recKind w == 1 || (recKind (builtOf s (recParent w)) == 1 && converged s (recParent w))

/-- A REF holds a CONVERGED MAPPING, WINDOW or QUEUE of the same parent (R51, R65). -/
def refReady (s : State) (w : Rec) (n : Nat) : Bool :=
  converged s n && [2, 3, 4].contains (recKind (builtOf s n)) && recParent (builtOf s n) == recParent w

/-- A RESIDENT that is not ABSENT, nor torn down with its context, names the id in a REF (R68). -/
def refHeld (s : State) (id : Nat) : Bool :=
  s.book.any (fun e =>
    let w := e.2.want.getD []
    recKind w == 5 && recIntent w != 0 && !e.2.orphan && e.2.stand.state != .absent && (rsRefs w).contains id)

/-- A SNAPSHOT that another one or a restoring CONTEXT still needs (R68). -/
def snapNeeded (s : State) (id : Nat) : Bool :=
  s.book.any (fun e =>
    let w := e.2.want.getD []
    recIntent w != 0 &&
      ((recKind w == 6 && snBase w == id && [MarkState.pending, .blocked, .converging].contains e.2.stand.state)
        || (recKind w == 1 && cxRestore w == id && e.2.stand.state == .converging && e.2.stand.step == 4)))

/-- The record is to be gone: its INTENT is ABSENT, or it goes with its context (R68). -/
def goes (e : Entry) : Bool := e.orphan || recIntent (e.want.getD []) == 0

/-- The dependencies of a SNAPSHOT (R77 to R79). One that goes to a window waits for it (log 36, DEDUCED); one found too large needs a new version. -/
def snapBlock (s : State) (id : Nat) (w : Rec) : Option Nat :=
  let busy := s.book.any (fun e => recKind (e.2.want.getD []) == 2 && recParent (e.2.want.getD []) == recParent w && e.2.stand.state == .converging)
  if busy || (snMode w == 1 && (entryAt s (snBase w)).stand.state != .complete) then some rREF_WAIT
  else if snTkind w = 1 ∧ (twinOf s w).isNone then some rPEER_WAIT
  else if (entryAt s id).phase = 9 ∨ tooLarge s w then some rRESOURCES
  else if unmappedTarget s w (imageNeeds s w) then some rREF_WAIT
  else none

/-- The pages of a save area are free for it (R371). -/
def saveFree (s : State) (w : Rec) : Bool :=
  let meets (a n : Nat) : Bool := cxSaveSize w != 0 && rangesMeet (cxSaveArea w) (cxSaveSize w) a n
  (inPlaceRanges s).all (fun x => !meets x.1 x.2) && s.frames.all (fun e => e.2.owner == 0 || !meets (e.1 * 4096) 4096)

/-- Units migrated one after the other; none where some unit finds no frames. -/
def migrateUnits (s : State) (id : Nat) (o m : Map) (us : List Nat) : Option (State × Map) :=
  (unitsWithAD s m us).foldl (fun x k => x.bind (fun y => migrateUnit id o y k.1 k.2)) (some (s, m))

/-- The map that step 0x05 makes of the working map. -/
def targetMap (s : State) (id : Nat) : Map :=
  let w := mapOf (wantOf s id)
  let c := workMap s id
  { w with frames := c.frames, lost := c.lost }

/-- The launch record of a loaded image. -/
def launchBytes (s : State) (id : Nat) (w : Rec) : List Byte :=
  let m := (tfind s.maps id).getD (mapOf w)
  (List.range 32).flatMap (fun k =>
    let va := rsImageVa w + rsLaunch w + 8 * k
    rdBytes s.dmem (tget 0 m.frames (va / 4096) + va % 4096) 8)

/-! ## Retiring a channel (R81, R99) -/

/-- The units of a map with a page on a retired channel under the placement of its frame record. -/
def retiredUnits (s : State) (m : Map) : List Nat :=
  if onHost m then []
  else (List.range (unitCount m)).filter (fun k =>
    (List.range (unitPages m)).any (fun j =>
      (tfind m.frames (unitPage m k + j)).isSome
        && onRetired s (framePa m (unitPage m k + j) / 4096) (frameAt s (framePa m (unitPage m k + j) / 4096)).place))

/-- Those units of one map moved: to other frames, or, in place, to a placement that leaves the channel (log 38, DEDUCED). A MAPPING shows step 0x05
with their count, and then stands as it stood (R81). -/
def leaveChannel (s : State) (id : Nat) : Option State :=
  match tfind s.maps id with
  | none => some s
  | some m =>
    let us := retiredUnits s m
    let old := (entryAt s id).stand
    let shows := recKind (builtOf s id) == 2
    if us.isEmpty then some s
    else
      (migrateUnits (if shows then stepMarks s id .converging 5 0 us.length else s) id m m us).map (fun y =>
        let s := { shootdown y.1 m.ctx with maps := tput y.1.maps id y.2 }
        if !shows then s
        else if old.state = .converged then markAs s id .converged 5 0 us.length us.length
        else writeMark s id (recQuiet (wantOf s id)) old)

/-- Every page moved off channel `ch`; none where there is no room. -/
def retireChannel (s : State) (ch : Nat) : Option State :=
  let s := { s with retiredChannels := if s.retiredChannels.contains ch then s.retiredChannels else s.retiredChannels ++ [ch] }
  (s.maps.map (·.1)).foldl (fun x id => x.bind (fun s => leaveChannel s id)) (some s)

/-- The launch record of a loaded image, and whether the program that it starts or resumes finds room (R65, R318). -/
def programFits (s : State) (id : Nat) (w : Rec) : Bool :=
  let l := parseLaunch (launchBytes s id w)
  noteRoom s id l && (match savedFor s w with | some p => restoreFits s (recParent w) l p | none => true)

/-- The step finds no frames, no table pages or no room (R65). -/
def lacks (s : State) (id : Nat) (w : Rec) (k : Nat) : Bool :=
  let m := workMap s id
  match recKind w, k with
  | 1, 1 => (tfind s.ctxs id).isNone && (takeTable s id).isNone
  | 1, 3 => !saveFree s w
  | 2, 1 => (allocMap s id m).isNone
  | 2, 3 => !tableRoom s m.len
  | 2, 5 => !tableRoom s m.len || (migrateUnits s id m (targetMap s id) (List.range (unitCount (targetMap s id)))).isNone
  | 3, 1 => wdRole w == 1 && !tableRoom s (wdSize w)
  | 5, 1 => !tableRoom s m.len || (allocMap s id m).isNone
  | 5, 2 => !programFits s id w
  | 7, 3 => false
  | 7, _ => fwPart w == 4 && (retireChannel s (fwItem w)).isNone
  | _, _ => false

/-- What keeps build step `k` from starting (R65): the first cause. -/
def stepBlock (s : State) (id k : Nat) : Option Nat :=
  let w := wantOf s id
  if !parentReady s w then some rPARENT_WAIT
  else if recKind w = 5 ∧ k ≤ 2 ∧ !(rsRefs w).all (refReady s w) then some rREF_WAIT
  else if recKind w = 4 ∧ k = 2 ∧ !(covered s (recParent w) (quTail w) 16 3 && covered s (recParent w) (quRing w) (quItems w * quItemSize w) 1) then some rREF_WAIT
  else if recKind w = 6 ∧ k = 1 then snapBlock s id w
  else if recKind w = 3 ∧ k = 2 ∧ wdRole w = 1 ∧ !(s.ports.any (fun e => e.2 == .inService)) then some rPEER_WAIT
  else if lacks s id w k then some rRESOURCES
  else none

/-- What blocks a record now (R65, R68). One that is still to be torn down is blocked only from that, and only where it goes: one that is rebuilt, or whose range
shrinks, is torn down whatever names it (log 57, DEDUCED); a teardown that has begun is not blocked (R69). -/
def blockedBy (s : State) (id : Nat) : Option Nat :=
  let e := entryAt s id
  let k := recKind (builtOf s id)
  if e.tear then
    (if e.orphan ∨ e.ending then none
     else if goes e && [2, 3, 4].contains k && refHeld s id then some rREF_WAIT
     else if goes e && k == 6 && snapNeeded s id then some rREF_WAIT
     else none)
  else
    match e.plan with
    | [] => none
    | k :: _ => stepBlock s id k

/-- A BLOCKED mark, unless the record is already blocked for that reason (R63). A SNAPSHOT too large for its target stays so (R78). -/
def markBlocked (s : State) (id reason : Nat) : State :=
  let e := (entryAt s id).stand
  let s := if recKind (wantOf s id) = 6 ∧ reason = rRESOURCES then updEntry s id (fun e => { e with phase := 9 }) else s
  if e.state = .blocked ∧ e.reason = reason then s else markAs s id .blocked 0 reason 0 0

/-- Every blocked id looked at again, ascending (R65); one that goes with its context waits for its teardown alone. -/
def reevaluate (s : State) : State :=
  ((s.book.filter (fun e => e.2.stand.state == .blocked && !e.2.orphan)).map (·.1)).foldl (fun s id =>
    match blockedBy s id with
    | some r => markBlocked s id r
    | none => markAs s id .pending 0 0 0 0) s

/-! ## Teardown (R68, R71) -/

/-- An id whose record is ABSENT and that has not converged before goes directly from PENDING to ABSENT, whatever of it was built (R55). -/
def goesDirectly (e : Entry) : Bool := recIntent (e.want.getD []) == 0 && !e.orphan && !e.ever

/-- DRAINING and its end for a record that goes, or is rebuilt. -/
def drainMark (s : State) (id step total : Nat) : State :=
  if goesDirectly (entryAt s id) then s
  else stepMarks s id .draining step (if (entryAt s id).orphan then rPARENT_ABSENT else 0) total

/-- Pages unmapped, shot down, and their frames given up (R71, R98). -/
def dropPages (s : State) (m : Map) (vps : List Nat) : State :=
  let s := vps.foldl (fun s vp => dropLeaf s m.ctx (vp * 4096)) s
  let s := shootdown s m.ctx
  vps.foldl (fun s vp => freeUnit s m vp 4096) s

/-- A QUEUE torn down: threads parked in QTAKE on it, whatever they wait for there, trap QUEUE (R71). -/
def trapTakers (s : State) (cb : Nat) : State :=
  ((s.threads.filter (fun e => e.2.park.isSome && e.2.taking == some (cb, e.2.parkSeq))).map (·.1)).foldl (fun s tk =>
    let pc := (threadAt s tk).pc
    becomesReady (trapAt (updThread s tk (fun t => { t with park := none, parkSeq := 0 })) tk .queue (BitVec.ofNat 64 cb) pc false) tk id) s

/-- Operations that a window still has under way settle as refused, an image on its way among them (R71). -/
def refuseOps (s : State) (win : Nat) : State :=
  let s := (s.fabOps.filter (fun e => e.2.win == win)).foldl (fun s e => settle s e.1 e.2 true) s
  (s.imagesOut.filter (fun e => snTwin (builtOf s e.2) == win)).foldl (fun s e => settleImage s e.1 e.2 true) s

/-- What step 0x10 undoes, and what step 0x11 releases. -/
def drain (s : State) (id : Nat) (b : Rec) : State :=
  match recKind b with
  | 2 => (match tfind s.maps id with
          | some m => shootdown ((rangePages m).foldl (fun s vp => dropLeaf s m.ctx (vp * 4096)) s) m.ctx
          | none => s)
  | 3 => leaveWindow (refuseOps s (wdNo b)) b
  | 4 => trapTakers s (quCb b)
  | 5 => killClasses s id
  | _ => s

def release (s : State) (id : Nat) (b : Rec) : State :=
  match recKind b with
  | 1 => { freeReserved (dropTlbs s id) (2 * id) with ctxs := tdel s.ctxs id }
  | 2 => (match tfind s.maps id with
          | some m => { (rangePages m).foldl (fun s vp => freeUnit s m vp 4096) s with maps := tdel s.maps id }
          | none => s)
  | 3 => { shootdown s (recParent b) with windows := tdel s.windows (wdNo b) }
  | 4 => { s with cbs := tdel s.cbs (quCb b) }
  | 5 =>
    let s := { s with residents := tdel s.residents id, noteQueues := s.noteQueues.filter (fun e => e.1 / 128 != id) }
    let s := pauseProgress s (recParent b)
    (match tfind s.maps id with
     | some m => { dropPages s m (rangePages m) with maps := tdel s.maps id }
     | none => s)
  | 6 => { releaseHold s (recParent b) with snaps := tdel s.snaps id, imagesOut := s.imagesOut.filter (fun e => e.2 != id) }
  | _ => s

/-- Progress units of step 0x10: those of the build step undone, pages of a MAPPING or a WINDOW, classes of a RESIDENT that was launched and pages of
one that was not, and none for a CONTEXT, restored or not, and for a SNAPSHOT (R56, R68; log 29, DEDUCED). -/
def drainTotal (s : State) (id : Nat) (b : Rec) : Nat :=
  match recKind b with
  | 2 => ((tfind s.maps id).map unitCount).getD 0
  | 3 => wdSize b / 4096
  | 5 => (match tfind s.residents id with
          | some r => r.n
          | none => ((tfind s.maps id).map unitCount).getD 0)
  | _ => 0

/-- The entry once nothing of the record is left; a QUEUE that is rebuilt discards its items (R64, R71). -/
def nothingLeft (s : State) (id : Nat) : State :=
  updEntry s id (fun e =>
    { e with built := none, tear := false, orphan := false, conv := false, ending := false, phase := 0,
             again := recKind (e.built.getD []) == 4 && !goes e && !e.ending })

/-- The record torn down whole: 0x10, 0x11, and ABSENT if it goes, or if the teardown is that of an earlier version (R55, R68, R69). What comes after
it is still planned. -/
def tearWhole (s : State) (id : Nat) : State :=
  let e := entryAt s id
  let b := builtOf s id
  let s :=
    if e.built.isNone then s
    else
      let s := if e.ending ∨ (e.stand.state = .draining ∧ e.stand.step = 0x10) then s else drainMark s id 0x10 (drainTotal s id b)
      let s := drainMark (drain s id b) id 0x11 0
      release s id b
  let s := if goes e ∨ e.ending then markAs s id .absent 0 (if e.orphan then rPARENT_ABSENT else 0) 0 0 else s
  updEntry (nothingLeft s id) id (fun x => { x with plan := if goes e then [] else x.plan })

/-- Pages that stay of units of a mapping of which others leave, with the A and D of their entries. -/
def sharingLeaves (s : State) (m : Map) (leaving : List Nat) : List (Nat × Bool × Bool) :=
  let n := unitPages m
  ((rangePages m).filter (fun vp => !leaving.contains vp && leaving.any (fun v => v / n == vp / n))).map (fun vp => (vp, foundAD s m.ctx vp 1))

/-- Those pages entered by themselves, with A and D as found: a leaf that also covered pages that leave is no more (R95). -/
def splitLeaves (s : State) (m : Map) (xs : List (Nat × Bool × Bool)) : State :=
  let m := { m with pagesize := 0 }
  let s := xs.foldl (fun s x => dropLeaf s m.ctx (x.1 * 4096)) s
  xs.foldl (fun s x => enterLeaf s m.ctx (x.1 * 4096) 0 (leafEntry s m x.1 x.2.1 x.2.2)) s

/-- The teardown part of a MAPPING's change: pages that leave the range, or every page that is refilled (R64, R71). -/
def tearPart (s : State) (id : Nat) : State :=
  let b := builtOf s id
  let w := wantOf s id
  let s := updEntry s id (fun e => { e with tear := false })
  match tfind s.maps id with
  | none => s
  | some m =>
    let stays (vp : Nat) : Bool := decide (mpVa w / 4096 ≤ vp) && decide (vp < (mpVa w + mpLen w) / 4096)
    let leaving := (rangePages m).filter (fun vp => !stays vp)
    let k := leaving.length * 4096 / unitBytes m
    let s :=
      if leaving.isEmpty then s
      else drainMark (splitLeaves (dropPages (drainMark s id 0x10 k) m leaving) m (sharingLeaves s m leaving)) id 0x11 0
    if refills b w then { dropPages s m ((rangePages m).filter stays) with maps := tdel s.maps id }
    else { s with maps := tput s.maps id { m with frames := m.frames.filter (fun e => stays e.1), fresh := m.fresh.filter stays, lost := m.lost.filter stays } }

/-- A SNAPSHOT's teardown begins, and waits (R69). -/
def beginDrain (s : State) (id : Nat) : State :=
  let e := entryAt s id
  updEntry (if e.ending ∨ e.stand.state = .draining then s else drainMark s id 0x10 0) id (fun e => { e with ending := true })

/-- A quiesced SNAPSHOT that is to go: its image is written first, where its target takes it. One that leaves for a peer goes once it has settled there
(R68). -/
def tearQuiesced (s : State) (id : Nat) (b : Rec) : State :=
  match tfind s.snaps id with
  | none => tearWhole s id
  | some x =>
    match imageTarget s b x.image.length with
    | (s, .inl _) => tearWhole s id
    | (s, .inr .peer) =>
      let s := releaseHold (writeImage s id x.image .peer) (recParent b)
      updEntry (beginDrain s id) id (fun e => { e with phase := 4 })
    | (s, .inr dest) => tearWhole (writeImage s id x.image dest) id

/-- The record's teardown steps (R68). A SNAPSHOT that is still quiescing, or whose image is on its way to a peer, waits, and one that is quiesced is written
first; a CONTEXT waits until nothing of it is left. -/
def tearRecord (s : State) (id : Nat) : State :=
  let e := entryAt s id
  let b := builtOf s id
  if recKind b = 2 ∧ !goes e then tearPart s id
  else if recKind b = 6 ∧ (e.phase = 1 ∨ e.phase = 2 ∨ e.phase = 4) then
    beginDrain s id
  else if recKind b = 6 ∧ e.phase = 3 then tearQuiesced s id b
  else if recKind b = 1 ∧ s.book.any (fun x => recParent (x.2.built.getD []) == id && recKind (x.2.built.getD []) != 1) then s
  else tearWhole s id

/-! ## Build steps -/

/-- A step's effect: the state, and where it cannot finish the reason and the units done (R66). -/
abbrev StepRun := State × Option (Nat × Nat)

/-- Steps of a CONTEXT (R47, R80, R117). -/
def contextStep (s : State) (id : Nat) (w : Rec) : Nat → StepRun
  | 1 =>
    let s := markAs s id .converging 1 0 0 0
    if (tfind s.ctxs id).isSome then (s, none)
    else
      match takeTable s id with
      | some (s, root) => ({ s with ctxs := tput s.ctxs id { Ctx.blank with root := root, built := true } }, none)
      | none => (s, none)
  | 2 =>
    let f (c : Ctx) : Ctx :=
      let c := { c with priority := cxPriority w, coreQuota := cxCoreQuota w, l2share := cxL2 w, memQuota := cxMemQuota w, nextPeriod := cxTick w }
      if c.tickOn then c else { c with tickOn := true, period := cxTick w, nextAt := s.timebase + cxTick w * 100 }
    ({ markAs s id .converging 2 0 0 0 with ctxs := tupd s.ctxs id f }, none)
  | 3 =>
    ({ markAs s id .converging 3 0 0 0 with ctxs := tupd s.ctxs id (fun c => { c with saveArea := cxSaveArea w, saveSize := cxSaveSize w }) }, none)
  | _ =>
    match readChain s (s.book.length + 1) (cxRestore w) with
    | (s, none) => (markAs s id .converging 4 0 0 0, some (rMEMORY_LOST, 0))
    | (s, some (ps, ss)) =>
      let q := stopAt s id ps.length false (fun _ => false)
      let s := partMarks q.1 id .converging 4 0 (doneOf ps.length q.2) ps.length
      (if q.2.isSome then s else { s with ctxs := tupd s.ctxs id (fun c => { c with restore := ps, saved := ss }) }, q.2)

/-- Step 0x04 of a MAPPING (R26): every page in ascending address order, flipped where its bias changes. A flip to device bias needs the link: one that is down,
or a BISnp without an answer in time, which is a link failure on its port, ends the step at the page that it was for (R24). -/
def biasStep (s : State) (id : Nat) (m : Map) (bias : Bool) : StepRun :=
  let vps := flipping s m bias
  let n := m.len / 4096
  let upTo (s : State) (j : Nat) : StepRun :=
    let k := vps.getD j 0 - m.va / 4096
    (shootdown (flipPages (partMarks s id .converging 4 0 k n) m bias (vps.take j)) m.ctx, some (rLINK, k))
  let whole : StepRun := (shootdown (flipPages (stepMarks s id .converging 4 0 n) m bias vps) m.ctx, none)
  if bias || vps.isEmpty then whole
  else if !linksUp s then upTo s 0
  else
    match s.mishap with
    | some (.bisnp i port) =>
      if i ≠ id then whole
      else
        let q := draw s
        let r := upTo { q.2 with mishap := none } (q.1 % vps.length)
        (loseLink r.1 port, r.2)
    | _ => whole

/-- Steps of a MAPPING (R48, R64, R90). -/
def mappingStep (s : State) (id : Nat) (w : Rec) (k : Nat) : StepRun :=
  let m := workMap s id
  match k with
  | 1 =>
    let n := (unitsWithout m (fun vp => (tfind m.frames vp).isSome)).length
    (match allocMap (stepMarks s id .converging 1 0 n) id m with
     | some (s, m) => ({ s with maps := tput s.maps id m }, none)
     | none => (s, none))
  | 2 =>
    let xs := fillItems s m (!(entryAt s id).conv)
    let bad (j : Nat) : Bool := (itemPages m (xs.getD j 0)).any (fun v => !indexed s m v && sourceBad s m v)
    let q := stopAt s id xs.length (m.srckind == 1) bad
    let done := xs.take (doneOf xs.length q.2)
    let s := done.foldl (fun s vp => fillStep s m vp) (partMarks q.1 id .converging 2 0 done.length xs.length)
    let m := if q.2.isNone then { m with fresh := [], lost := [] }
             else { m with fresh := m.fresh.filter (fun v => !done.contains v), lost := m.lost.filter (fun v => !(done.any (fun vp => (itemPages m vp).contains v))) }
    ({ s with maps := tput s.maps id m }, q.2)
  | 3 =>
    let us := unitsWithout m (leafStands s m)
    let xs := unitsWithAD s m us
    let s := xs.foldl (fun s x => enterUnit s m (unitPage m x.1) x.2) (stepMarks s id .converging 3 0 us.length)
    ({ shootdown s m.ctx with maps := tput s.maps id m }, none)
  | 4 => biasStep s id m (mpBias w == 1)
  | _ =>
    let t := targetMap s id
    let n := unitCount t
    let bad (j : Nat) : Bool := t.owns && (List.range (unitPages t)).any (fun i => pageBad s m (unitPage t j + i))
    let q := stopAt s id n (onHost m || onHost t) bad
    let s := shootdown (partMarks q.1 id .converging 5 0 (doneOf n q.2) n) m.ctx
    match migrateUnits s id m t (List.range (doneOf n q.2)) with
    | some (s, t) => ({ shootdown s m.ctx with maps := tput s.maps id (if q.2.isNone then t else { m with frames := t.frames }) }, q.2)
    | none => (s, none)

/-- Steps of a WINDOW (R34, R49). -/
def windowStep (s : State) (id : Nat) (w : Rec) : Nat → StepRun
  | 1 =>
    let s := stepMarks s id .converging 1 0 (wdSize w / 4096)
    (if wdRole w = 1 then shootdown (enterWindow s w) (recParent w) else s, none)
  | _ => ({ markAs s id .converging 2 0 0 0 with windows := tput s.windows (wdNo w) (windowOf w) }, none)

/-- A QUEUE's block once it is armed. A rebuild discards its items: the block starts at the tail word as it stands (R64, R71; log 29, DEDUCED). -/
def armQueue (s : State) (id cb qflags : Nat) : State :=
  let s := { s with cbs := tupd s.cbs cb (fun c => { c with qflags := qflags, armed := true }) }
  if !(entryAt s id).again then s
  else
    let s := updEntry s id (fun e => { e with again := false })
    match tailAt s (cb, tget ⟨0, 0, 0, 0, 0, 0, false, 0, 0, 0, false⟩ s.cbs cb) with
    | (s, some v) => { s with cbs := tupd s.cbs cb (fun c => { c with head := v, tickTail := v }) }
    | (s, none) => s

/-- Steps of a QUEUE (R50, R60, R114). -/
def queueStep (s : State) (id : Nat) (w : Rec) : Nat → StepRun
  | 1 => ({ markAs s id .converging 1 0 0 0 with cbs := tput s.cbs (quCb w) (blockOf w) }, none)
  | 2 => (markAs s id .converging 2 0 0 0, none)
  | _ => (armQueue (markAs s id .converging 3 0 0 0) id (quCb w) (quFlags w), none)

/-- Steps of a RESIDENT (R51, R70, R80, R102). Pages of a snapshot that lie in no MAPPING are not used. -/
def residentStep (s : State) (id : Nat) (w : Rec) : Nat → StepRun
  | 1 =>
    let m := workMap s id
    let n := unitCount m
    let q := stopAt s id n (m.srckind == 1) (fun j => (List.range (unitPages m)).any (fun i => sourceBad s m (unitPage m j + i)))
    (match allocMap (partMarks q.1 id .converging 1 0 (doneOf n q.2) n) id m with
     | none => (s, none)
     | some (s, m) =>
       let s := (List.range (doneOf n q.2)).foldl (fun s k => fillUnit s m false (unitPage m k)) s
       if q.2.isSome then ({ s with maps := tput s.maps id m }, q.2)
       else
         let s := (unitsWithAD s m (List.range n)).foldl (fun s x => enterUnit s m (unitPage m x.1) x.2) s
         let s := { shootdown s m.ctx with maps := tput s.maps id { m with fresh := [] } }
         (s, if launchValid (launchBytes s id w) (rsImageSize w) then none else some (0x0401, 0)))
  | _ =>
    let l := parseLaunch (launchBytes s id w)
    let r : Resident :=
      ⟨recParent w, rsPolicy w, rsPriority w, rsHslate w, rsImageVa w, rsImageSize w, rsEntry w, l, classCount l, [], 0, 0, 0, [], [], none, false⟩
    let s := { s with residents := tput s.residents id r }
    let s :=
      match savedFor s w with
      | some p => restoreProgram s id (recParent w) p
      | none => handOver s id
    (markAs s id .converging 2 0 0 (classCount l), none)

/-- A SNAPSHOT begins: it awaits the next tick boundary, unless nothing of the context is placed (R77). -/
def snapshotStep (s : State) (id : Nat) (w : Rec) : StepRun :=
  let n := (s.classes.filter (fun e => e.2.placed && e.2.ctx == recParent w)).length
  (updEntry (markAs s id .converging 1 0 0 n) id (fun e => { e with phase := if n = 0 then 2 else 1 }), none)

/-- PAUSED (R63, R118): classes are to leave their cores; a window refuses; a queue holds its takers. -/
def pauseRecord (s : State) (id : Nat) (w : Rec) : State :=
  let n := toHold s id
  let stop (s : State) : State :=
    { s with classes := s.classes.map (fun e => if e.2.placed ∧ (e.2.rid = id ∨ e.2.ctx = id) then (e.1, { e.2 with stopping := true }) else e) }
  match recKind w with
  | 1 => stop { markAs s id .converging 0x20 0 0 n with ctxs := tupd s.ctxs id (fun c => { c with held := true }) }
  | 5 => stop { markAs s id .converging 0x20 0 0 n with residents := tupd s.residents id (fun r => { r with held := true }) }
  | 3 => { markAs s id .converging 0x20 0 0 0 with windows := tupd s.windows (wdNo w) (fun x => { x with paused := true }) }
  | _ => { markAs s id .converging 0x20 0 0 0 with cbs := tupd s.cbs (quCb w) (fun x => { x with held := true }) }

/-- A return to PRESENT (R63). A class that the other of its records still holds, or that is a victim with room set aside, goes on stopping (R118). -/
def resumeRecord (s : State) (id : Nat) (w : Rec) : State :=
  let go (s : State) : State :=
    { s with classes := s.classes.map (fun e =>
        if e.2.placed ∧ (e.2.rid = id ∨ e.2.ctx = id) ∧ !(residentAt s e.2.rid).held ∧ !(ctxOf s e.2.ctx).held ∧ e.2.save.isNone then
          (e.1, { e.2 with stopping := false })
        else e) }
  match recKind w with
  | 1 => go { s with ctxs := tupd s.ctxs id (fun c => { c with held := false }) }
  | 5 => go { s with residents := tupd s.residents id (fun r => { r with held := false }) }
  | 3 => { s with windows := tupd s.windows (wdNo w) (fun x => { x with paused := false }) }
  | _ => { s with cbs := tupd s.cbs (quCb w) (fun x => { x with held := false }) }

/-- A step that does not apply is skipped (R64, R66, R90). -/
def skips (s : State) (id : Nat) (w : Rec) (k : Nat) : Bool :=
  let m := workMap s id
  recKind w == 2 &&
    ((decide (k ≤ 2) && onHost m) || (k == 2 && (fillItems s m (!(entryAt s id).conv)).isEmpty) || (k == 4 && !biasDiffers s m (mpBias w == 1)))

/-- A build step runs; an effect that a step's own fields need is that of the version that began it (R69). -/
def runStep (s : State) (id : Nat) (w : Rec) (k : Nat) : StepRun :=
  let s := updEntry s id (fun e => { e with built := some w })
  if k = 0x20 then (pauseRecord s id w, none)
  else if k = sResume then (resumeRecord s id w, none)
  else
    match recKind w with
    | 1 => contextStep s id w k
    | 2 => mappingStep s id w k
    | 3 => windowStep s id w k
    | 4 => queueStep s id w k
    | 5 => residentStep s id w k
    | _ => snapshotStep s id w

/-- The kind's last build step (R63). -/
def lastStep (w : Rec) : Nat :=
  match recKind w with
  | 1 => if cxRestore w = 0 then 3 else 4
  | 3 => 2
  | _ => 3

/-- The mark after the last build step, of which `k` and `total` are the code and count (R63, R66, R70). -/
def finishMark (s : State) (id k total : Nat) : State :=
  let w := wantOf s id
  if recKind w = 6 ∨ (recKind w = 5 ∧ k = 2) then s
  else if k = 0x20 ∧ toHold s id ≠ 0 ∧ (recKind w = 1 ∨ recKind w = 5) then s
  else if k = sResume then markAs s id .converged (lastStep w) 0 0 0
  else markAs s id .converged k 0 total total

/-- The steps left of a record's plan, in order; it stops where one is blocked or faults (R65, R66). The last code and its count are
carried for the final mark. -/
def runPlan (id : Nat) : List Nat → Nat × Nat → State → State
  | [], last, s => finishMark (updEntry s id (fun e => { e with plan := [] })) id last.1 last.2
  | k :: rest, last, s =>
    let s := updEntry s id (fun e => { e with plan := k :: rest })
    let w := wantOf s id
    if skips s id w k then runPlan id rest last s
    else
      match stepBlock s id k with
      | some r => markBlocked s id r
      | none =>
        match runStep s id w k with
        | (s, some (r, done)) =>
          let f := (entryAt s id).stand
          let s := updEntry s id (fun e => { e with plan := [] })
          if r = 0x0401 then markAs s id .faulted 2 r 0 0 else markAs s id .faulted f.step r done f.total
        | (s, none) => runPlan id rest (k, (entryAt s id).stand.total) s

/-- A quiesced SNAPSHOT whose target cannot take its image: nothing is written, its classes resume, and it is BLOCKED (R65, R78; log 36, DEDUCED). -/
def deferSnapshot (s : State) (id reason : Nat) : State :=
  let s := releaseHold { s with snaps := tdel s.snaps id } (recParent (builtOf s id))
  markAs (updEntry s id (fun e => { e with phase := 0, plan := [1] })) id .blocked 0 reason 0 0

/-- A SNAPSHOT whose image cannot be written, for an uncorrectable error in what it holds: its classes resume (R66). -/
def failSnapshot (s : State) (id step total : Nat) : State :=
  let s := releaseHold { s with snaps := tdel s.snaps id, mishap := if s.mishap = some (.lost id) then none else s.mishap } (recParent (builtOf s id))
  markAs (updEntry s id (fun e => { e with phase := 0, plan := [] })) id .faulted step rMEMORY_LOST 0 total

/-- A quiesced SNAPSHOT written, its classes resumed, and COMPLETE once its last byte is visible at the target's scope: at once, or, for a peer, once the
image settles there (R77, R78). -/
def finishSnapshot (s : State) (id : Nat) : State :=
  let r := builtOf s id
  match tfind s.snaps id with
  | none => s
  | some x =>
    match imageTarget s r x.image.length with
    | (s, .inl reason) => deferSnapshot s id reason
    | (s, .inr dest) =>
      let st := fieldAt x.image 0x18 8
      let pages := fieldAt x.image 0x20 4
      let bad := imageSpoiled s id x
      if bad = some 2 then failSnapshot (partMarks s id .converging 2 0 0 (st / 4096)) id 2 (st / 4096)
      else
        let s := stepMarks s id .converging 2 0 (st / 4096)
        if bad.isSome then failSnapshot (partMarks s id .converging 3 0 0 pages) id 3 pages
        else
          let s := stepMarks (writeImage s id x.image dest) id .converging 3 0 pages
          let s := releaseHold (markAs s id .converging 4 0 0 0) (recParent r)
          if dest = .peer then updEntry s id (fun e => { e with phase := 4, plan := [] })
          else markAs (updEntry s id (fun e => { e with phase := 0, plan := [] })) id .complete 4 0 0 0

/-- The build stage's work on one record. A change whose steps are all skipped shows CONVERGED with the kind's last step and no counts (R66; log 57,
DEDUCED). -/
def buildRecord (s : State) (id : Nat) : State :=
  let e := entryAt s id
  if e.tear then s
  else if e.phase = 3 then finishSnapshot s id
  else if e.phase ≠ 0 then s
  else
    match e.plan with
    | [] => s
    | p => runPlan id p (lastStep (wantOf s id), 0) s

end Sys2Proof.Machine
end

