-- ==== Sys2Proof/Machine/Firmware.lean ====
section
/-! DEFINITION. FIRMWARE records: updates of the module's parts, and the retirement of cores and channels (R11, R81, R82). -/

namespace Sys2Proof.Machine

/-- The named dies in the order they are taken: ascending, the pass leader's last (R62, R81). -/
def dieOrder (r : Rec) : List Nat :=
  let ds := (List.range 8).filter (fun d => fwDies r / 2 ^ d % 2 == 1)
  ds.filter (· != 0) ++ ds.filter (· == 0)

/-- The installed version of a part on a die. -/
def installed (s : State) (part die : Nat) : Nat :=
  if part = 0 then tget 0 s.fwVersion die else if part = 1 then tget 0 s.walkVersion die else s.cfgFlash.version

/-- An image carries the OID of XMSS-SHAKE256_20_256 and a signature that verifies against the Kelnan public root (R82). -/
def imageSigned (bs : List Byte) : Bool :=
  let key (f : Nat → Byte) : List Byte := (List.range 32).map f
  Config.imageOid bs == xmssOid && xmssVerify (key Config.kelnanRoot) (key Config.kelnanSeed) (Config.imageMessage bs) (Config.imageSignature bs)

/-- The image is signed, declares IMGVER, and is not below what is installed (R82). -/
def imageGood (s : State) (r : Rec) (bs : List Byte) : Bool :=
  imageSigned bs && Config.imageVersion bs == fwVer r && (dieOrder r).all (fun d => decide (installed s (fwPart r) d ≤ fwVer r))

/-- Physical cores for `n` numbers of a die, each one of those left, as fields of the image from `k` on name them: no two numbers have one core (R10). -/
def pickCores (bs : List Byte) : Nat → Nat → List Nat → List Nat
  | 0, _, _ => []
  | n + 1, k, left =>
    let p := left.getD (Config.imageField bs k % left.length) 0
    p :: pickCores bs n (k + 1) (left.erase p)

/-- The assignment of a signed image: each of a die's 64 numbers has a physical core of its own among the 68 (R10; log 9, DESIGN CHOICE). -/
def imageCores (bs : List Byte) : Table Nat :=
  (List.range 8).flatMap (fun d => (List.range 64).zip (pickCores bs 64 (4 + 64 * d) (List.range 68)) |>.map (fun x => (coreKey d x.1, x.2)))

/-- The configuration that a signed image holds: no more is exported than there is (R10, R12; log 9, DESIGN CHOICE). -/
def cfgOfImage (bs : List Byte) (version : Nat) : CfgImage :=
  { device := BitVec.ofNat 12 (Config.imageField bs 0), mkoff := Config.imageField bs 1 * 4096, hdmSize := min (Config.imageField bs 2 * 4096) deviceBytes,
    scan := Config.imageField bs 3 % 2 == 1, version := version, verifies := true, coreMap := imageCores bs, bytes := bs }

/-- One die updated (R81). New walk routines are followed by a shootdown of the die for every context (R91). -/
def updateDie (s : State) (r : Rec) (bs : List Byte) (die : Nat) : State :=
  match fwPart r with
  | 0 => { s with fwVersion := tset 0 s.fwVersion die (fwVer r) }
  | 1 => shootdownDie { s with walkVersion := tset 0 s.walkVersion die (fwVer r), routines := tput s.routines die bs } die
  | _ => { s with cfgFlash := cfgOfImage bs (fwVer r), newImage := true }

/-- Some byte of the image's source is spoiled (R66). -/
def imageBad (s : State) (r : Rec) : Bool :=
  (splitLines (fwImageSrc r) (fwImageSize r + 1) (fwImageSize r)).any (fun x =>
    let pl := if fwSrcKind r = 1 then hostPlace s x.1 else homePlace s x.1
    spoiledAt s pl.host pl.pa x.2)

/-- A FIRMWARE record that cannot finish its first step (R66, R82). -/
def failImage (s : State) (id reason : Nat) : State := markAs (updEntry s id (fun e => { e with plan := [] })) id .faulted 1 reason 0 0

/-- PARTs 0 to 2: the image is verified before any die changes (R81, R82). -/
def updatePart (s : State) (id : Nat) (r : Rec) : State :=
  let q := stopAt (markAs s id .converging 1 0 0 0) id 1 (fwSrcKind r == 1) (fun _ => imageBad s r)
  match q.2 with
  | some (reason, _) => failImage q.1 id reason
  | none =>
    let q := readSource q.1 (fwSrcKind r == 1) (fwImageSrc r) (fwImageSize r)
    let ds := dieOrder r
    if !imageGood q.1 r q.2 then failImage q.1 id rSIGNATURE
    else
      let s := ds.foldl (fun s d => updateDie s r q.2 d) (stepMarks q.1 id .converging 2 0 ds.length)
      let s := markAs s id .converging 3 0 0 0
      markAs (updEntry s id (fun e => { e with plan := [] })) id .converged 3 0 0 0

/-- A core empties for its retirement: nothing more is placed on it, and its classes are pre-empted (R81). -/
def emptyCore (s : State) (core : Nat) : State :=
  { s with vacant := if s.vacant.contains core then s.vacant else s.vacant ++ [core],
           classes := s.classes.map (fun e => if e.2.placed ∧ coreOfCls e.2 = core then (e.1, { e.2 with stopping := true }) else e) }

/-- The physical core that serves a logical one: that of its number, unless the image or a retirement assigned another (R10, R11). -/
def physOf (s : State) (core : Nat) : Nat := (tfind s.coreMap core).getD (core % 64)

/-- The lowest of a die's 68 physical cores that serves no number and is not retired: R11 does not say which spare takes a number (R10; log 56, DESIGN
CHOICE). -/
def spareOf (s : State) (die : Nat) : Option Nat :=
  let used := (List.range 64).map (fun k => physOf s (coreKey die k))
  (List.range 68).find? (fun p => !used.contains p && !s.retiredCores.contains (68 * die + p))

/-- The physical core of a number that is empty is retired, and a spare takes the number; with none left the number stays vacant (R10, R11). -/
def replaceCore (s : State) (core : Nat) : State :=
  let die := core / 64
  let s := flushCore s core
  match spareOf s die with
  | none => { s with retiredCores := s.retiredCores ++ [68 * die + physOf s core] }
  | some p =>
    { s with vacant := s.vacant.filter (· != core), coreMap := tput s.coreMap core p, retiredCores := s.retiredCores ++ [68 * die + physOf s core] }

/-- Enabled cores of some dies. -/
def enabledCores (s : State) (ds : List Nat) : Nat := ((ds.flatMap (fun d => (List.range 64).map (coreKey d))).filter (fun c => !s.vacant.contains c)).length

/-- PART 3 and PART 4 done: where a named die has fewer than 64 cores enabled, the mark counts them (R11; log 56, DESIGN CHOICE). -/
def retiredMark (s : State) (id : Nat) (ds : List Nat) : State :=
  let s := updEntry (markAs s id .converging 3 0 0 0) id (fun e => { e with plan := [], phase := 0 })
  let n := enabledCores s ds
  if n = 64 * ds.length then markAs s id .converged 3 0 0 0 else markAs s id .converged 3 0 n (64 * ds.length)

/-- PART 3: die by die, each waiting for its core to empty (R81). A number that is vacant already has no core to retire. -/
def retireCores (id : Nat) (r : Rec) (n : Nat) : List Nat → State → State
  | [], s => retiredMark s id (dieOrder r)
  | d :: ds, s =>
    let core := coreKey d (fwItem r)
    let gone := s.vacant.contains core && s.retiredCores.contains (68 * d + physOf s core)
    let s := emptyCore s core
    if (classesOn s core).isEmpty then
      let s := updEntry (if gone then s else replaceCore s core) id (fun e => { e with phase := e.phase + 1 })
      retireCores id r n ds (progressMark s id .converging 2 0 (n - ds.length) n)
    else s

/-- A FIRMWARE record's steps (R81). Its ABSENT mark has no DRAINING before it, and the installed state stays (R68). -/
def firmwareRecord (s : State) (id : Nat) : State :=
  let e := entryAt s id
  let w := wantOf s id
  if e.tear then
    (if recIntent w = 0 then markAs (updEntry (nothingLeft s id) id (fun e => { e with plan := [] })) id .absent 0 0 0 0 else updEntry s id (fun e => { e with tear := false }))
  else
    match e.plan, blockedBy s id with
    | [], _ => s
    | _, some r => markBlocked s id r
    | p, none =>
      let s := updEntry s id (fun e => { e with built := some w })
      let ds := dieOrder w
      if fwPart w < 3 then updatePart s id w
      else
        let s := if p.head? = some 1 then updEntry (markAs s id .converging 2 0 0 ds.length) id (fun e => { e with plan := [2, 3], phase := 0 }) else s
        if fwPart w = 3 then retireCores id w ds.length (ds.drop (entryAt s id).phase) s
        else
          match retireChannel s (fwItem w) with
          | some s => retiredMark s id []
          | none => s

end Sys2Proof.Machine
end

