-- ==== Sys2Proof/Machine/Reconcile.lean ====
section
/-! DEFINITION. A pass of the reconciler (R40 to R45, R58, R61 to R76): the header, the flagged records, planning, teardown, build,
FIRMWARE and mark 0. One PASS is one step, so no flag is set and no link drops while it runs (log 5, DESIGN CHOICE). -/

namespace Sys2Proof.Machine

/-! ## Reading a record (R36, R42) -/

/-- A record's 128 bytes, wherever the playbill lies (R28, R36). In host memory the watch filters then hold its two lines in S state (R59, R325). -/
def readRecord (s : State) (base id : Nat) : State × Rec :=
  let q := readSource s true (base + 128 * id) 128
  let watch1 (s : State) (k : Nat) : State :=
    let ls := tget [] s.watch (k % 8)
    if ls.contains k then s else { s with watch := tput s.watch (k % 8) (ls ++ [k]) }
  (if (hdmOffset s base).isNone then watch1 (watch1 q.1 (2 * id)) (2 * id + 1) else q.1, q.2)

/-- Sequence order of versions (R42). -/
def versionBelow (a b : Nat) : Bool := decide (2 ^ 31 ≤ (a + 2 ^ 32 - b) % 2 ^ 32)

/-- A CONFLICT mark about the copy read, whose QUIET it follows as it was read, verified or not (R38, R42; log 57, DEDUCED). -/
def conflictMark (s : State) (id : Nat) (r : Rec) (reason observed writer : Nat) : State :=
  writeMark s id (recQuiet r) ⟨.conflict, 0, reason, 0, 0, observed, writer⟩

/-- A copy that the seal accepts, compared with the last one (R42): the reason of a CONFLICT, or whether it is a new version. -/
def compareCopy (e : Entry) (r : Rec) : Nat ⊕ Bool :=
  if e.copy.isEmpty then .inr true
  else if versionBelow (recVersion r) e.o && !recForce r then .inl rREGRESSION
  else if recVersion r = e.o ∧ r = e.copy then .inr false
  else if recVersion r = e.o && !recForce r then .inl rREUSED
  else .inr true

/-- One flagged record read and checked (R42 to R44): whether a new version was accepted. -/
def takeRecord (s : State) (base count id : Nat) : State × Bool :=
  let q := readRecord s base id
  let s := q.1
  let r := q.2
  let e := entryAt s id
  let v := recVersion r
  if v % 2 = 1 then (conflictMark s id r rTORN v 0, false)
  else if allZero r then (if e.copy.isEmpty then s else conflictMark s id r rREGRESSION 0 0, false)
  else if recSeal r ≠ sealOf r then (conflictMark s id r rSEAL v 0, false)
  else
    match compareCopy e r with
    | .inl reason => (conflictMark s id r reason v (recWriter r), false)
    | .inr false => (s, false)
    | .inr true =>
      let s := setEntry s id { e with copy := r, o := v }
      match checkRecord s id count r with
      | some reason => (writeMark s id (recQuiet r) ⟨.refused, 0, reason, 0, 0, v, recWriter r⟩, false)
      | none => (markAs (updEntry s id (fun e => { e with want := some r, orphan := false })) id .pending 0 0 0 0, true)

/-! ## Planning (R64) -/

/-- A version that leaves nothing to do shows the mark of the state the record stands in (R64). -/
def standMark (s : State) (id : Nat) (old : Mark) : State :=
  let w := wantOf s id
  writeMark s id (recQuiet w) { old with observed := recVersion w, writer := recWriter w }

/-- The build steps that earlier versions left undone, but for a PAUSED or a return from it, which only the newest INTENT asks for (R63, R64). A
version that never began leaves none of its own. -/
def leftOver (o : Entry) (b : Rec) : List Nat :=
  let own := match o.want with
    | some pw => if o.conv ∧ pw ≠ b then changeSteps b pw else []
    | none => []
  o.plan.filter (fun k => decide (k < 0x20) && !own.contains k)

/-- The plan of a new version whose body changes the built record in place, or not at all: a teardown that is not begun is taken back (R64, R65,
R68). A PAUSED that still waits for classes to leave goes on after the steps of the change (R63). With nothing left to do the mark is that of the state the
record stands in; a record that is BLOCKED is looked at again. -/
def planChange (s : State) (id : Nat) (o : Entry) (b w : Rec) : State :=
  let e := entryAt s id
  let back := e.tear && goes o
  let base := if back ∧ !e.conv then fullPlan b else leftOver o b
  let changes := if recKind w = kResident then [] else changeSteps b w
  let steps := mergeSteps base changes
  let holding := recIntent w == 2 && isPaused s id && (recKind w == 1 || recKind w == 5) && toHold s id != 0
  let plan := mergeSteps steps (if holding && !steps.isEmpty then [0x20] else intentSteps (isPaused s id) w)
  let same := (o.want.map (sameBody w)).getD false
  let tear := recKind w == kMapping && (refills b w || shrinks b w)
  let s := updEntry s id (fun e => { e with tear := tear || (e.tear && !back), plan := plan })
  if plan.isEmpty then standMark s id (if o.stand.state = .blocked ∨ back then e.last else o.stand)
  else if !back ∧ plan = o.plan ∧ same ∧ o.stand.state ≠ .blocked then standMark s id o.stand
  else s

/-- The plan of a new version; `o` is the entry as it was before its PENDING mark (R64, R66). A teardown that has begun runs to its end first
(R69). -/
def planNew (s : State) (id : Nat) (o : Entry) : State :=
  let e := entryAt s id
  let w := wantOf s id
  let whole := fullPlan w ++ (if recIntent w = 2 then [0x20] else [])
  let put (tear : Bool) (plan : List Nat) (s : State) : State := updEntry s id (fun e => { e with tear := tear, plan := plan })
  if recIntent w = 0 then put true [] s
  else
    match e.built with
    | none => put false whole (updEntry s id (fun e => { e with phase := 0 }))
    | some b =>
      if e.tear && (e.ending || o.stand.state == .draining) then put true whole (updEntry s id (fun e => { e with ending := true }))
      else if o.stand.state = .faulted then
        let again := recKind w == 3 || recKind w == 4 || recKind w == 5
        put (again || (recKind w == 2 && (refills b w || shrinks b w)))
          (mergeSteps whole (if again then [] else changeSteps b w)) (updEntry s id (fun e => { e with phase := 0 }))
      else if recKind w = kSnapshot then
        (if sameBody b w then
           (if e.phase ≠ 0 then standMark (put false e.plan s) id o.stand else planChange s id o b w)
         else put false [1] (updEntry { (if e.phase = 0 then s else releaseHold s (recParent b)) with imagesOut := s.imagesOut.filter (fun x => x.2 != id) } id
           (fun e => { e with phase := 0, conv := false })))
      else if rebuilds b w then put true whole s
      else if recKind w = kResident then
        planChange (updResident (updEntry s id (fun e => { e with built := some w })) id (fun r => { r with priority := rsPriority w })) id o b w
      else planChange (if recKind w = kFirmware && !sameBody b w then updEntry s id (fun e => { e with phase := 0 }) else s) id o b w

/-- The records of a CONTEXT that becomes ABSENT are torn down with it (R68). -/
def cascade (s : State) : State :=
  let gone := (s.book.filter (fun e => recKind (e.2.want.getD []) == 1 && goes e.2 && e.2.stand.state != .absent)).map (·.1)
  let child (e : Entry) : Bool :=
    let r := (e.built.or e.want).getD []
    recKind r != 1 && recKind r != 7 && gone.contains (recParent r)
      && (e.built.isSome || [MarkState.pending, .blocked, .converging, .converged].contains e.stand.state)
  { s with book := s.book.map (fun e => if child e.2 then (e.1, { e.2 with orphan := true, tear := true, plan := [] }) else e) }

/-- A record with work left from earlier passes (R65). -/
def carried (e : Entry) : Bool := e.stand.state == .blocked || e.tear || !e.plan.isEmpty || e.phase != 0

/-- One id planned, and its block found (R63, R65). -/
def planOne (new : List (Nat × Entry)) (s : State) (id : Nat) : State :=
  let s :=
    match new.find? (fun x => x.1 == id) with
    | some x => if (entryAt s id).orphan then s else planNew s id x.2
    | none => s
  match blockedBy s id with
  | some r => markBlocked s id r
  | none =>
    let e := entryAt s id
    if e.stand.state = .blocked && !e.orphan && (e.tear || !e.plan.isEmpty) then markAs s id .pending 0 0 0 0 else s

/-! ## The stages (R63) -/

/-- The kind of the record that an entry has, or is to have. -/
def kindOfEntry (e : Entry) : Nat := recKind ((e.built.or e.want).getD [])

/-- The teardown stage of a kind (R68). -/
def tearKind (s : State) (k : Nat) : State :=
  ((s.book.filter (fun e => e.2.tear && kindOfEntry e.2 == k)).map (·.1)).foldl (fun s id =>
    if (blockedBy s id).isSome then s else reevaluate (tearRecord s id)) s

/-- The build stage of a kind (R69). -/
def buildKind (s : State) (k : Nat) : State :=
  ((s.book.filter (fun e => recKind (e.2.want.getD []) == k && !e.2.tear && (!e.2.plan.isEmpty || e.2.phase == 3))).map (·.1)).foldl (fun s id =>
    match blockedBy s id with
    | some r => markBlocked s id r
    | none => reevaluate (buildRecord s id)) s

/-- The FIRMWARE stage (R81). -/
def firmwareStage (s : State) : State :=
  ((s.book.filter (fun e => recKind (e.2.want.getD []) == 7 && (e.2.tear || !e.2.plan.isEmpty))).map (·.1)).foldl (fun s id => reevaluate (firmwareRecord s id)) s

/-- Work that a next pass can do at once (R61, R65). -/
def pendingWork (s : State) : Bool :=
  s.book.any (fun e => e.2.phase == 3 && recKind (e.2.built.getD []) == 6 || (e.2.stand.state == .pending && (e.2.tear || !e.2.plan.isEmpty)))

/-- Mark 0 (R58). -/
def markZero (s : State) (st : MarkState) (reason done total rev : Nat) : State := putMark s 0 ⟨st, 0, reason, done, total, rev, 0⟩

/-- The header's first failed check (R58). -/
def headerBad (h : List Byte) : Option Nat :=
  if fieldAt h 0 2 ≠ 3 then some rLAYOUT
  else if fieldAt h 2 1 ≠ 0 then some rKIND
  else if !allZero ((h.drop 3).take 1) || !allZero (h.drop 0x0C) then some rRESERVED
  else none

/-- The ids that a pass reads, ascending (R45, R63). -/
def toRead (s : State) (count : Nat) (all : Bool) : List Nat :=
  if all then (List.range count).drop 1 else sortNats ((s.flags.filter (fun i => i != 0 && decide (i < count))).eraseDups)

/-- Each id read in turn: those with a new version, each with its entry as it was. -/
def readAll (base latched : Nat) : List Nat → State → State × List (Nat × Entry)
  | [], s => (s, [])
  | id :: r, s =>
    let old := entryAt s id
    let q := takeRecord { s with flags := s.flags.filter (· != id) } base latched id
    let t := readAll base latched r q.1
    (t.1, if q.2 then (id, old) :: t.2 else t.2)

/-- The pass's interrupt (R29). -/
def passInterrupt (s : State) : State :=
  if s.dvsec.mkien && s.marksWritten then { s with irqs := s.irqs ++ [s.dvsec.mkvec.toNat] } else s

/-- A pass, with the playbill's base and latched count (R63). A full read that a REFUSED header has put off stays owed (R58; log 57, DEDUCED). A killed class
whose entry it has written, or made sure not to write, joins its list (R210). -/
def runPass (s : State) (base latched : Nat) (sweep : Bool) : State :=
  let now := s.timebase
  let full := s.fullRead
  let old := s.lastRev
  let h := readRecord { s with wake := false, marksWritten := false } base 0
  let s := { h.1 with flags := h.1.flags.filter (· != 0) }
  let rev := fieldAt h.2 4 4
  let count := fieldAt h.2 8 4
  let s := if sweep then { s with lastRev := rev } else s
  match headerBad h.2 with
  | some reason => { markZero s .refused reason 0 0 rev with lastPassEnd := now }
  | none =>
    let bad := decide (count < 2) || decide (latched < count)
    let count := if bad then latched else count
    let all := full || (sweep && rev != old)
    let s := { s with fullRead := false, lastRev := if full then rev else s.lastRev }
    let q := readAll base latched (toRead s count all) s
    let new := q.2
    let s := cascade q.1
    let todo := (s.book.filter (fun e => carried e.2 || new.any (fun x => x.1 == e.1))).map (·.1)
    let s := todo.foldl (planOne new) s
    let s := [6, 5, 4, 3, 2, 1].foldl tearKind s
    let s := [1, 2, 3, 4, 5, 6].foldl buildKind s
    let s := joinWritten (firmwareStage s)
    let s := markZero s .converged (if bad then rFIELD else 0) new.length count rev
    passInterrupt { s with lastPassEnd := now, wake := pendingWork s }

/-- A pass can run: the playbill is watched, and every link in use is up (R24, R28). -/
def mayPass (s : State) : Bool := running s && linksUp s && s.dvsec.pben

/-- A pass that a wake-up begins. -/
def wokenPass (s : State) : Option State := s.playbill.bind (fun x => if mayPass s && s.wake then some (runPass s x.1 x.2 false) else none)

/-- A pass that a backstop sweep begins: 10 ms have passed since the last pass ended. -/
def sweepPass (s : State) : Option State :=
  s.playbill.bind (fun x => if mayPass s && decide (s.lastPassEnd + 1000000 ≤ s.timebase) then some (runPass s x.1 x.2 true) else none)

/-- PASS: on a wake-up (R61, R63). -/
def execPassStep (s : State) : Out := .next ((wokenPass s).getD s)

/-- BACKSTOP_SWEEP: 10 ms after the last pass ended (R45, R61). -/
def execBackstopSweep (s : State) : Out := .next ((sweepPass s).getD s)

/-- A pass that is due, with an outside event that falls during it; none where no pass is due, or none of its steps meets the event. -/
def strickenPass (s : State) (m : Mishap) : Option State :=
  let s := { s with mishap := some m }
  ((wokenPass s).or (sweepPass s)).filter (fun t => t.mishap.isNone)

end Sys2Proof.Machine
end

