-- ==== Sys2Proof/Machine/Errors.lean ====
section
/-! DEFINITION. Errors of the memory arrays (R84, R165, R341). -/

namespace Sys2Proof.Machine

/-- One error counted for a core (0 to 511) or a channel (512 to 1,023) (R84). -/
def countError (s : State) (unit : Nat) : State := { s with errUncorrected := tset 0 s.errUncorrected unit (tget 0 s.errUncorrected unit + 1) }

/-- CORRECTED_ERROR: no result changes; it is counted (R84, R165). -/
def execCorrectedError (unit : Nat) (s : State) : Out :=
  .next (if running s && decide (unit < 1024) then { s with errCorrected := tset 0 s.errCorrected unit (tget 0 s.errCorrected unit + 1) } else s)

/-- The mapping, and its page, that a page of device or host memory backs. -/
def mapAt (s : State) (host : Bool) (page : Nat) : Option (Nat × Map × Nat) :=
  s.maps.findSome? (fun e =>
    if onHost e.2 then
      (if host ∧ e.2.source ≤ page * 4096 ∧ page * 4096 < e.2.source + e.2.len then some (e.1, e.2, (e.2.va + (page * 4096 - e.2.source)) / 4096)
       else none)
    else if host then none
    else ((e.2.frames.find? (fun x => x.2 == page * 4096)).map (fun x => (e.1, e.2, x.1))))

/-- A page of a MAPPING is lost: its leaf goes, and the mark is FAULTED (R84, R165). An image's page faults its RESIDENT as a private frame
would (log 39, DEDUCED). -/
def losePage (s : State) (id : Nat) (m : Map) (vp : Nat) : State :=
  if recKind (builtOf s id) = kResident then condemn s id 0x040F
  else
    let n := leafPages m
    let vps := (List.range n).map (fun j => vp / n * n + j)
    let s := shootdown (dropLeaf s m.ctx (vp * 4096)) m.ctx
    let s := { s with maps := tupd s.maps id (fun m => { m with lost := (m.lost ++ vps).eraseDups }) }
    let e := (entryAt s id).stand
    markAs (updEntry s id (fun e => { e with plan := [] })) id .faulted e.step rMEMORY_LOST e.done e.total

/-- The RESIDENTs of a context are to be killed, with reason 0x040F (R165). -/
def condemnContext (s : State) (ctx : Nat) : State :=
  ((s.residents.filter (fun e => e.2.ctx == ctx)).map (·.1)).foldl (fun s rid => condemn s rid 0x040F) s

/-- The program of a private segment that holds an address (R150). -/
def segmentHolder (s : State) (pa : Nat) : Option Nat :=
  (s.classes.find? (fun e => e.2.segBase.any (fun b => decide (b.2 ≤ pa) && decide (pa < b.2 + 32 * (launchOf s e.1).ownBytes)))).map (fun e => e.2.rid)

/-- The dirty bytes of a line are lost: its MAPPING, or the RESIDENT of a private or save-area frame, faults (R165). -/
def loseLine (s : State) (host : Bool) (line : Nat) : State :=
  match mapAt s host (line / 32) with
  | some (id, m, vp) => losePage s id m vp
  | none =>
    if host then s
    else
      match segmentHolder s (line * 128) with
      | some rid => condemn s rid 0x040F
      | none =>
        match s.ctxs.find? (fun e => decide (e.2.saveArea ≤ line * 128) && decide (line * 128 < e.2.saveArea + e.2.saveSize)) with
        | some e => condemnContext s e.1
        | none => s

/-- An L1 line dropped: a clean one is fetched again, a dirty one is lost (R165). -/
def spoilLine (s : State) (k : Nat) : State :=
  match tfind s.l1 k with
  | none => s
  | some ln =>
    let s := countError { s with l1 := tdel s.l1 k } (coreOfLine k)
    if ln.dirty.any id then loseLine s (hostOfLine k) (lineOfKey k) else s

/-- Numbers added to a list, each once. -/
def addNew (xs ys : List Nat) : List Nat := xs ++ ys.filter (fun y => !xs.contains y)

/-- The codeword at a place of memory is spoiled: 32 bytes (R165). It counts for the channel, or for the core `core` where it is host memory (R84). -/
def spoilPlace (s : State) (core : Nat) (pl : Place) : State :=
  let ws := (List.range 32).map (pl.pa / 32 * 32 + ·)
  if pl.host then countError { s with badHost := addNew s.badHost ws } core
  else countError { s with badDev := addNew s.badDev ws } (512 + homeChannel pl.pa pl.pl)

/-- The 64-bit word at an offset of a class's scratch aperture is spoiled: eight bytes of scratch, or two registers (R135, R165). -/
def spoilOffset (s : State) (ck o : Nat) : State :=
  let s := countError s (coreOf s ck)
  if o < 0x80000000 then
    (if o < scratchSize s ck then { s with badScratch := addNew s.badScratch ((List.range 8).map (fun j => scratchKey ck (o / 8 * 8 + j))) } else s)
  else
    let q := (o - 0x80000000) / 8 * 2
    if apertureOk s ck q then { s with badRegs := addNew s.badRegs [apertureKey ck q, apertureKey ck (q + 1)] } else s

/-- The word of 64 bits or the codeword at an address of a class is spoiled until it is written: whatever would consume it then meets the error, and what
overwrites it does not (R165; log 40, DESIGN CHOICE). -/
def spoilAt (s : State) (ck va : Nat) : State :=
  if inAperture va then spoilOffset s ck (va - apertureBase)
  else
    match peekWalk s (clsAt s ck).ctx va .read with
    | .leaf e lv _ => spoilPlace s (coreOf s ck) (placeOf e lv va)
    | _ => s

/-- The code that a thread fetches next is spoiled, and its line leaves the core's instruction cache (R127, R165). -/
def spoilFetch (s : State) (tk : Nat) : State :=
  let ck := ckOfT tk
  let va := (threadAt s tk).pc.toNat
  match peekWalk s (clsAt s ck).ctx va .exec with
  | .leaf e lv _ =>
    let pl := placeOf e lv va
    spoilPlace { s with icache := tdel s.icache (icacheKey (coreOf s ck) pl.host (pl.pa / 128)) } (coreOf s ck) pl
  | _ => s

/-- The data that a copy request reads next is spoiled (R341). -/
def spoilRequest (s : State) (req : Nat) : State :=
  match tfind s.reqs req with
  | none => s
  | some r =>
    if r.moved || !r.begun then s
    else spoilAt s r.ck (wrap64 ((rowSrc r.blk r.lrFirst r.bases (r.rows / r.blk.size0) : Int) + (r.rows % r.blk.size0 : Nat)))

/-- UNCORRECTABLE_ERROR at a site: 0 an L1 line, 1 a line of a remote-data cache, 2 a line of an instruction cache, 3 a dirty L2 line, 4 the data at the
address `addr` of a thread's class, 5 the code that a thread fetches next, 6 what a copy request reads next, 7 the source or a frame of a record's step in the
pass that is due, the channel of device address `addr` counting it (R66, R84, R165, R341). -/
def execUncorrectableError (site : Nat) (at_ : Nat) (addr : Nat) (s : State) : Out :=
  if !running s then .next s
  else
    match site with
    | 0 => .next (spoilLine s at_)
    | 1 => .next { s with rdc := tdel s.rdc at_ }
    | 2 => .next (if (tfind s.icache at_).isSome then countError { s with icache := tdel s.icache at_ } (at_ / 2 ^ 60) else s)
    | 3 => .next (countError (loseLine s false at_) (512 + homeChannel (at_ * 128) (frameAt s (at_ / 32)).place))
    | 4 => .next (spoilAt s (ckOfT at_) addr)
    | 5 => .next (spoilFetch s at_)
    | 6 => .next (spoilRequest s at_)
    | 7 => .next (match strickenPass s (.lost at_) with
                  | some t => countError t (512 + homeChannel addr (frameAt s (addr / 4096)).place)
                  | none => s)
    | _ => .next s

end Sys2Proof.Machine
end

