-- ==== Sys2Proof/Machine/Links.lean ====
section
/-! DEFINITION. The host's side: the DVSEC and its mailbox (R27 to R30), the CXL links (R22 to R26, R370), the host's accesses to device
memory and its snoops (R25, R59, R60, R160). A host request over a port that is down has no answer. -/

namespace Sys2Proof.Machine

/-- The device answers the host over CXL.mem and CXL.cache: every port in use is up (R24, R370). -/
def answers (s : State) : Bool := running s && linksUp s

/-- Port 0 carries configuration requests: to the DVSEC and its mailbox (R24, R27). -/
def ioAnswers (s : State) : Bool := running s && s.linkUp0

/-! ## The playbill's latch (R24, R28) -/

/-- The registers' playbill base. -/
def pbBase (d : Dvsec) : Nat := d.baseHi.toNat * 2 ^ 32 + d.baseLo.toNat * 2 ^ 12

/-- The range lies entirely in host memory, or entirely in exported device memory (R28). -/
def playbillOk (s : State) (base n : Nat) : Bool :=
  let top := s.hdmBase + s.cfg.hdmSize
  decide (2 ≤ n) && decide (n ≤ 2 ^ 20)
    && ((decide (base + 128 * n ≤ 2 ^ 52) && (decide (base + 128 * n ≤ s.hdmBase) || decide (top ≤ base)))
        || (decide (s.hdmBase ≤ base) && decide (base + 128 * n ≤ top)))

/-- PBEN_SET (R24, R28): ignored while PBEN is 1, and while a port in use is down. -/
def execPbenSet (s : State) : Out :=
  if !ioAnswers s || !linksUp s || s.dvsec.pben then .next s
  else
    let b := pbBase s.dvsec
    let n := s.dvsec.count.toNat
    if playbillOk s b n then
      .next { s with playbill := some (b, n), fullRead := true, wake := true, dvsec := { s.dvsec with pben := true, pblive := true, pberr := false } }
    else .next { s with dvsec := { s.dvsec with pberr := true } }

/-- PBEN_CLEAR (R28): the converged state is kept, and no record is read. -/
def execPbenClear (s : State) : Out :=
  if !ioAnswers s then .next s
  else
    let s := dropPlaybill s
    .next { s with dvsec := { s.dvsec with pberr := false } }

/-- What a 32-bit configuration read of the DVSEC gives on a port, at an offset from its start (R27). MBWR reads as zero (log 14, PRESUMED). -/
def dvsecWord (s : State) (port off : Nat) : Word :=
  let d := s.dvsec
  let bits (x : Nat) : Word := BitVec.ofNat 32 x
  match off with
  | 0x00 => bits (0x0023 + 1 * 2 ^ 16 + (Config.nextCapability port).toNat * 2 ^ 20)
  | 0x04 => bits (Config.vendorId.toNat + 0 * 2 ^ 16 + 0x03C * 2 ^ 20)
  | 0x08 => bits 0x0001
  | 0x0C => bits (d.pberr.toNat * 4 + d.pblive.toNat * 2 + d.pben.toNat)
  | 0x10 => bits (d.baseLo.toNat * 2 ^ 12)
  | 0x14 => bits d.baseHi.toNat
  | 0x18 => bits d.count.toNat
  | 0x1C => bits s.cfg.mkoff
  | 0x20 => bits (s.cfg.mkoff / 2 ^ 32)
  | 0x24 => bits (d.mkien.toNat * 2 ^ 15 + d.mkvec.toNat)
  | 0x28 => d.mbctl
  | 0x2C => d.mbstat
  | 0x34 => d.mbrd.headD 0
  | 0x38 => bits (1 * 2 ^ 8 + 0)
  | _ => 0

/-- DVSEC_REGISTER_WRITE at an offset of port 0's copy (R27, R28): PBBASE and PBCOUNT hold while PBEN is 1, reserved bits are ignored. -/
def execDvsecRegisterWrite (port : Nat) (off : Nat) (v : Word) (s : State) : Out :=
  let d := s.dvsec
  if !ioAnswers s ∨ port ≠ 0 then .next s
  else if off = 0x10 then .next (if d.pben then s else { s with dvsec := { d with baseLo := v.extractLsb' 12 20 } })
  else if off = 0x14 then .next (if d.pben then s else { s with dvsec := { d with baseHi := v.extractLsb' 0 20 } })
  else if off = 0x18 then .next (if d.pben then s else { s with dvsec := { d with count := v.extractLsb' 0 21 } })
  else if off = 0x24 then .next { s with dvsec := { d with mkien := v.getLsbD 15, mkvec := v.extractLsb' 0 11 } }
  else if off = 0x28 then .next { s with dvsec := { d with mbctl := v &&& 2 } }
  else .next s

/-! ## The mailbox (R27, R30; log 14, PRESUMED) -/

/-- MBWR_WRITE: one dword more in the write mailbox. -/
def execMbwrWrite (v : Word) (s : State) : Out :=
  .next (if ioAnswers s then { s with dvsec := { s.dvsec with mbwr := s.dvsec.mbwr ++ [v] } } else s)

/-- Data object ready: bit 31 of the status. -/
def mbReady : Word := 0x80000000

/-- The error bit of the status. -/
def mbError : Word := 4

/-- MBRD_WRITE: the read mailbox moves to its next dword; an object read whole is no longer ready. -/
def execMbrdWrite (v : Word) (s : State) : Out :=
  let _ := v
  let r := s.dvsec.mbrd.drop 1
  .next (if ioAnswers s then { s with dvsec := { s.dvsec with mbrd := r, mbstat := if r.isEmpty then s.dvsec.mbstat &&& ~~~mbReady else s.dvsec.mbstat } }
         else s)

/-- DOE_ABORT: the exchange in progress ends, and the error bit is clear. -/
def execDoeAbort (s : State) : Out :=
  .next (if ioAnswers s then { s with dvsec := { s.dvsec with mbwr := [], mbrd := [], mbstat := 0 } } else s)

/-- The object in the write mailbox: its vendor and type, and its dwords after the header; none where its length is not what it says. -/
def mailObject (d : Dvsec) : Option (Nat × List Word) :=
  match d.mbwr with
  | h :: l :: r => if l.toNat % 2 ^ 18 = r.length + 2 then some (h.toNat % 2 ^ 24, r) else none
  | _ => none

/-- PCI-SIG's vendor ID with the two object types (R30). -/
def objDiscovery : Nat := 0x000001
def objSpdm : Nat := 0x010001

/-- The mailbox's interrupt, where MBCTL enables it: its MSI-X entry, and the interrupt bit of the status (R27; log 14, PRESUMED). -/
def mailInterrupt (s : State) : State :=
  if s.dvsec.mbctl.getLsbD 1 then
    { s with irqs := s.irqs ++ [Config.mailboxVector.toNat], dvsec := { s.dvsec with mbstat := s.dvsec.mbstat ||| 2 } }
  else s

/-- An answer in the read mailbox; the write mailbox is empty. -/
def mailAnswer (s : State) (ws : List Word) : State :=
  mailInterrupt { s with dvsec := { s.dvsec with mbwr := [], mbrd := ws, mbstat := (s.dvsec.mbstat ||| mbReady) &&& ~~~mbError } }

/-- The object discarded, and the error bit set. -/
def mailDiscard (s : State) : State := mailInterrupt { s with dvsec := { s.dvsec with mbwr := [], mbrd := [], mbstat := mbError } }

/-- The Discovery answer for an index (R30): index 0 names Discovery, index 1 SPDM and is the last; another index names nothing. -/
def discoveryAnswer (index : Nat) : List Word :=
  [0x00000001, 3, if index = 0 then 0x01000001 else if index = 1 then 0x00010001 else 0x0000FFFF]

/-- DOE_DISCOVERY: a Discovery object is answered; any object but one of SPDM is discarded (R30). -/
def execDoeDiscovery (s : State) : Out :=
  if !ioAnswers s then .next s
  else
    match mailObject s.dvsec with
    | some (t, r) =>
      if t = objDiscovery ∧ r.length = 1 then .next (mailAnswer s (discoveryAnswer ((r.headD 0).toNat % 256)))
      else if t = objSpdm then .next s
      else .next (mailDiscard s)
    | none => .next (mailDiscard s)

/-- Bytes as dwords, the last filled with zeros. -/
def dwordsOf (bs : List Byte) : List Word := (List.range ((bs.length + 3) / 4)).map (fun k => BitVec.ofNat 32 (fieldAt bs (4 * k) 4))

/-- The four measurements (R83): the firmware and walk-routine versions of the eight dies, the SHA-384 of the active configuration image, and the
device number, numbers least significant byte first (log 15, DESIGN CHOICE). -/
def measurements (s : State) : List (List Byte) :=
  let ofDies (t : Table Nat) : List Byte := (List.range 8).flatMap (fun d => bytesOfNat 4 (tget 0 t d))
  [ofDies s.fwVersion, ofDies s.walkVersion, sha384 s.cfg.bytes, bytesOfNat 2 s.cfg.device.toNat]

/-- The device key pair, derived at reset from the unit secret of the configuration image then read, which stays until the next (R83). -/
def deviceKeys (s : State) : List Byte × List Byte := Config.deviceKeys (Config.unitSecret s.cfg.bytes)

/-- The certificate chain of slot 0, which ends in the device's own certificate (R83): its length, two zero bytes, the certificates (log 62, PRESUMED). -/
def certChain (s : State) : List Byte :=
  let body := Config.chainTop ++ Config.deviceCert (deviceKeys s).1
  bytesOfNat 2 (4 + body.length) ++ [0, 0] ++ body

/-- The responder's refusal of a request that names what is not there: ERROR, InvalidRequest (R30; log 62, PRESUMED). -/
def spdmRefused : List Byte := [0x13, 0x7F, 0x01, 0x00]

/-- GET_CERTIFICATE (R30, R83; log 62, PRESUMED): the bytes of slot 0's chain from the offset asked for, and how many are left after them. -/
def certificateReply (s : State) (msg : List Byte) : List Byte :=
  let chain := certChain s
  let o := fieldAt msg 4 2
  let part := (chain.drop o).take (fieldAt msg 6 2)
  if msg.length < 8 ∨ fieldAt msg 2 1 % 16 ≠ 0 ∨ chain.length ≤ o then spdmRefused
  else [0x13, 0x02, 0, 0] ++ bytesOfNat 2 part.length ++ bytesOfNat 2 (chain.length - o - part.length) ++ part

/-- The block of measurement `i` (R83): raw versions, the digest of the configuration, the raw device number (log 62, PRESUMED). -/
def measurementBlock (s : State) (i : Nat) : List Byte :=
  let v := (measurements s).getD (i - 1) []
  let kind : Byte := if i = 3 then 0x03 else if i = 4 then 0x82 else 0x81
  bytesOfNat 1 i ++ [1] ++ bytesOfNat 2 (3 + v.length) ++ [kind] ++ bytesOfNat 2 v.length ++ v

/-- GET_MEASUREMENTS (R30, R83; log 62, PRESUMED): operation 0 counts the measurements, 255 asks for all, another for the one of that index. The nonce is free;
a signature, where one is asked for, is of the device's private key. -/
def measurementsReply (s : State) (k : Nat) (msg : List Byte) : List Byte :=
  let op := fieldAt msg 3 1
  let signed := fieldAt msg 2 1 % 2 == 1
  let is := if op = 0 then [] else if op = 255 then [1, 2, 3, 4] else [op]
  let record := is.flatMap (measurementBlock s)
  let context := (msg.drop (if signed then 37 else 4) ++ List.replicate 8 0).take 8
  if msg.length < 4 ∨ (4 < op ∧ op ≠ 255) then spdmRefused
  else
    let body := [0x13, 0x60, if op = 0 then 4 else 0, 0] ++ bytesOfNat 1 is.length ++ bytesOfNat 3 record.length ++ record ++ freeBytes k 32
      ++ [0, 0] ++ context
    body ++ (if signed then Config.spdmSign k (deviceKeys s).2 (msg ++ body) else [])

/-- The SPDM responder's answer to a message, from its certificate chain and its measurements (R30, R83; log 15, DESIGN CHOICE). -/
def spdmReply (s : State) (k : Nat) (msg : List Byte) : List Byte :=
  match fieldAt msg 1 1 with
  | 0x82 => certificateReply s msg
  | 0xE0 => measurementsReply s k msg
  | _ => Config.spdmAnswer k msg (certChain s) (measurements s)

/-- SPDM_DOE_REQUEST: the responder answers (R30, R83). -/
def execSpdmDoeRequest (s : State) : Out :=
  if !ioAnswers s then .next s
  else
    match mailObject s.dvsec with
    | some (t, r) =>
      if t = objSpdm then
        let q := draw s
        let ws := dwordsOf (spdmReply s q.1 (r.flatMap (fun w => bytesOfNat 4 w.toNat)))
        .next (mailAnswer q.2 (BitVec.ofNat 32 objSpdm :: BitVec.ofNat 32 (ws.length + 2) :: ws))
      else .next s
    | none => .next s

/-! ## The links (R22 to R26, R370) -/

/-- LINK_DOWN (R24). -/
def execLinkDown (port : Nat) (s : State) : Out := .next (if running s && decide (port < 2) then loseLink s port else s)

/-- LINK_RETRAIN (R24, R370): port 1 trained puts both ports in use (R23). -/
def execLinkRetrain (port : Nat) (s : State) : Out :=
  if !running s then .next s
  else if port = 0 then .next { s with linkUp0 := true }
  else if port = 1 then .next { s with linkUp1 := true, port1Used := true }
  else .next s

/-- Some page of the mapping is one for which the device snoops the host (R25). -/
def snoopsHost (s : State) (m : Map) : Bool := (physPages m).any (fun p => pageBias s p || s.biasHolders.any (fun x => x / 64 == p))

/-- BISNP_TIMEOUT for a page of a MAPPING: a link failure, and the mark is FAULTED (R26). It falls in a flip of step 0x04, where a pass that is due
makes one, or else in a use of the mapping. -/
def execBisnpTimeout (rid : Nat) (port : Nat) (s : State) : Out :=
  match strickenPass s (.bisnp rid port), tfind s.maps rid with
  | some t, _ => .next (if answers s && portUsed s port then t else s)
  | none, none => .next s
  | none, some m =>
    if !answers s || !portUsed s port || recKind (builtOf s rid) != kMapping || !snoopsHost s m then .next s
    else
      let e := (entryAt s rid).stand
      .next (markAs (updEntry (loseLink s port) rid (fun e => { e with plan := [] })) rid .faulted e.step rLINK e.done e.total)

/-! ## The host's accesses to device memory (R25) -/

/-- The lines of the playbill that a host write of `n` bytes at `a` touches. -/
def touchedLines (b k a n : Nat) : List Nat :=
  if n = 0 ∨ a + n ≤ b ∨ b + 128 * k ≤ a then []
  else
    let lo := (a - b) / 64
    let hi := min ((a + n - 1 - b) / 64) (2 * k - 1)
    (List.range (hi + 1 - lo)).map (· + lo)

/-- The records whose watched lines a host write touches are flagged, and the pass leader wakes; in host memory a filter then no longer holds the line,
and no snoop of it comes until the reconciler reads it again (R59, R325). -/
def watchWrite (s : State) (a n : Nat) : State :=
  match s.playbill with
  | none => s
  | some (b, k) =>
    let inHost := (hdmOffset s b).isNone
    let ls := (touchedLines b k a n).filter (fun l => !inHost || (tget [] s.watch (l % 8)).contains l)
    if ls.isEmpty then s
    else
      { s with flags := (s.flags ++ ls.map (· / 2)).eraseDups, wake := true,
               watch := if inHost then s.watch.map (fun e => (e.1, e.2.filter (fun l => !ls.contains l))) else s.watch }

/-- The host is recorded as a possible holder of the lines of device-biased pages that it uses (R25). -/
def noteHolder (s : State) (x : Nat) : State :=
  if pageBias s (x / 64) ∨ s.biasHolders.contains x then s else { s with biasHolders := s.biasHolders ++ [x] }

/-- A range of HDM offsets read at the home slices (R25). -/
def hostRead (s : State) (o n : Nat) : State × List Byte :=
  let q := readSource s false o n
  ((cxlLines o n).foldl noteHolder q.1, q.2)

/-- Bytes written at the home slices, line by line; the marks table does not change (R25, R53). -/
def hostWrite (s : State) (o : Nat) (bs : List Byte) : State :=
  (splitLines o (bs.length + 1) bs.length).foldl (fun s x =>
    if rangesMeet x.1 x.2 s.cfg.mkoff marksBytes then s else homeWrite s (homePlace s x.1) ((bs.drop (x.1 - o)).take x.2)) s

/-- HOST_MEM_READ of `n` bytes at an HDM offset (R25, R370). No value is delivered of a word that an error has spoiled (R165; log 40, DESIGN CHOICE). -/
def execHostMemRead (off : Nat) (n : Nat) (s : State) : Out :=
  if !exported s off n then .fault (.hostOutsideHdm off)
  else if !answers s then .next { s with hostOut := s.hostOut ++ [.noAnswer] }
  else
    let q := hostRead s off n
    .next { q.1 with hostOut := q.1.hostOut ++ [if spoiledAt q.1 false off n then .noAnswer else .data q.2] }

/-- HOST_MEM_WRITE at an HDM offset (R25, R59, R370). -/
def execHostMemWrite (off : Nat) (bs : List Byte) (s : State) : Out :=
  if !exported s off bs.length then .fault (.hostOutsideHdm off)
  else if !answers s then .next { s with hostOut := s.hostOut ++ [.noAnswer] }
  else
    let s := (cxlLines off bs.length).foldl noteHolder (hostWrite s off bs)
    .next (watchWrite s (s.hdmBase + off) bs.length)

/-! ## Snoops (R59, R60, R160) -/

/-- Host memory snooped, and written where there are bytes: the device's copies go first (R160). An empty list recalls one line. -/
def snoopHost (s : State) (a : Nat) (bs : List Byte) : State :=
  if bs.isEmpty then (holders s true (a / 128)).foldl cleanLine s else homeWrite s ⟨true, 2, 0, false, a⟩ bs

/-- HOST_SNOOP: a HOST line is recalled, or invalidated for the host's write (R160); a write to the playbill flags its records (R59). -/
def execHostSnoop (addr : Nat) (bs : List Byte) (s : State) : Out :=
  .next (if answers s && (hdmOffset s addr).isNone then watchWrite (snoopHost s addr bs) addr bs.length else s)

/-- PLAYBILL_WRITE_SNOOP at an offset of the playbill (R59). -/
def execPlaybillWriteSnoop (off : Nat) (bs : List Byte) (s : State) : Out :=
  match s.playbill, answers s with
  | some (b, n), true =>
    if 128 * n < off + bs.length then .next s
    else
      let a := b + off
      let s' := match hdmOffset s a with
        | some o => (cxlLines o bs.length).foldl noteHolder (hostWrite s o bs)
        | none => if bs.isEmpty then s else snoopHost s a bs
      .next (watchWrite s' a bs.length)
  | _, _ => .next s

/-- QUEUE_TAIL_WRITE: the threads parked in QTAKE on an armed queue are woken (R60). -/
def execQueueTailWrite (q : Nat) (s : State) : Out :=
  match tfind s.cbs q with
  | none => .next s
  | some cb =>
    if !running s || !cb.armed then .next s
    else
      .next (((s.threads.filter (fun e => e.2.park == some (.queue q))).map (·.1)).foldl (fun s tk => becomesReady s tk (fun t => { t with park := none })) s)

end Sys2Proof.Machine
end

