-- ==== Sys2Proof/Machine/Service.lean ====
section
/-! DEFINITION. Resets, power, clocks, freeze and scan, and the I3C sideband (R13 to R20, R30, R83, R84). -/

namespace Sys2Proof.Machine

/-! ## Module reset (R18, R20, R82) -/

/-- A module reset: every part in its reset state, the configuration image read and verified again. What is not the module's own working state stays:
host memory, the flash, a retirement and the cores that replaced its own (until a new image, R11, R81; a core that had only been emptied for one is in use
again), the FREEZE input, what has left the module, and the
model's schedule. The link trains unless the module is frozen or held (R18, R82; log 53, DEDUCED). -/
def moduleReset (s : State) : State :=
  let good := s.cfgFlash.verifies
  { State.reset with
    cfg := s.cfgFlash, cfgFlash := s.cfgFlash, hdmBase := s.hdmBase, hmem := s.hmem, badHost := s.badHost, freezePin := s.freezePin,
    frozen := s.freezePin, linkUp0 := good && !s.freezePin, hold := if good then none else some .image,
    i3c := s.i3c ++ (if good then [] else [.imageFailed]), coreMap := if s.newImage then s.cfgFlash.coreMap else s.coreMap,
    retiredCores := if s.newImage then [] else s.retiredCores,
    vacant := if s.newImage then [] else s.vacant.filter (fun c => s.retiredCores.contains (68 * (c / 64) + physOf s c)),
    retiredChannels := if s.newImage then [] else s.retiredChannels, hostOut := s.hostOut, irqs := s.irqs, free := s.free, agenda := s.agenda }

/-- The module is held for power or temperature (R15, R17). -/
def heldOff (s : State) : Bool := s.hold == some .power || s.hold == some .thermal

/-- POWER_ON (R20). -/
def execPowerOn (s : State) : Out := .next (moduleReset s)

/-- PERST: not acted on while frozen (R18, R20); a held module stays held. -/
def execPerst (s : State) : Out := .next (if s.frozen || heldOff s then s else moduleReset s)

/-- CXL_RESET: not acted on while frozen (R18, R20); a held module stays held. -/
def execCxlReset (s : State) : Out := .next (if s.frozen || heldOff s then s else moduleReset s)

/-- I3C_RESET: acted on in every state (R20); the cause of a hold still holds the module after it, with its links down (log 53, DEDUCED). -/
def execI3cReset (s : State) : Out :=
  let r := moduleReset s
  .next (if heldOff s then { r with hold := s.hold, linkUp0 := false } else r)

/-- HOLD_END: a power or thermal hold ends in a module reset (R15, R17, R20). -/
def execHoldEnd (s : State) : Out := .next (if heldOff s then moduleReset s else s)

/-- FUNCTION_LEVEL_RESET of port 0: the DVSEC's RW fields alone, PBEN, where it falls, with the effect of a write of 0 (R20, R27, R28; log 18, DESIGN
CHOICE). -/
def execFunctionLevelReset (s : State) : Out :=
  if !ioAnswers s then .next s
  else
    let err := s.dvsec.pberr && !s.dvsec.pben
    let s := dropPlaybill s
    .next { s with dvsec := { Dvsec.reset with pberr := err, mbstat := s.dvsec.mbstat, mbwr := s.dvsec.mbwr } }

/-- PORT1_RESET: port 1's link alone is lost until it retrains, by a reset and by an FLR alike (R20, R24; log 53, DEDUCED). -/
def execPort1Reset (s : State) : Out := .next (if running s && s.port1Used then loseLink s 1 else s)

/-! ## Power and temperature (R14, R15, R17) -/

/-- Every link is lost, and the fabric's ports with them. -/
def dropAll (s : State) : State := { s with linkUp0 := false, linkUp1 := false, ports := [] }

/-- POWER_FAULT (R15). -/
def execPowerFault (s : State) : Out :=
  let s' := dropAll s
  .next { s' with hold := some .power, i3c := s'.i3c ++ [.powerFault] }

/-- THERMAL_TRIP (R17): like a power fault, but for its report (log 53, DEDUCED). -/
def execThermalTrip (s : State) : Out :=
  let s' := dropAll s
  .next { s' with hold := if s'.hold = some .power then some .power else some .thermal }

/-- CLOCK_THROTTLE: one step of 50 MHz down, to 950 MHz (R14). -/
def execClockThrottle (s : State) : Out := .next (if running s then { s with mainMHz := max 950 (s.mainMHz - 50) } else s)

/-- CLOCK_RESTORE: one step up, to 1,900 MHz (R13, R14). -/
def execClockRestore (s : State) : Out := .next (if running s then { s with mainMHz := min 1900 (s.mainMHz + 50) } else s)

/-! ## Freeze and scan (R18, R19) -/

/-- FREEZE: the clocks stop; the links and the fabric's ports are seen to fail (R18). -/
def execFreeze (s : State) : Out :=
  let s' := dropAll s
  .next { s' with frozen := true, freezePin := true }

/-- FREEZE_RELEASE resumes nothing (R18). -/
def execFreezeRelease (s : State) : Out := .next { s with freezePin := false }

/-- SCAN_SHIFT: the module's whole state is shifted out while frozen, if the image enables scan; it does not change (R19). At any other time the port offers
BYPASS and IDCODE (log 53, DEDUCED). -/
def execScanShift (s : State) : Out := .next { s with hostOut := s.hostOut ++ [.scan (if s.frozen && s.cfg.scan then some s.toModule else none)] }

/-! ## The sideband (R19, R30, R84) -/

/-- The telemetry: 32 die temperatures, 16 stack temperatures, voltage, current, power, the main clock in MHz, and the error counts of 512
cores and 512 channels, corrected and then uncorrected (R19, R84; log 17, DESIGN CHOICE). -/
def telemetry (s : State) (k : Nat) : List Nat :=
  (List.range 51).map (fun n => (Config.sensor n k).toNat) ++ [s.mainMHz] ++ (List.range 1024).map (tget 0 s.errCorrected)
    ++ (List.range 1024).map (tget 0 s.errUncorrected)

/-- TELEMETRY_READ (R19): answered frozen and held too (log 53, DEDUCED). -/
def execTelemetryRead (s : State) : Out :=
  let q := draw s
  .next { q.2 with i3c := q.2.i3c ++ [.telemetry (telemetry s q.1)] }

/-- SPDM_MCTP_REQUEST: the same responder, on the sideband, while the stage managers run (R30, R83; log 53, DEDUCED). -/
def execSpdmMctpRequest (msg : List Byte) (s : State) : Out :=
  if !running s then .next s
  else
    let q := draw s
    .next { q.2 with i3c := q.2.i3c ++ [.spdm (spdmReply s q.1 msg)] }

end Sys2Proof.Machine
end

