-- ==== Sys2Proof/Machine/Vector.lean ====
section
/-! DEFINITION. The meanings of FALU, FCVT, FSPEC, TROUPE and GEN (R284 to R296, R352). -/

namespace Sys2Proof.Machine

/-! ## FALU (R285): operations on exact values, each rounded once -/

/-- D := f(a, b) on FP32 values, rounded once. -/
def opF (i : Instr) (d a b : RegNo) (f : FVal → FVal → FVal) (s : State) : Out :=
  op3 i d a b (fun x y => fword fp32 (f (f32 x) (f32 y))) s

/-- A NaN in a gives the produced NaN; otherwise the bits as changed (R285). -/
def bitsOrNan (x v : Word) : Word := if f32 x = .nan then nan32 else v

/-- D := f(a), deferred: FSPEC, minors 0 to 4 (R288). -/
def opSpec (i : Instr) (d a : RegNo) (f : FVal → FVal) (s : State) : Out :=
  .next (runRegs i s (fun l => .defer [(d.toNat, fword fp32 (f (f32 (readReg s (groupOf s) l a.toNat))))]))

/-! ## Packed BF16 (R289) -/

/-- The two BF16 values of a register. -/
def bfLo (x : Word) : FVal := fdecode bf16 (x.toNat % 65536)
def bfHi (x : Word) : FVal := fdecode bf16 (x.toNat / 65536)

/-- Each half computed alone and rounded once to BF16. -/
def bfPack (lo hi : FVal) : Word := BitVec.ofNat 32 (cvt bf16 .rne false lo + cvt bf16 .rne false hi * 65536)

/-- Each half of D := f(a, b, d), deferred. -/
def opBf (i : Instr) (d a b : RegNo) (f : FVal → FVal → FVal → FVal) (s : State) : Out :=
  .next (runRegs i s (fun l =>
    let x := readReg s (groupOf s) l a.toNat
    let y := readReg s (groupOf s) l b.toNat
    let z := readReg s (groupOf s) l d.toNat
    .defer [(d.toNat, bfPack (f (bfLo x) (bfLo y) (bfLo z)) (f (bfHi x) (bfHi y) (bfHi z)))]))

/-! ## Reading another lane's register (R291) -/

/-- A deferred result of a thread for a destination that is not yet written: the last one issued. -/
def pendingFor (t : Thread) (d : Dest) : Option (Option Nat × Word) :=
  (t.pend.reverse.findSome? (fun p => (p.ws.find? (fun w => w.1 == d)).map (fun w => (p.waits, w.2))))

/-- What register field `n` of lane `j` shows another lane: zero where no thread is live, a deferred result of an allocation register once it is
known; none while a ticket still has to supply it, or one of a k or c register is still to be written, which holds the reader (R132, R133,
R291). -/
def laneView (s : State) (g : Group) (n j : Nat) : Option Word :=
  match tfind s.threads (g.tk j) with
  | none => some 0
  | some t =>
    match (destOf t n).bind (pendingFor t) with
    | some (none, v) => if n < 112 then some v else none
    | some (some _, _) => none
    | none => some (readReg s g j n)

/-- A troupe instruction over the lanes M that execute it: `f M lane` (R291); every one is deferred. -/
def opTroupe (i : Instr) (d : RegNo) (f : List Nat → Nat → Word) (s : State) : Out :=
  .next (runRegs i s (fun l => .defer [(d.toNat, f (goLanes s (groupOf s) i) l)]))

/-- The aperture address of the register that `laneView` would show, where an error has spoiled it (R165). -/
def badView (s : State) (g : Group) (n j : Nat) : Option Nat :=
  match tfind s.threads (g.tk j) with
  | none => none
  | some t => if ((destOf t n).bind (pendingFor t)).isSome then none else badField s g n j

/-- A troupe instruction that reads field `n` of other lanes, lane l those of `src l`: it is held, not yet issued, while one of them awaits a ticket
(R291); a lane that would read a spoiled register traps (R165). -/
def opAcross (i : Instr) (d : RegNo) (src : Nat → List Nat) (f : Nat → Word) (n : Nat) (s : State) : Out :=
  let g := groupOf s
  if ((goLanes s g i).flatMap src).all (fun j => (laneView s g n j).isSome) then
    .next (runRegs i s (fun l =>
      match (src l).findSome? (badView s g n) with
      | some v => .trap .memoryError (BitVec.ofNat 64 v)
      | none => .defer [(d.toNat, f l)]))
  else .next { s with issue := none }

/-- The values of a register over lanes. -/
def vals (s : State) (a : RegNo) (ls : List Nat) : List Word := ls.map (fun l => readReg s (groupOf s) l a.toNat)

/-- A shuffle's source lane (R293): `src lane n`; outside 0 to 31 the lane keeps its own a. -/
def opShuffle (i : Instr) (d a b : RegNo) (src : Nat → Nat → Option Nat) (s : State) : Out :=
  let g := groupOf s
  let from_ (l : Nat) : Nat := (src l ((readReg s g l b.toNat).toNat % 32)).getD l
  opAcross i d (fun l => [from_ l]) (fun l => (laneView s g a.toNat (from_ l)).getD 0) a.toNat s

/-- The sum of words mod 2^32. -/
def sumWords (ws : List Word) : Word := ws.foldl (· + ·) 0

/-- The least or greatest of words read as i32; zero of none. -/
def minWords : List Word → Word
  | [] => 0
  | w :: ws => ws.foldl fMin w
def maxWords : List Word → Word
  | [] => 0
  | w :: ws => ws.foldl fMax w

/-- One level of the tree of R295. -/
def addPairs : List Word → List Word
  | x :: y :: r => fadd32 x y :: addPairs r
  | r => r

/-- REDFADD's tree over 32 values (R295). -/
def treeSum (xs : List Word) : Word := (addPairs (addPairs (addPairs (addPairs (addPairs xs))))).getD 0 0

/-! ## DX across a troupe (R290) -/

/-- The FP32 values of block b: lanes outside M give +0. -/
def dxIn (s : State) (a : RegNo) (m : List Nat) (b : Nat) : List FVal :=
  (List.range 16).map (fun j => if m.contains (16 * b + j) then f32 (readReg s (groupOf s) (16 * b + j) a.toNat) else .fin false 0 0)

/-- The word of lane l in the layout of R290. -/
def dxqWord (f : Nat) (b0 b1 : Nat × Nat × Nat) (l : Nat) : Word :=
  if l < dxBits f then BitVec.ofNat 32 ((b0.1 + b1.1 * 2 ^ (8 * dxBlockBytes f)) / 2 ^ (32 * l))
  else if l = 16 then BitVec.ofNat 32 (b0.2.1 + b0.2.2 * 2 ^ 8 + b1.2.1 * 2 ^ 16 + b1.2.2 * 2 ^ 24)
  else 0

/-- The element of lane l, from the words of the layout (R290, R191). -/
def dxdWord (f : Nat) (view : Nat → Word) (l : Nat) : Word :=
  let plane := (List.range (dxBits f)).foldl (fun acc k => acc + (view k).toNat * 2 ^ (32 * k)) 0
  let b := l / 16
  let sc := (view 16).toNat / 2 ^ (16 * b)
  dxToF32 f (dxElem f (plane / 2 ^ (8 * dxBlockBytes f * b)) (l % 16)) (sc % 256) (sc / 256 % 256) (l % 16)

/-! ## Indexed registers (R134, R296) -/

/-- The checks of MOVIX and MOVIXW on the register a lane names: HAZARD, then a number above 127. -/
def indexCheck (v : Word) : Option LaneAct := if 127 < v.toNat then some (.trap .window (v.setWidth 64)) else none

/-- One lane of MOVIXW: `uniform` when some lane of M names a k register. -/
def movixwLane (s : State) (i : Instr) (g : Group) (uniform : Bool) (v x : Word) (l : Nat) : LaneAct :=
  let t := threadAt s (g.tk l)
  if t.region.isSome ∧ 112 ≤ v.toNat ∧ v.toNat ≤ 127 then .trap .region (wordVal i)
  else if uniform ∨ 127 < v.toNat then .trap .window (v.setWidth 64)
  else .defer [(v.toNat, x)]

/-! ## FALU -/

/-- FADD (R285). -/
def execFadd (m : Bool) (d a b : RegNo) (s : State) : Out :=
  opF (.fadd m d a b) d a b fadd s

/-- FSUB (R285). -/
def execFsub (m : Bool) (d a b : RegNo) (s : State) : Out :=
  opF (.fsub m d a b) d a b (fun x y => fadd x (fneg y)) s

/-- FMUL (R285). -/
def execFmul (m : Bool) (d a b : RegNo) (s : State) : Out :=
  opF (.fmul m d a b) d a b fmul s

/-- FMIN (R285). -/
def execFmin (m : Bool) (d a b : RegNo) (s : State) : Out :=
  opF (.fmin m d a b) d a b fminNum s

/-- FMAX (R285). -/
def execFmax (m : Bool) (d a b : RegNo) (s : State) : Out :=
  opF (.fmax m d a b) d a b fmaxNum s

/-- FMA: d + a × b, rounded once (R285). -/
def execFma (m : Bool) (d a b : RegNo) (s : State) : Out :=
  op3d (.fma m d a b) d a b (fun x y z => fword fp32 (fadd (f32 z) (fmul (f32 x) (f32 y)))) s

/-- FNMA: d − a × b, rounded once (R285). -/
def execFnma (m : Bool) (d a b : RegNo) (s : State) : Out :=
  op3d (.fnma m d a b) d a b (fun x y z => fword fp32 (fadd (f32 z) (fmul (fneg (f32 x)) (f32 y)))) s

/-- FABS (R285). -/
def execFabs (m : Bool) (d a : RegNo) (s : State) : Out :=
  op2 (.fabs m d a) d a (fun x => bitsOrNan x (x &&& 0x7FFFFFFF)) s

/-- FNEG (R285). -/
def execFneg (m : Bool) (d a : RegNo) (s : State) : Out :=
  op2 (.fneg m d a) d a (fun x => bitsOrNan x (x ^^^ 0x80000000)) s

/-- FSGN (R285). -/
def execFsgn (m : Bool) (d a b : RegNo) (s : State) : Out :=
  op3 (.fsgn m d a b) d a b (fun x y => bitsOrNan x ((x &&& 0x7FFFFFFF) ||| (y &&& 0x80000000))) s

/-- FEQ (R285). -/
def execFeq (m : Bool) (d a b : RegNo) (s : State) : Out :=
  op3 (.feq m d a b) d a b (fun x y => bool32 (feq (f32 x) (f32 y))) s

/-- FLT (R285). -/
def execFlt (m : Bool) (d a b : RegNo) (s : State) : Out :=
  op3 (.flt m d a b) d a b (fun x y => bool32 (flt (f32 x) (f32 y))) s

/-- FLE (R285). -/
def execFle (m : Bool) (d a b : RegNo) (s : State) : Out :=
  op3 (.fle m d a b) d a b (fun x y => bool32 (flt (f32 x) (f32 y) || feq (f32 x) (f32 y))) s

/-- FCLASS (R286). -/
def execFclass (m : Bool) (d a : RegNo) (s : State) : Out :=
  op2 (.fclass m d a) d a fclass s

/-! ## FCVT -/

/-- FTOI (R185). -/
def execFtoi (m : Bool) (d a : RegNo) (c : BitVec 3) (s : State) : Out :=
  op2 (.ftoi m d a c) d a (fun x => wordOfInt (ftoInt (rmOf c) (-2147483648) 2147483647 (f32 x))) s

/-- FTON (R185). -/
def execFton (m : Bool) (d a : RegNo) (c : BitVec 3) (s : State) : Out :=
  op2 (.fton m d a c) d a (fun x => wordOfInt (ftoInt (rmOf c) 0 4294967295 (f32 x))) s

/-- ITOF (R184). -/
def execItof (m : Bool) (d a : RegNo) (c : BitVec 3) (s : State) : Out :=
  op2 (.itof m d a c) d a (fun x => BitVec.ofNat 32 (cvt fp32 (rmOf c) (satOf c) (fofInt x.toInt))) s

/-- NTOF (R184). -/
def execNtof (m : Bool) (d a : RegNo) (c : BitVec 3) (s : State) : Out :=
  op2 (.ntof m d a c) d a (fun x => BitVec.ofNat 32 (cvt fp32 (rmOf c) (satOf c) (fofInt x.toNat))) s

/-- F2BF (R184). -/
def execF2bf (m : Bool) (d a : RegNo) (c : BitVec 3) (s : State) : Out :=
  op2 (.f2bf m d a c) d a (fun x => BitVec.ofNat 32 (cvt bf16 (rmOf c) (satOf c) (f32 x))) s

/-- F2H (R184). -/
def execF2h (m : Bool) (d a : RegNo) (c : BitVec 3) (s : State) : Out :=
  op2 (.f2h m d a c) d a (fun x => BitVec.ofNat 32 (cvt fp16 (rmOf c) (satOf c) (f32 x))) s

/-- F2E4 (R184). -/
def execF2e4 (m : Bool) (d a : RegNo) (c : BitVec 3) (s : State) : Out :=
  op2 (.f2e4 m d a c) d a (fun x => BitVec.ofNat 32 (cvt e4m3 (rmOf c) (satOf c) (f32 x))) s

/-- F2E5 (R184). -/
def execF2e5 (m : Bool) (d a : RegNo) (c : BitVec 3) (s : State) : Out :=
  op2 (.f2e5 m d a c) d a (fun x => BitVec.ofNat 32 (cvt e5m2 (rmOf c) (satOf c) (f32 x))) s

/-- BF2F: NaN payloads pass (R186). -/
def execBf2f (m : Bool) (d a : RegNo) (s : State) : Out :=
  op2 (.bf2f m d a) d a (fun x => x <<< 16) s

/-- H2F (R186). -/
def execH2f (m : Bool) (d a : RegNo) (s : State) : Out :=
  op2 (.h2f m d a) d a (fun x => fword fp32 (fdecode fp16 (x.toNat % 65536))) s

/-- E42F (R186). -/
def execE42f (m : Bool) (d a : RegNo) (s : State) : Out :=
  op2 (.e42f m d a) d a (fun x => fword fp32 (fdecode e4m3 (x.toNat % 256))) s

/-- E52F (R186). -/
def execE52f (m : Bool) (d a : RegNo) (s : State) : Out :=
  op2 (.e52f m d a) d a (fun x => fword fp32 (fdecode e5m2 (x.toNat % 256))) s

/-! ## FSPEC -/

/-- FRCP (R288). -/
def execFrcp (m : Bool) (d a : RegNo) (s : State) : Out :=
  opSpec (.frcp m d a) d a frcp s

/-- FRSQ (R288). -/
def execFrsq (m : Bool) (d a : RegNo) (s : State) : Out :=
  opSpec (.frsq m d a) d a frsq s

/-- FSQRT (R288). -/
def execFsqrt (m : Bool) (d a : RegNo) (s : State) : Out :=
  opSpec (.fsqrt m d a) d a fsqrt s

/-- FEXP2 (log 13, DESIGN CHOICE, for the precision it is computed with) (R288). -/
def execFexp2 (m : Bool) (d a : RegNo) (s : State) : Out :=
  opSpec (.fexp2 m d a) d a fexp2 s

/-- FLOG2 (log 13, DESIGN CHOICE, for the precision it is computed with) (R288). -/
def execFlog2 (m : Bool) (d a : RegNo) (s : State) : Out :=
  opSpec (.flog2 m d a) d a flog2 s

/-- BADD2 (R289). -/
def execBadd2 (m : Bool) (d a b : RegNo) (s : State) : Out :=
  opBf (.badd2 m d a b) d a b (fun x y _ => fadd x y) s

/-- BMUL2 (R289). -/
def execBmul2 (m : Bool) (d a b : RegNo) (s : State) : Out :=
  opBf (.bmul2 m d a b) d a b (fun x y _ => fmul x y) s

/-- BFMA2 (R289). -/
def execBfma2 (m : Bool) (d a b : RegNo) (s : State) : Out :=
  opBf (.bfma2 m d a b) d a b (fun x y z => fadd z (fmul x y)) s

/-- BMAX2 (R289). -/
def execBmax2 (m : Bool) (d a b : RegNo) (s : State) : Out :=
  opBf (.bmax2 m d a b) d a b (fun x y _ => fmaxNum x y) s

/-- DXQ (R290). -/
def execDxq (m : Bool) (d a : RegNo) (f : BitVec 2) (s : State) : Out :=
  opTroupe (.dxq m d a f) d (fun m l =>
    dxqWord f.toNat (dxQuant f.toNat (dxIn s a m 0)) (dxQuant f.toNat (dxIn s a m 1)) l) s

/-- DXD (R290). -/
def execDxd (m : Bool) (d a : RegNo) (f : BitVec 2) (s : State) : Out :=
  opAcross (.dxd m d a f) d (fun _ => List.range (dxBits f.toNat) ++ [16])
    (fun l => dxdWord f.toNat (fun j => (laneView s (groupOf s) a.toNat j).getD 0) l) a.toNat s

/-! ## TROUPE -/

/-- BALLOT (R292). -/
def execBallot (m : Bool) (d a : RegNo) (s : State) : Out :=
  opTroupe (.ballot m d a) d (fun m _ => maskOf (m.filter (fun l => readReg s (groupOf s) l a.toNat != 0))) s

/-- VANY (R292). -/
def execVany (m : Bool) (d a : RegNo) (s : State) : Out :=
  opTroupe (.vany m d a) d (fun m _ => bool32 ((vals s a m).any (· != 0))) s

/-- VALL (R292). -/
def execVall (m : Bool) (d a : RegNo) (s : State) : Out :=
  opTroupe (.vall m d a) d (fun m _ => bool32 ((vals s a m).all (· != 0))) s

/-- SHFL (R293). -/
def execShfl (m : Bool) (d a b : RegNo) (s : State) : Out :=
  opShuffle (.shfl m d a b) d a b (fun _ n => some n) s

/-- SHFLX (R293). -/
def execShflx (m : Bool) (d a b : RegNo) (s : State) : Out :=
  opShuffle (.shflx m d a b) d a b (fun l n => some (l ^^^ n)) s

/-- SHFLUP (R293). -/
def execShflup (m : Bool) (d a b : RegNo) (s : State) : Out :=
  opShuffle (.shflup m d a b) d a b (fun l n => if n ≤ l then some (l - n) else none) s

/-- SHFLDN (R293). -/
def execShfldn (m : Bool) (d a b : RegNo) (s : State) : Out :=
  opShuffle (.shfldn m d a b) d a b (fun l n => if l + n ≤ 31 then some (l + n) else none) s

/-- REDADD (R294). -/
def execRedadd (m : Bool) (d a : RegNo) (s : State) : Out :=
  opTroupe (.redadd m d a) d (fun m _ => sumWords (vals s a m)) s

/-- REDMIN (R294). -/
def execRedmin (m : Bool) (d a : RegNo) (s : State) : Out :=
  opTroupe (.redmin m d a) d (fun m _ => minWords (vals s a m)) s

/-- REDMAX (R294). -/
def execRedmax (m : Bool) (d a : RegNo) (s : State) : Out :=
  opTroupe (.redmax m d a) d (fun m _ => maxWords (vals s a m)) s

/-- REDFADD: a lane outside M gives +0 (R295). -/
def execRedfadd (m : Bool) (d a : RegNo) (s : State) : Out :=
  opTroupe (.redfadd m d a) d (fun m _ =>
    treeSum ((List.range 32).map (fun l => if m.contains l then readReg s (groupOf s) l a.toNat else 0))) s

/-- SCANADD (R294). -/
def execScanadd (m : Bool) (d a : RegNo) (s : State) : Out :=
  opTroupe (.scanadd m d a) d (fun m l => sumWords (vals s a (m.filter (· ≤ l)))) s

/-- SCANADDX (R294). -/
def execScanaddx (m : Bool) (d a : RegNo) (s : State) : Out :=
  opTroupe (.scanaddx m d a) d (fun m l => sumWords (vals s a (m.filter (· < l)))) s

/-- MOVIX (R296). -/
def execMovix (m : Bool) (d a : RegNo) (s : State) : Out :=
  .next (runRegs (.movix m d a) s (fun l =>
    let v := readReg s (groupOf s) l a.toNat
    (indexCheck v).getD (.defer [(d.toNat, readReg s (groupOf s) l v.toNat)])))

/-- MOVIXW (R296). -/
def execMovixw (m : Bool) (d a : RegNo) (s : State) : Out :=
  let i : Instr := (.movixw m d a)
  let g := groupOf s
  let uniform := (vals s d (goLanes s g i)).any (fun v => decide (112 ≤ v.toNat) && decide (v.toNat < 120))
  .next (runRegs i s (fun l => movixwLane s i g uniform (readReg s g l d.toNat) (readReg s g l a.toNat) l))

/-- LMASK (R292). -/
def execLmask (m : Bool) (d : RegNo) (s : State) : Out :=
  opTroupe (.lmask m d) d (fun m _ => maskOf m) s

/-! ## GEN -/

/-- RAND: the four words of Philox-4x32-10 (R352). -/
def execRand (m : Bool) (d a b : RegNo) (s : State) : Out :=
  .next (runRegs (.rand m d a b) s (fun l =>
    let x := philox (readPair s (groupOf s) l a.toNat) (readPair s (groupOf s) l b.toNat)
    .defer ((List.range 4).map (fun k => (d.toNat + k, x.getD k 0)))))

/-- RANDF: floor(x0 / 2^8) × 2^−24 (R352). -/
def execRandf (m : Bool) (d a b : RegNo) (s : State) : Out :=
  .next (runRegs (.randf m d a b) s (fun l =>
    let x := philox (readPair s (groupOf s) l a.toNat) (readPair s (groupOf s) l b.toNat)
    .defer [(d.toNat, fword fp32 (.fin false ((x.getD 0 0).toNat / 256) (-24)))]))

end Sys2Proof.Machine
end

