-- ==== Sys2Proof/Machine/Dispatch.lean ====
section
/-! DEFINITION. The dispatch: one arm per constructor of `Instr`, each one call of its meaning. -/

namespace Sys2Proof.Machine

/-- What a step of the table does in a state. -/
def exec (i : Instr) (s : State) : Host.Outcome State Fault Refusal :=
  match i with
  | .add m d a b => Sys2Proof.Machine.execAdd m d a b s
  | .sub m d a b => Sys2Proof.Machine.execSub m d a b s
  | .mul m d a b => Sys2Proof.Machine.execMul m d a b s
  | .mulh m d a b => Sys2Proof.Machine.execMulh m d a b s
  | .mulhn m d a b => Sys2Proof.Machine.execMulhn m d a b s
  | .mad m d a b => Sys2Proof.Machine.execMad m d a b s
  | .min m d a b => Sys2Proof.Machine.execMin m d a b s
  | .max m d a b => Sys2Proof.Machine.execMax m d a b s
  | .minn m d a b => Sys2Proof.Machine.execMinn m d a b s
  | .maxn m d a b => Sys2Proof.Machine.execMaxn m d a b s
  | .adif m d a b => Sys2Proof.Machine.execAdif m d a b s
  | .adds m d a b => Sys2Proof.Machine.execAdds m d a b s
  | .subs m d a b => Sys2Proof.Machine.execSubs m d a b s
  | .and m d a b => Sys2Proof.Machine.execAnd m d a b s
  | .or m d a b => Sys2Proof.Machine.execOr m d a b s
  | .xor m d a b => Sys2Proof.Machine.execXor m d a b s
  | .andn m d a b => Sys2Proof.Machine.execAndn m d a b s
  | .shl m d a b => Sys2Proof.Machine.execShl m d a b s
  | .shr m d a b => Sys2Proof.Machine.execShr m d a b s
  | .shra m d a b => Sys2Proof.Machine.execShra m d a b s
  | .rotl m d a b => Sys2Proof.Machine.execRotl m d a b s
  | .sel m d a b => Sys2Proof.Machine.execSel m d a b s
  | .popc m d a => Sys2Proof.Machine.execPopc m d a s
  | .clz m d a => Sys2Proof.Machine.execClz m d a s
  | .ctz m d a => Sys2Proof.Machine.execCtz m d a s
  | .brev m d a => Sys2Proof.Machine.execBrev m d a s
  | .seq m d a b => Sys2Proof.Machine.execSeq m d a b s
  | .sne m d a b => Sys2Proof.Machine.execSne m d a b s
  | .slt m d a b => Sys2Proof.Machine.execSlt m d a b s
  | .sle m d a b => Sys2Proof.Machine.execSle m d a b s
  | .sltn m d a b => Sys2Proof.Machine.execSltn m d a b s
  | .slen m d a b => Sys2Proof.Machine.execSlen m d a b s
  | .add64 m d a b => Sys2Proof.Machine.execAdd64 m d a b s
  | .sub64 m d a b => Sys2Proof.Machine.execSub64 m d a b s
  | .mul64 m d a b => Sys2Proof.Machine.execMul64 m d a b s
  | .addx m d a b => Sys2Proof.Machine.execAddx m d a b s
  | .addxn m d a b => Sys2Proof.Machine.execAddxn m d a b s
  | .shl64 m d a b => Sys2Proof.Machine.execShl64 m d a b s
  | .shr64 m d a b => Sys2Proof.Machine.execShr64 m d a b s
  | .shra64 m d a b => Sys2Proof.Machine.execShra64 m d a b s
  | .div m d a b => Sys2Proof.Machine.execDiv m d a b s
  | .divn m d a b => Sys2Proof.Machine.execDivn m d a b s
  | .rem m d a b => Sys2Proof.Machine.execRem m d a b s
  | .remn m d a b => Sys2Proof.Machine.execRemn m d a b s
  | .seq64 m d a b => Sys2Proof.Machine.execSeq64 m d a b s
  | .slt64 m d a b => Sys2Proof.Machine.execSlt64 m d a b s
  | .sltn64 m d a b => Sys2Proof.Machine.execSltn64 m d a b s
  | .addi m d a imm => Sys2Proof.Machine.execAddi m d a imm s
  | .andi m d a imm => Sys2Proof.Machine.execAndi m d a imm s
  | .ori m d a imm => Sys2Proof.Machine.execOri m d a imm s
  | .xori m d a imm => Sys2Proof.Machine.execXori m d a imm s
  | .slti m d a imm => Sys2Proof.Machine.execSlti m d a imm s
  | .sltni m d a imm => Sys2Proof.Machine.execSltni m d a imm s
  | .muli m d a imm => Sys2Proof.Machine.execMuli m d a imm s
  | .shli m d a n => Sys2Proof.Machine.execShli m d a n s
  | .shri m d a n => Sys2Proof.Machine.execShri m d a n s
  | .shrai m d a n => Sys2Proof.Machine.execShrai m d a n s
  | .rotli m d a n => Sys2Proof.Machine.execRotli m d a n s
  | .bfx m d a e l p => Sys2Proof.Machine.execBfx m d a e l p s
  | .bfi m d a l p => Sys2Proof.Machine.execBfi m d a l p s
  | .addxi m d a imm => Sys2Proof.Machine.execAddxi m d a imm s
  | .lui m d imm => Sys2Proof.Machine.execLui m d imm s
  | .lapc m d imm => Sys2Proof.Machine.execLapc m d imm s
  | .fadd m d a b => Sys2Proof.Machine.execFadd m d a b s
  | .fsub m d a b => Sys2Proof.Machine.execFsub m d a b s
  | .fmul m d a b => Sys2Proof.Machine.execFmul m d a b s
  | .fma m d a b => Sys2Proof.Machine.execFma m d a b s
  | .fmin m d a b => Sys2Proof.Machine.execFmin m d a b s
  | .fmax m d a b => Sys2Proof.Machine.execFmax m d a b s
  | .fabs m d a => Sys2Proof.Machine.execFabs m d a s
  | .fneg m d a => Sys2Proof.Machine.execFneg m d a s
  | .fsgn m d a b => Sys2Proof.Machine.execFsgn m d a b s
  | .feq m d a b => Sys2Proof.Machine.execFeq m d a b s
  | .flt m d a b => Sys2Proof.Machine.execFlt m d a b s
  | .fle m d a b => Sys2Proof.Machine.execFle m d a b s
  | .fclass m d a => Sys2Proof.Machine.execFclass m d a s
  | .fnma m d a b => Sys2Proof.Machine.execFnma m d a b s
  | .ftoi m d a c => Sys2Proof.Machine.execFtoi m d a c s
  | .fton m d a c => Sys2Proof.Machine.execFton m d a c s
  | .itof m d a c => Sys2Proof.Machine.execItof m d a c s
  | .ntof m d a c => Sys2Proof.Machine.execNtof m d a c s
  | .f2bf m d a c => Sys2Proof.Machine.execF2bf m d a c s
  | .bf2f m d a => Sys2Proof.Machine.execBf2f m d a s
  | .f2h m d a c => Sys2Proof.Machine.execF2h m d a c s
  | .h2f m d a => Sys2Proof.Machine.execH2f m d a s
  | .f2e4 m d a c => Sys2Proof.Machine.execF2e4 m d a c s
  | .e42f m d a => Sys2Proof.Machine.execE42f m d a s
  | .f2e5 m d a c => Sys2Proof.Machine.execF2e5 m d a c s
  | .e52f m d a => Sys2Proof.Machine.execE52f m d a s
  | .frcp m d a => Sys2Proof.Machine.execFrcp m d a s
  | .frsq m d a => Sys2Proof.Machine.execFrsq m d a s
  | .fsqrt m d a => Sys2Proof.Machine.execFsqrt m d a s
  | .fexp2 m d a => Sys2Proof.Machine.execFexp2 m d a s
  | .flog2 m d a => Sys2Proof.Machine.execFlog2 m d a s
  | .badd2 m d a b => Sys2Proof.Machine.execBadd2 m d a b s
  | .bmul2 m d a b => Sys2Proof.Machine.execBmul2 m d a b s
  | .bfma2 m d a b => Sys2Proof.Machine.execBfma2 m d a b s
  | .bmax2 m d a b => Sys2Proof.Machine.execBmax2 m d a b s
  | .dxq m d a f => Sys2Proof.Machine.execDxq m d a f s
  | .dxd m d a f => Sys2Proof.Machine.execDxd m d a f s
  | .ballot m d a => Sys2Proof.Machine.execBallot m d a s
  | .vany m d a => Sys2Proof.Machine.execVany m d a s
  | .vall m d a => Sys2Proof.Machine.execVall m d a s
  | .shfl m d a b => Sys2Proof.Machine.execShfl m d a b s
  | .shflx m d a b => Sys2Proof.Machine.execShflx m d a b s
  | .shflup m d a b => Sys2Proof.Machine.execShflup m d a b s
  | .shfldn m d a b => Sys2Proof.Machine.execShfldn m d a b s
  | .redadd m d a => Sys2Proof.Machine.execRedadd m d a s
  | .redmin m d a => Sys2Proof.Machine.execRedmin m d a s
  | .redmax m d a => Sys2Proof.Machine.execRedmax m d a s
  | .redfadd m d a => Sys2Proof.Machine.execRedfadd m d a s
  | .scanadd m d a => Sys2Proof.Machine.execScanadd m d a s
  | .scanaddx m d a => Sys2Proof.Machine.execScanaddx m d a s
  | .movix m d a => Sys2Proof.Machine.execMovix m d a s
  | .movixw m d a => Sys2Proof.Machine.execMovixw m d a s
  | .lmask m d => Sys2Proof.Machine.execLmask m d s
  | .beq m a b o => Sys2Proof.Machine.execBeq m a b o s
  | .bne m a b o => Sys2Proof.Machine.execBne m a b o s
  | .blt m a b o => Sys2Proof.Machine.execBlt m a b o s
  | .bge m a b o => Sys2Proof.Machine.execBge m a b o s
  | .bltn m a b o => Sys2Proof.Machine.execBltn m a b o s
  | .bgen m a b o => Sys2Proof.Machine.execBgen m a b o s
  | .br m o => Sys2Proof.Machine.execBr m o s
  | .jal m o => Sys2Proof.Machine.execJal m o s
  | .jr m a => Sys2Proof.Machine.execJr m a s
  | .jalr m d a => Sys2Proof.Machine.execJalr m d a s
  | .nop m => Sys2Proof.Machine.execNop m s
  | .exit m => Sys2Proof.Machine.execExit m s
  | .yield m => Sys2Proof.Machine.execYield m s
  | .trapI m c => Sys2Proof.Machine.execTrapI m c s
  | .brk m => Sys2Proof.Machine.execBrk m s
  | .eret m => Sys2Proof.Machine.execEret m s
  | .wbase m a => Sys2Proof.Machine.execWbase m a s
  | .chk m a b => Sys2Proof.Machine.execChk m a b s
  | .spawn m d a c => Sys2Proof.Machine.execSpawn m d a c s
  | .jenrol m j => Sys2Proof.Machine.execJenrol m j s
  | .jwait m j => Sys2Proof.Machine.execJwait m j s
  | .jstrike m j => Sys2Proof.Machine.execJstrike m j s
  | .tickwait m => Sys2Proof.Machine.execTickwait m s
  | .rdcw m d imm => Sys2Proof.Machine.execRdcw m d imm s
  | .wrcw m a imm => Sys2Proof.Machine.execWrcw m a imm s
  | .ldg m d a w h o => Sys2Proof.Machine.execLdg m d a w h o s
  | .stg m d a w h o => Sys2Proof.Machine.execStg m d a w h o s
  | .lds m d a w h o => Sys2Proof.Machine.execLds m d a w h o s
  | .sts m d a w h o => Sys2Proof.Machine.execSts m d a w h o s
  | .ldp m d a w h o => Sys2Proof.Machine.execLdp m d a w h o s
  | .stp m d a w h o => Sys2Proof.Machine.execStp m d a w h o s
  | .pf m a => Sys2Proof.Machine.execPf m a s
  | .cwb m a => Sys2Proof.Machine.execCwb m a s
  | .cinv m a => Sys2Proof.Machine.execCinv m a s
  | .cflush m a => Sys2Proof.Machine.execCflush m a s
  | .aadd m d a b c => Sys2Proof.Machine.execAadd m d a b c s
  | .aand m d a b c => Sys2Proof.Machine.execAand m d a b c s
  | .aor m d a b c => Sys2Proof.Machine.execAor m d a b c s
  | .axor m d a b c => Sys2Proof.Machine.execAxor m d a b c s
  | .amin m d a b c => Sys2Proof.Machine.execAmin m d a b c s
  | .amax m d a b c => Sys2Proof.Machine.execAmax m d a b c s
  | .aminn m d a b c => Sys2Proof.Machine.execAminn m d a b c s
  | .amaxn m d a b c => Sys2Proof.Machine.execAmaxn m d a b c s
  | .aswap m d a b c => Sys2Proof.Machine.execAswap m d a b c s
  | .acas m d a b c => Sys2Proof.Machine.execAcas m d a b c s
  | .acasgt m d a b c => Sys2Proof.Machine.execAcasgt m d a b c s
  | .acasgtn m d a b c => Sys2Proof.Machine.execAcasgtn m d a b c s
  | .aaddD m d a b c => Sys2Proof.Machine.execAaddD m d a b c s
  | .aandD m d a b c => Sys2Proof.Machine.execAandD m d a b c s
  | .aorD m d a b c => Sys2Proof.Machine.execAorD m d a b c s
  | .axorD m d a b c => Sys2Proof.Machine.execAxorD m d a b c s
  | .aminD m d a b c => Sys2Proof.Machine.execAminD m d a b c s
  | .amaxD m d a b c => Sys2Proof.Machine.execAmaxD m d a b c s
  | .aminnD m d a b c => Sys2Proof.Machine.execAminnD m d a b c s
  | .amaxnD m d a b c => Sys2Proof.Machine.execAmaxnD m d a b c s
  | .aswapD m d a b c => Sys2Proof.Machine.execAswapD m d a b c s
  | .acasD m d a b c => Sys2Proof.Machine.execAcasD m d a b c s
  | .acasgtD m d a b c => Sys2Proof.Machine.execAcasgtD m d a b c s
  | .acasgtnD m d a b c => Sys2Proof.Machine.execAcasgtnD m d a b c s
  | .acasver m d a b c => Sys2Proof.Machine.execAcasver m d a b c s
  | .acastag m d a b c => Sys2Proof.Machine.execAcastag m d a b c s
  | .atbeg m d o => Sys2Proof.Machine.execAtbeg m d o s
  | .atend m => Sys2Proof.Machine.execAtend m s
  | .atabort m c => Sys2Proof.Machine.execAtabort m c s
  | .atstat m d => Sys2Proof.Machine.execAtstat m d s
  | .fenceRel m c => Sys2Proof.Machine.execFenceRel m c s
  | .fenceAcq m c => Sys2Proof.Machine.execFenceAcq m c s
  | .fenceAr m c => Sys2Proof.Machine.execFenceAr m c s
  | .phase m c a => Sys2Proof.Machine.execPhase m c a s
  | .bararv m d a c => Sys2Proof.Machine.execBararv m d a c s
  | .barwait m d a c => Sys2Proof.Machine.execBarwait m d a c s
  | .barsync m d a c => Sys2Proof.Machine.execBarsync m d a c s
  | .barinit m d a c => Sys2Proof.Machine.execBarinit m d a c s
  | .waiteq m d a b => Sys2Proof.Machine.execWaiteq m d a b s
  | .waitne m d a b => Sys2Proof.Machine.execWaitne m d a b s
  | .waitge m d a b => Sys2Proof.Machine.execWaitge m d a b s
  | .tlwait m a n => Sys2Proof.Machine.execTlwait m a n s
  | .tlread m d n => Sys2Proof.Machine.execTlread m d n s
  | .qpush m a n => Sys2Proof.Machine.execQpush m a n s
  | .qpop m d n => Sys2Proof.Machine.execQpop m d n s
  | .qtake m d a => Sys2Proof.Machine.execQtake m d a s
  | .copy m d a => Sys2Proof.Machine.execCopy m d a s
  | .copyg m d a => Sys2Proof.Machine.execCopyg m d a s
  | .prefa m d a => Sys2Proof.Machine.execPrefa m d a s
  | .fetchw m a b => Sys2Proof.Machine.execFetchw m a b s
  | .put m d a => Sys2Proof.Machine.execPut m d a s
  | .puts m d a => Sys2Proof.Machine.execPuts m d a s
  | .get m d a => Sys2Proof.Machine.execGet m d a s
  | .wincnt m d a g x => Sys2Proof.Machine.execWincnt m d a g x s
  | .mloop m n x y a b => Sys2Proof.Machine.execMloop m n x y a b s
  | .slclr m n => Sys2Proof.Machine.execSlclr m n s
  | .slrd m d a c n => Sys2Proof.Machine.execSlrd m d a c n s
  | .slwr m d a n => Sys2Proof.Machine.execSlwr m d a n s
  | .slstat m d a n => Sys2Proof.Machine.execSlstat m d a n s
  | .slevt m d => Sys2Proof.Machine.execSlevt m d s
  | .fifoclr m f => Sys2Proof.Machine.execFifoclr m f s
  | .rand m d a b => Sys2Proof.Machine.execRand m d a b s
  | .randf m d a b => Sys2Proof.Machine.execRandf m d a b s
  | .snapshotQuiesce rid => Sys2Proof.Machine.execSnapshotQuiesce rid s
  | .classPlace die => Sys2Proof.Machine.execClassPlace die s
  | .steal die => Sys2Proof.Machine.execSteal die s
  | .classEnd ck => Sys2Proof.Machine.execClassEnd ck s
  | .preempt ck => Sys2Proof.Machine.execPreempt ck s
  | .residentKill rid => Sys2Proof.Machine.execResidentKill rid s
  | .fifoFeedFault req => Sys2Proof.Machine.execFifoFeedFault req s
  | .fetchwAnswer die => Sys2Proof.Machine.execFetchwAnswer die s
  | .tickBoundary ctx => Sys2Proof.Machine.execTickBoundary ctx s
  | .binTimerExpire bin => Sys2Proof.Machine.execBinTimerExpire bin s
  | .binLaunch bin => Sys2Proof.Machine.execBinLaunch bin s
  | .issueSelect core section_ => Sys2Proof.Machine.execIssueSelect core section_ s
  | .threadStarved tk => Sys2Proof.Machine.execThreadStarved tk s
  | .laneWake tk => Sys2Proof.Machine.execLaneWake tk s
  | .pageWalk die ctx va kind => Sys2Proof.Machine.execPageWalk die ctx va kind s
  | .translationFaultResolve tk => Sys2Proof.Machine.execTranslationFaultResolve tk s
  | .phaseSweep unit => Sys2Proof.Machine.execPhaseSweep unit s
  | .monitorFire tk => Sys2Proof.Machine.execMonitorFire tk s
  | .signalDelivery tk => Sys2Proof.Machine.execSignalDelivery tk s
  | .copyRequestStart req => Sys2Proof.Machine.execCopyRequestStart req s
  | .copyComplete req => Sys2Proof.Machine.execCopyComplete req s
  | .matrixStep core ticket => Sys2Proof.Machine.execMatrixStep core ticket s
  | .ticketedSlateAct core ticket => Sys2Proof.Machine.execTicketedSlateAct core ticket s
  | .illegalWord w => Sys2Proof.Machine.execIllegalWord w s
  | .deferredResultWrite tk n => Sys2Proof.Machine.execDeferredResultWrite tk n s
  | .fabricOpSend op => Sys2Proof.Machine.execFabricOpSend op s
  | .fabricOpSettle op refused data => Sys2Proof.Machine.execFabricOpSettle op refused data s
  | .pbenSet => Sys2Proof.Machine.execPbenSet s
  | .pbenClear => Sys2Proof.Machine.execPbenClear s
  | .doeAbort => Sys2Proof.Machine.execDoeAbort s
  | .doeDiscovery => Sys2Proof.Machine.execDoeDiscovery s
  | .spdmDoeRequest => Sys2Proof.Machine.execSpdmDoeRequest s
  | .telemetryRead => Sys2Proof.Machine.execTelemetryRead s
  | .i3cReset => Sys2Proof.Machine.execI3cReset s
  | .powerOn => Sys2Proof.Machine.execPowerOn s
  | .perst => Sys2Proof.Machine.execPerst s
  | .cxlReset => Sys2Proof.Machine.execCxlReset s
  | .functionLevelReset => Sys2Proof.Machine.execFunctionLevelReset s
  | .port1Reset => Sys2Proof.Machine.execPort1Reset s
  | .holdEnd => Sys2Proof.Machine.execHoldEnd s
  | .powerFault => Sys2Proof.Machine.execPowerFault s
  | .thermalTrip => Sys2Proof.Machine.execThermalTrip s
  | .clockThrottle => Sys2Proof.Machine.execClockThrottle s
  | .clockRestore => Sys2Proof.Machine.execClockRestore s
  | .freeze => Sys2Proof.Machine.execFreeze s
  | .freezeRelease => Sys2Proof.Machine.execFreezeRelease s
  | .scanShift => Sys2Proof.Machine.execScanShift s
  | .backstopSweep => Sys2Proof.Machine.execBackstopSweep s
  | .passStep => Sys2Proof.Machine.execPassStep s
  | .deviceNumberConflict => Sys2Proof.Machine.execDeviceNumberConflict s
  | .dvsecRegisterWrite port off v => Sys2Proof.Machine.execDvsecRegisterWrite port off v s
  | .mbwrWrite v => Sys2Proof.Machine.execMbwrWrite v s
  | .mbrdWrite v => Sys2Proof.Machine.execMbrdWrite v s
  | .spdmMctpRequest msg => Sys2Proof.Machine.execSpdmMctpRequest msg s
  | .linkDown port => Sys2Proof.Machine.execLinkDown port s
  | .linkRetrain port => Sys2Proof.Machine.execLinkRetrain port s
  | .bisnpTimeout rid port => Sys2Proof.Machine.execBisnpTimeout rid port s
  | .playbillWriteSnoop off bs => Sys2Proof.Machine.execPlaybillWriteSnoop off bs s
  | .queueTailWrite q => Sys2Proof.Machine.execQueueTailWrite q s
  | .hostMemRead off n => Sys2Proof.Machine.execHostMemRead off n s
  | .hostMemWrite off bs => Sys2Proof.Machine.execHostMemWrite off bs s
  | .hostSnoop addr bs => Sys2Proof.Machine.execHostSnoop addr bs s
  | .fabricOpArrival win kind rows sigOp sigOff sigVal => Sys2Proof.Machine.execFabricOpArrival win kind rows sigOp sigOff sigVal s
  | .fabricPathTimeout op => Sys2Proof.Machine.execFabricPathTimeout op s
  | .gratricPortFail port => Sys2Proof.Machine.execGratricPortFail port s
  | .flitResend port => Sys2Proof.Machine.execFlitResend port s
  | .uncorrectableError site at_ addr => Sys2Proof.Machine.execUncorrectableError site at_ addr s
  | .correctedError unit => Sys2Proof.Machine.execCorrectedError unit s
  | .gratricPortTrain port => Sys2Proof.Machine.execGratricPortTrain port s

end Sys2Proof.Machine
end

