-- ==== Sys2Proof/Machine/Place.lean ====
section
/-! DEFINITION. A program of one instruction placed on core 0 of die 0, at issue (log 3, DESIGN CHOICE): what a load from outside, a pass and a placement
would leave, as far as fetching and running the instruction needs it. -/

namespace Sys2Proof.Machine

/-- The record ids of the context and of the program, its class, its image and its frame. -/
def demoCtx : Nat := 1
def demoRid : Nat := 2
def demoCk : Nat := ckOf demoRid 0
def demoVa : Nat := 0x4100000000
def demoFrame : Nat := 0x2000000

/-- A launch record of one class of one troupe and one lane, with the matrix unit, scratch, spawn seats, barriers, a note queue and a
segment. -/
def demoLaunch : Launch :=
  ⟨[⟨2, 2, 1⟩, ⟨0, 0, 1⟩], 1, true, true, 128, 1, 1, 4096, 64, 0x80, 0, [⟨0, 0, 2⟩]⟩

def demoResident : Resident :=
  ⟨demoCtx, 0, 0, 0, demoVa, 4096, 0, demoLaunch, 1, [0], 0, 0, 0, [], [], none, false⟩

def demoCls : Cls :=
  ⟨demoRid, demoCtx, 0, 0, 0, true, 0, 0, [0], [4, 1, 2, 3], [], [], [(0, 0x2100000)], 0, false, false, none, none⟩

/-- The bytes of a page table that maps the image's page, at `t`, with its code page readable and executable (R87, R88). -/
def demoTables (m : Memory) (t : Nat) : Memory :=
  let idx (lv : Nat) : Nat := 8 * (demoVa / 2 ^ (12 + 9 * lv) % 512)
  let m := wrNat m (t + idx 3) 8 (1 + (t + 4096))
  let m := wrNat m (t + 4096 + idx 2) 8 (1 + (t + 8192))
  let m := wrNat m (t + 8192 + idx 1) 8 (1 + (t + 12288))
  wrNat m (t + 12288 + idx 0) 8 (mkEntry (demoFrame / 4096) 0 0 5 false false true false)

/-- The state with that program placed, the word `w` its first instruction, and that instruction at issue. -/
def placeWord (s : State) (w : Nat) : State :=
  let root := s.cfg.hdmSize
  let m := wrBytes (demoTables s.dmem root) demoFrame (bytesOfNat 4 w)
  let cx : Ctx := ⟨root, true, 0, 512, 0, 0, 0, 0, 0, [], false, true, 1000, 1000, s.timebase + 100000, 0, [], [], []⟩
  { dropTlbs s demoCtx with
    dmem := m, reserved := s.reserved ++ [⟨root / 4096, 4, 2 * demoCtx⟩], badDev := [], frozen := false, hold := none, icache := [],
    ctxs := tput s.ctxs demoCtx cx, residents := tput s.residents demoRid demoResident, classes := tput s.classes demoCk demoCls,
    troupes := tput s.troupes (pkey demoCk 0) { Troupe.blank with lmask := 1 },
    threads := tput s.threads (tkey demoCk 0 0) { Thread.blank with pc := BitVec.ofNat 64 demoVa, binTimer := 2048 },
    agenda := [], issue := some ⟨demoCk, 0, 1, BitVec.ofNat 64 demoVa⟩ }

end Sys2Proof.Machine
end

