-- ==== Sys2Proof/Machine/Step.lean ====
section
/-! DEFINITION. One step of the module: the instruction at issue is fetched, decoded and executed; otherwise the next event happens. -/

namespace Sys2Proof.Machine

/-- One step. -/
def step (s : State) : Host.Outcome State Fault Refusal :=
  match s.issue, running s with
  | some g, true =>
    (match fetchWord s g with
     | (s, .word w) => exec (instrOf w) s
     | (s, f) => .next (failFetch s g f))
  | _, _ =>
    (match nextEvent s with
     | (s, some i) => exec i s
     | (s, none) => .next s)

/-- The state whose next step fetches and runs the instruction whose `nbits` low bits are `w` (log 3, DESIGN CHOICE). -/
def State.withFetchWord (s : State) (nbits w : Nat) : State := placeWord s (w % 2 ^ nbits % 2 ^ 32)

end Sys2Proof.Machine
end

