-- ==== Sys2Proof/Safety.lean ====
section
/-! DEFINITION. The terms in which claims about the machine are stated: when an instruction runs to its own effect, what an instruction
that lies in the registers of its lanes leaves, and the invariants of the module. -/

namespace Sys2Proof.Safety

open Sys2Proof.Machine

/-! ## When an instruction reaches its own effect -/

/-- The lanes that execute the instruction at issue (R123, R125). -/
def lanes (s : State) : List Nat := activeLanes s (groupOf s)

/-- The thread of a lane of the troupe at issue. -/
def lane (s : State) (l : Nat) : Thread := threadAt s ((groupOf s).tk l)

/-- Register field `n` as lane l reads it. -/
def reg (s : State) (l : Nat) (n : RegNo) : Word := readReg s (groupOf s) l n.toNat

/-- The pair at field `n` as lane l reads it, its low half the even register (R180). -/
def pair (s : State) (l : Nat) (n : RegNo) : DWord := readReg s (groupOf s) l (n.toNat + 1) ++ readReg s (groupOf s) l n.toNat

/-- No register that the instruction reads or writes is outstanding in the thread (R138). -/
def noHazard (t : Thread) (i : Instr) : Bool := (readsOf i ++ writesOf i).all (fun r => (fieldsOf r).all (fun n => !outstanding t n))

/-- Steps 2 and 3 of R259 let lane l go on to the instruction's own checks: no HAZARD (R138, R291), no REGION (R217), no UNIFORM_SPLIT (R132),
no register that an uncorrectable error has spoiled (R165), room for a constraint that its region records (R218), and nothing that a release or
a fence still waits for (R133, R168). -/
def lanePasses (i : Instr) (s : State) (l : Nat) : Bool :=
  noHazard (lane s l) i && (indirectReg s (groupOf s) i l).all (fun r => !outstanding (lane s l) r.1) && !regionTraps (lane s l) i
    && (!writesK i || (groupOf s).mask == (troupeAt s (groupOf s).ck (groupOf s).p).lmask)
    && (badSource s (groupOf s) i l).isNone && (lane s l).region.all (fun r => !constraintFull r i) && (fencePark (lane s l) i).isNone

/-- The instruction is one that the decoder gives (R257), and every executing lane reaches its own checks (R259). -/
def allPass (i : Instr) (s : State) : Bool := i.wellFormed && (lanes s).all (lanePasses i s)

/-- The instruction is one that the decoder gives (R257), and every executing lane reaches its own checks (R259). -/
abbrev Ready (i : Instr) (s : State) : Prop := allPass i s = true

/-- One register written by each lane. -/
def one (d : RegNo) (f : Nat → Word) (l : Nat) : List (Nat × Word) := [(d.toNat, f l)]

/-- A pair written by each lane, its low half in the even register (R180). -/
def two (d : RegNo) (f : Nat → DWord) (l : Nat) : List (Nat × Word) := [(d.toNat, (f l).setWidth 32), (d.toNat + 1, (f l).extractLsb' 32 32)]

/-- No register written. -/
def nothing (_ : Nat) : List (Nat × Word) := []

/-! ## What an instruction leaves -/

/-- Nothing but registers, threads and troupes has changed, and the instruction has issued. -/
def OnlyLanes (s t : State) : Prop :=
  t = { s with regs := t.regs, badRegs := t.badRegs, cregs := t.cregs, cregSeq := t.cregSeq, cregLast := t.cregLast, troupes := t.troupes,
               threads := t.threads, issue := none, issueSeq := s.issueSeq + 1 }

/-- Nothing but threads has changed, and the instruction has issued. -/
def OnlyThreads (s t : State) : Prop := t = { s with threads := t.threads, issue := none, issueSeq := s.issueSeq + 1 }

/-- The register that field `n` names in lane l, by its key. -/
def allocKey (s : State) (l n : Nat) : Nat := regKey (groupOf s).ck (groupOf s).p ((lane s l).wb.toNat + n) l

/-- The value that some writes give field `n`. -/
def given (ws : List (Nat × Word)) (n : Nat) : Option Word := (ws.find? (fun w => w.1 == n)).map (·.2)

/-- The value that k register n of the troupe is given: that of the lowest lane (R132). -/
def kGiven (s : State) (ws : Nat → List (Nat × Word)) (n : Nat) : Option Word := (lanes s).head?.bind (fun l => given (ws l) (112 + n))

/-- The value that c register n of the class is given: that of the highest lane (R133). -/
def cGiven (s : State) (ws : Nat → List (Nat × Word)) (n : Nat) : Option Word := (lanes s).getLast?.bind (fun l => given (ws l) (120 + n))

/-- The registers after an instruction whose lane l writes the fields `ws l` at once (R130 to R133, R136). A write of g0 is discarded. A k
or c register that a later-issued instruction has written keeps that value, and a c register that of a higher section in the same cycle
(R132, R133). -/
structure Wrote (s t : State) (ws : Nat → List (Nat × Word)) : Prop where
  /-- Each lane's own registers. -/
  own : ∀ l ∈ lanes s, ∀ w ∈ ws l, 0 < w.1 → w.1 < 112 → tget 0 t.regs (allocKey s l w.1) = w.2
  /-- Every other register of the module. -/
  others : ∀ k, (∀ l ∈ lanes s, ∀ w ∈ ws l, 0 < w.1 → w.1 < 112 → k ≠ allocKey s l w.1) → tget 0 t.regs k = tget 0 s.regs k
  /-- The k registers of the troupe. -/
  kregs : ∀ n, n < 8 → tget 0 (troupeAt t (groupOf s).ck (groupOf s).p).kregs n =
    if tget 0 (troupeAt s (groupOf s).ck (groupOf s).p).kseq n ≤ s.issueSeq then
      (kGiven s ws n).getD (tget 0 (troupeAt s (groupOf s).ck (groupOf s).p).kregs n)
    else tget 0 (troupeAt s (groupOf s).ck (groupOf s).p).kregs n
  /-- The c registers of the class. -/
  cregs : ∀ n, n < 8 → tget 0 t.cregs ((groupOf s).ck * 8 + n) =
    if tget 0 s.cregSeq (((groupOf s).ck * 8 + n) * 4 + (groupOf s).p % 4) ≤ s.issueSeq + 1
        ∧ tget 0 s.cregLast ((groupOf s).ck * 8 + n) ≤ cregStamp s (groupOf s).ck (groupOf s).p then
      (cGiven s ws n).getD (tget 0 s.cregs ((groupOf s).ck * 8 + n))
    else tget 0 s.cregs ((groupOf s).ck * 8 + n)
  /-- A spoiled register is good once it is written (R165). -/
  mended : ∀ k, k ∈ t.badRegs ↔ k ∈ s.badRegs ∧ ∀ l ∈ lanes s, ∀ w ∈ ws l, 0 < w.1 → w.1 < 112 → k ≠ allocKey s l w.1
  /-- The c registers of other classes. -/
  ccs : ∀ k, k / 8 ≠ (groupOf s).ck → tget 0 t.cregs k = tget 0 s.cregs k
  /-- Other troupes, and what else the troupe holds. -/
  troupes : ∀ k, k ≠ pkey (groupOf s).ck (groupOf s).p → tfind t.troupes k = tfind s.troupes k
  troupe : { troupeAt t (groupOf s).ck (groupOf s).p with kregs := [], kseq := [] }
    = { troupeAt s (groupOf s).ck (groupOf s).p with kregs := [], kseq := [] }

/-- Every executing thread is changed as `f` says, and no other. -/
def Threads (s t : State) (f : Nat → Thread → Thread) : Prop :=
  (∀ l ∈ lanes s, tfind t.threads ((groupOf s).tk l) = some (f l (lane s l)))
    ∧ ∀ k, (∀ l ∈ lanes s, k ≠ (groupOf s).tk l) → tfind t.threads k = tfind s.threads k

/-- What an open region of lane l records of the instruction (R216). -/
def recorded (i : Instr) (s : State) (l : Nat) : Option Region := (lane s l).region.map (fun r => regionAfter r i (readReg s (groupOf s) l))

/-- A thread that has completed an instruction: its program counter, what its region records, and the marker (R137, R138): with S = 1 it
waits for its deferred results, and with none its outstanding set is empty. -/
def completed (m : Bool) (pc : DWord) (r : Option Region) (t : Thread) : Thread :=
  { t with pc := pc, parkSeq := 0, region := r, out := if m && t.pend.isEmpty then 0 else t.out,
           markWait := t.markWait || (m && !t.pend.isEmpty) }

/-- The address after the instruction. -/
def next (s : State) : DWord := (groupOf s).pc + 4

/-- An instruction whose lane l writes `ws l` at once and goes on at `pc l`: what it leaves, whole. -/
def Immediate (i : Instr) (s t : State) (ws : Nat → List (Nat × Word)) (pc : Nat → DWord) : Prop :=
  OnlyLanes s t ∧ Wrote s t ws ∧ Threads s t (fun l => completed i.marker (pc l) (recorded i s l))

/-- The destinations of a deferred result of lane l: g0 has none, and a k register takes the lowest lane's value (R130, R132, R136). -/
def deferredOf (s : State) (ws : Nat → List (Nat × Word)) (l : Nat) : List (Dest × Word) :=
  destsOf (lane s l) ((ws l).map (fun w => if 112 ≤ w.1 ∧ w.1 < 120 then (w.1, (kGiven s ws (w.1 - 112)).getD w.2) else w))

/-- A thread with one more deferred result, whose registers are outstanding (R136, R138); an instruction without a register result leaves
none. -/
def holding (n : Nat) (ws : List (Dest × Word)) (t : Thread) : Thread :=
  if ws.all (fun w => w.1 == .zero) then t else { t with pend := t.pend ++ [⟨ws, none, n⟩], out := outAdd t.out (ws.map (·.1)) }

/-- An instruction whose lane l leaves the deferred result `ws l` (R136): what it leaves, whole. -/
def Pending (i : Instr) (s t : State) (ws : Nat → List (Nat × Word)) : Prop :=
  OnlyThreads s t
    ∧ Threads s t (fun l u => completed i.marker (next s) (recorded i s l) (holding (s.issueSeq + 1) (deferredOf s ws l) u))

/-- A thread that has taken a trap to its handler, its deferred results all written and no region open (R142): the cause, cw.tval, cw.epc,
H, and the program counter at the vector. -/
def inTrap (s : State) (c : Cause) (v : DWord) (t : Thread) : Thread :=
  { t with cause := BitVec.ofNat 8 c.code, tval := v, epc := (groupOf s).pc, inHandler := true, pc := vectorOf s (groupOf s).ck, out := 0,
           park := none, parkSeq := 0, markWait := false }

/-- A trap of lane l goes to the program's handler at once: its program has one, H is 0, no deferred result is left and no region is open
(R142, R144). -/
def handlerServes (s : State) (l : Nat) : Bool :=
  (launchOf s (groupOf s).ck).trapVec != 0xFFFFFFFF && !(lane s l).inHandler && (lane s l).pend.isEmpty && (lane s l).region.isNone

/-- Every executing lane takes the trap with the value `v l`, and nothing else changes. -/
def Trapped (s t : State) (c : Cause) (v : Nat → DWord) : Prop := OnlyThreads s t ∧ Threads s t (fun l => inTrap s c (v l))

/-- The thread of lane l of the executing group, in a later state. -/
def after (s t : State) (l : Nat) : Thread := threadAt t ((groupOf s).tk l)

/-- Every executing lane, in its handler, meets a trap of code `c`, which is NESTED: the reconciler is to kill the RESIDENT, and the threads stand where
they are (R142, R144). -/
def NestedTrap (s t : State) (c : Nat) : Prop :=
  t = { s with threads := t.threads, residents := t.residents, issue := none, issueSeq := s.issueSeq + 1 }
    ∧ (residentAt t (ridOf (groupOf s).ck)).killPending = some 0x0430
    ∧ ∀ l ∈ lanes s, let u := threadAt t ((groupOf s).tk l)
        u.park = some .reconciler ∧ u.pc = (lane s l).pc ∧ u.cause = 0x30 ∧ u.tval = BitVec.ofNat 64 c

/-- Every executing lane is in its handler with nothing pending, and its RESIDENT is not to be killed yet. -/
def InHandlers (s : State) : Prop :=
  (∀ l ∈ lanes s, (lane s l).inHandler = true ∧ (lane s l).pend = [] ∧ (lane s l).region = none)
    ∧ (tfind s.residents (ridOf (groupOf s).ck)).isSome = true ∧ (residentAt s (ridOf (groupOf s).ck)).killPending = none

/-- A handler may not name slate n: it is not the handler slate, or code outside a handler has written it or has a loop on it (R146). -/
def slateClosed (s : State) (n : Nat) : Prop :=
  let u := matrixAt s (coreOf s (groupOf s).ck)
  n ≠ (residentAt s (ridOf (groupOf s).ck)).hslate ∨ (slateAt u n).fromH0 = true ∨ ∃ lp ∈ u.loops, lp.slate = n ∧ lp.fromH0 = true

/-- Lane l takes the trap, and no register of its allocation changes (R142). -/
def LaneTrapped (s t : State) (l : Nat) (c : Cause) (v : DWord) : Prop :=
  tfind t.threads ((groupOf s).tk l) = some (inTrap s c v (lane s l))
    ∧ ∀ a, tget 0 t.regs (regKey (groupOf s).ck (groupOf s).p a l) = tget 0 s.regs (regKey (groupOf s).ck (groupOf s).p a l)

/-- A thread but for its waits, its program counter and its outstanding set. -/
def core (t : Thread) : Thread := { t with park := none, parkSeq := 0, was := none, taking := none, markWait := false, out := 0, pc := 0, readySince := 0 }

/-- A thread that waits at its instruction, and is otherwise as it was (R124). -/
def Waits (p : Park) (u t : Thread) : Prop := t.park = some p ∧ t.pc = u.pc ∧ core t = core u

/-- A value that cw.wb accepts: a multiple of 32 from 0 to REGS − 112 (R131). -/
def goodWindow (s : State) (v : Word) : Bool := v.toNat % 32 == 0 && decide (v.toNat + 112 ≤ (launchOf s (groupOf s).ck).regs)

/-! ## Rejoin masks (R129) -/

/-- The troupe at issue is one of the module's. -/
def troupeLives (s : State) : Bool := (tfind s.troupes (pkey (groupOf s).ck (groupOf s).p)).isSome

/-- The enrolled and the arrived set of mask j of the executing troupe. -/
def enrolledIn (s t : State) (j : Nat) : Word := enrolledAt (troupeAt t (groupOf s).ck (groupOf s).p) j
def arrivedIn (s t : State) (j : Nat) : Word := arrivedAt (troupeAt t (groupOf s).ck (groupOf s).p) j

/-- `check(j)` releases: E is not empty, and E is a subset of A. -/
def releases (e a : Word) : Bool := e != 0 && e &&& ~~~a == 0

/-- A lane released past its JWAIT. -/
def released (s : State) (t : Thread) : Thread :=
  { t with park := none, parkSeq := 0, pc := t.pc + 4, readySince := coreCycle s (coreOf s (groupOf s).ck) }

/-- Mask j has become `e` and `a`, or, where `check(j)` released it, empty; the lanes of A that waited at it, and are not among those that
execute, have gone on; nothing else of the troupes and of the other threads has changed. -/
structure Rejoin (s t : State) (j : Nat) (e a : Word) (check : Bool) : Prop where
  mask : if check && releases e a then enrolledIn s t j = 0 ∧ arrivedIn s t j = 0 else enrolledIn s t j = e ∧ arrivedIn s t j = a
  masks : ∀ i, i ≠ j → enrolledIn s t i = enrolledIn s s i ∧ arrivedIn s t i = arrivedIn s s i
  troupe : { troupeAt t (groupOf s).ck (groupOf s).p with enrolled := [], arrived := [] }
    = { troupeAt s (groupOf s).ck (groupOf s).p with enrolled := [], arrived := [] }
  troupes : ∀ k, k ≠ pkey (groupOf s).ck (groupOf s).p → tfind t.troupes k = tfind s.troupes k
  threads : ∀ k, (∀ l ∈ lanes s, k ≠ (groupOf s).tk l) → tfind t.threads k = (tfind s.threads k).map (fun u =>
    if check && releases e a && decide (k / 32 = pkey (groupOf s).ck (groupOf s).p) && inMask a (k % 32) && decide (u.park = some (.jwait j))
    then released s u else u)

/-! ## Spawning, ticks and signals -/

/-- The checks of SPAWN on the class and on the instruction's fields (R279, 1 and 2). -/
def spawnForm (s : State) (d : RegNo) (c : BitVec 7) : Bool :=
  (launchOf s (groupOf s).ck).spawnSeats != 0 && decide (c.toNat ≤ 8)
    && (if c == 0 then d == 0 else d != 0 && decide (d.toNat + c.toNat - 1 ≤ 111))

/-- The slot that lane l of a SPAWN fills: its arguments and its coordinates (R110, R111). -/
def spawned (s : State) (d : RegNo) (c : BitVec 7) (l : Nat) : Slot :=
  ⟨(List.range c.toNat).map (fun k => readReg s (groupOf s) l (d.toNat + k)), (lane s l).coords⟩

/-- The tick count of the class's context (R117). -/
def ticksNow (s : State) : Nat := ((tfind s.ctxs (clsAt s (groupOf s).ck).ctx).map (·.ticks)).getD 0

/-- A value written to cw.sigsend names the thread at key k: SEAT and SECTION, and LANE unless ALL is 1 (R145). -/
def signalNames (s : State) (w : Word) (k : Nat) : Bool :=
  k / 32 == pkey (groupOf s).ck (w.toNat / 2 ^ 7 % 16 * 4 + w.toNat / 2 ^ 5 % 4) && (w.getLsbD 11 || k % 32 == w.toNat % 32)

/-- The thread at key k once every lane has written register a to cw.sigsend: it holds the signal of the highest lane that names it. -/
def signalled (s : State) (a : RegNo) (k : Nat) (u : Thread) : Thread :=
  match ((lanes s).filter (fun l => signalNames s (reg s l a) k)).getLast? with
  | some l => { u with held := some (BitVec.ofNat 12 ((groupOf s).p * 32 + l)) }
  | none => u

/-! ## Floating point (R181 to R186) -/

/-- (−1)^s × m × 2^e as an integer multiple of 2^low, for low ≤ e. -/
def scaled (s : Bool) (m : Nat) (e low : Int) : Int := (if s then -(m : Int) else m) * 2 ^ (e - low).toNat

/-- m × 2^e and n × 2^g are one magnitude. -/
def sameMagnitude (m : Nat) (e : Int) (n : Nat) (g : Int) : Prop := m * 2 ^ (e - min e g).toNat = n * 2 ^ (g - min e g).toNat

/-- j = floor(log2(m × 2^e)). -/
def log2Is (m : Nat) (e j : Int) : Prop := 2 ^ (j - min j e).toNat ≤ m * 2 ^ (e - min j e).toNat ∧ m * 2 ^ (e - min j e).toNat < 2 ^ (j + 1 - min j e).toNat

/-- t is m × 2^k rounded to an integer by the mode, the value's sign being s (R184): to nearest with ties to even, toward zero, down or up. -/
def roundsTo (rm : RMode) (s : Bool) (m : Nat) (k : Int) (t : Nat) : Prop :=
  if 0 ≤ k then t = m * 2 ^ k.toNat
  else
    let d := 2 ^ (-k).toNat
    match rm with
    | .rne => 2 * (t * d) ≤ 2 * m + d ∧ 2 * m ≤ 2 * (t * d) + d
        ∧ (2 * (t * d) = 2 * m + d ∨ 2 * m = 2 * (t * d) + d → t % 2 = 0)
    | .rtz => t * d ≤ m ∧ m < (t + 1) * d
    | .rdn => if s then m ≤ t * d ∧ t * d < m + d else t * d ≤ m ∧ m < (t + 1) * d
    | .rup => if s then t * d ≤ m ∧ m < (t + 1) * d else m ≤ t * d ∧ t * d < m + d

/-- t × 2^g is at most the largest finite value of the format. -/
def magnitudeLe (t : Nat) (g : Int) (F : Fmt) : Bool :=
  match fdecode F F.maxBits with
  | .fin _ m e => decide (t * 2 ^ (g - min g e).toNat ≤ m * 2 ^ (e - min g e).toNat)
  | _ => false

/-- An FP32 word that is a NaN (R181). -/
def isNan (x : Word) : Bool := decide (0x7F800000 < x.toNat % 2 ^ 31)

/-- The place of a word that is no NaN in the order of FP32 values: zeros of both signs at 0. -/
def floatRank (x : Word) : Int := if x.getLsbD 31 then -((x.toNat % 2 ^ 31 : Nat) : Int) else (x.toNat % 2 ^ 31 : Nat)

/-- a < b and a = b of two FP32 values; false of a NaN (R285). -/
def floatLt (x y : Word) : Bool := !isNan x && !isNan y && decide (floatRank x < floatRank y)
def floatEq (x y : Word) : Bool := !isNan x && !isNan y && decide (floatRank x = floatRank y)

/-- The word is (−1)^s × 2^k. -/
def isPower (x : Word) (s : Bool) (k : Int) : Prop := ∃ m e, f32 x = .fin s m e ∧ sameMagnitude m e 1 k

/-- The word's value is the integer n. -/
def isInteger (x : Word) (n : Int) : Prop := ∃ s m e, f32 x = .fin s m e ∧ scaled s m e (min e 0) = n * 2 ^ (-(min e 0)).toNat

/-- The rounding mode that FCVT's B field names (R183). -/
def modeOf (c : BitVec 3) : RMode :=
  if c.toNat % 4 = 0 then .rne else if c.toNat % 4 = 1 then .rtz else if c.toNat % 4 = 2 then .rdn else .rup

/-- The register after field `n` in lane l: the high half of a pair. -/
def wordAfter (s : State) (l : Nat) (n : RegNo) : Word := readReg s (groupOf s) l (n.toNat + 1)

/-- One round of Philox (R352): the words x0 to x3 under the keys k0 and k1. -/
def philoxRound (x : Word × Word × Word × Word) (k0 k1 : Word) : Word × Word × Word × Word :=
  (BitVec.ofNat 32 (0xCD9E8D57 * x.2.2.1.toNat / 2 ^ 32) ^^^ x.2.1 ^^^ k0, 0xCD9E8D57 * x.2.2.1,
   BitVec.ofNat 32 (0xD2511F53 * x.1.toNat / 2 ^ 32) ^^^ x.2.2.2 ^^^ k1, 0xD2511F53 * x.1)

/-- Philox-4x32-10 of the key k0, k1 with the counter (c0, c1, 0, 0) (R352): round n uses the keys n steps on. -/
def philox10 (k0 k1 c0 c1 : Word) : List Word :=
  let x := (List.range 10).foldl
    (fun x n => philoxRound x (k0 + BitVec.ofNat 32 (n * 0x9E3779B9)) (k1 + BitVec.ofNat 32 (n * 0xBB67AE85))) (c0, c1, 0, 0)
  [x.1, x.2.1, x.2.2.1, x.2.2.2]

/-! ## Across a troupe (R290 to R296) -/

/-- A sum over lanes. -/
def sumOf (ls : List Nat) (f : Nat → Nat) : Nat := (ls.map f).sum

/-- The sum of 2^n neighbouring values from `base`, as a tree of FADD whose halves are summed first (R295). -/
def treeOf (x : Nat → Word) : Nat → Nat → Word
  | 0, base => x base
  | n + 1, base => BitVec.ofNat 32 (cvt fp32 .rne false (fadd (f32 (treeOf x n base)) (f32 (treeOf x n (base + 2 ^ n)))))

/-- What register field `n` of lane j shows to another lane (R291): 0 where no thread is live; else the last deferred result issued for it,
once known, or the register. None while a ticket is still to supply it, or a k or c register still to be written. -/
def seen (s : State) (n : RegNo) (j : Nat) : Option Word :=
  match tfind s.threads ((groupOf s).tk j) with
  | none => some 0
  | some t =>
    match (t.pend.filter (fun p => p.ws.any (fun w => destOf t n.toNat == some w.1))).getLast? with
    | none => some (reg s j n)
    | some p => if p.waits.isSome ∨ 112 ≤ n.toNat then none else (p.ws.find? (fun w => destOf t n.toNat == some w.1)).map (·.2)

/-- Element-plane words of two blocks (R290). -/
def planeWords (f : BitVec 2) : Nat := if f.toNat = 0 then 3 else if f.toNat = 1 then 5 else 8

/-- A DX block (R187): its exponent, the micro bit of each pair, and the sign and magnitude of each element. -/
structure Block where
  exp : Nat
  micro : Nat → Nat
  neg : Nat → Bool
  mag : Nat → Nat

/-- Mmax (R187). -/
def magMax (f : Nat) : Nat := if f = 0 then 3 else if f = 1 then 15 else 127

/-- Element bits (R187). -/
def elemBits (f : Nat) : Nat := if f = 0 then 3 else if f = 1 then 5 else 8

/-- |v| ≤ M × 2^k; a NaN counts as +0 (R190). -/
def within (v : FVal) (M : Nat) (k : Int) : Bool :=
  match v with
  | .nan => true
  | .inf _ => false
  | .fin _ m e => decide (m * 2 ^ (e - min e k).toNat ≤ M * 2 ^ (k - min e k).toNat)

/-- The value is not zero. -/
def nonzero : FVal → Prop
  | .nan => False
  | .inf _ => True
  | .fin _ m _ => m ≠ 0

/-- R190: the block that 16 values form. -/
structure Quantises (f : Nat) (v : Nat → FVal) (b : Block) : Prop where
  /-- X is 0 where every value is zero. -/
  allZero : (∀ j, j < 16 → ¬ nonzero (v j)) → b.exp = 0
  /-- Else X is the least x from 0 to 255 that holds every magnitude, and 255 if none does. -/
  holds : b.exp ≤ 255 ∧ (b.exp = 255 ∨ ∀ j, j < 16 → within (v j) (magMax f) (b.exp - 127))
  least : ∀ x, x < b.exp → ∃ j, j < 16 ∧ ¬ within (v j) (magMax f) ((x : Int) - 127)
  /-- m_i says that both magnitudes of the pair fit half the range. -/
  micro : ∀ i, i < 8 → b.micro i < 2
    ∧ (b.micro i = 1 ↔ within (v (2 * i)) (magMax f) (b.exp - 128) ∧ within (v (2 * i + 1)) (magMax f) (b.exp - 128))
  /-- t_j is the magnitude over the step, rounded to nearest even, at most Mmax; s_j the value's sign where t_j is not 0. -/
  elements : ∀ j, j < 16 → match v j with
    | .nan => b.mag j = 0 ∧ b.neg j = false
    | .inf s => b.mag j = magMax f ∧ b.neg j = s
    | .fin s m e => (∃ t, roundsTo .rne false m (e - ((b.exp : Int) - 127 - b.micro (j / 2))) t ∧ b.mag j = min t (magMax f))
        ∧ b.neg j = (s && b.mag j != 0)

/-- The block's element plane as one number (R188). -/
def planeOf (f : Nat) (b : Block) : Nat :=
  sumOf (List.range 16) (fun j => (b.mag j + (if b.neg j then 2 ^ (elemBits f - 1) else 0)) * 2 ^ (elemBits f * j))

/-- The block's micro byte (R188). -/
def microByte (b : Block) : Nat := sumOf (List.range 8) (fun i => b.micro i * 2 ^ i)

/-- R191: the FP32 word of the element with this code, exponent and micro bit: its value where that is below 2^128, else an infinity. -/
def Dequantises (f code x mic : Nat) (w : Word) : Prop :=
  let t := code % 2 ^ (elemBits f - 1); let s := decide (2 ^ (elemBits f - 1) ≤ code); let k : Int := (x : Int) - 127 - mic
  if t = 0 then w = 0
  else if within (.fin false t k) 1 128 ∧ ¬ within (.fin false 1 128) t k then ∃ m e, f32 w = .fin s m e ∧ sameMagnitude m e t k
  else w = if s then 0xFF800000 else 0x7F800000

/-! ## Memory accesses of a troupe -/

/-- A width code's size in bytes (R252). -/
def accessBytes (w : BitVec 3) : Nat := if w.toNat ≤ 1 then 1 else if w.toNat ≤ 3 then 2 else if w.toNat = 4 then 4 else if w.toNat = 5 then 8 else 16

/-- Little-endian value of `n` bytes (R2). -/
def littleEndian (n : Nat) (b : Nat → Byte) : Nat := sumOf (List.range n) (fun j => (b j).toNat * 2 ^ (8 * j))

/-- What a load of width w writes from its bytes (R299). -/
def loadedWords (w : BitVec 3) (d : RegNo) (b : Nat → Byte) : List (Nat × Word) :=
  if w.toNat = 0 then [(d.toNat, (b 0).signExtend 32)]
  else if w.toNat = 2 then [(d.toNat, (b 1 ++ b 0).signExtend 32)]
  else (List.range (if w.toNat ≤ 4 then 1 else if w.toNat = 5 then 2 else 4)).map
    (fun k => (d.toNat + k, BitVec.ofNat 32 (littleEndian (accessBytes w) b / 2 ^ (32 * k))))

/-- Byte j of what a store of lane l moves (R299). -/
def storedByte (s : State) (l : Nat) (d : RegNo) (j : Nat) : Byte := (readReg s (groupOf s) l (d.toNat + j / 4)).extractLsb' (8 * (j % 4)) 8

/-- The scratch offset of LDS and STS (R301). -/
def scratchOffset (s : State) (l : Nat) (a : RegNo) (w : BitVec 3) (o : BitVec 6) : Nat :=
  (reg s l a + BitVec.ofInt 32 (o.toInt * accessBytes w)).toNat

/-- The address of LDG and STG (R298). -/
def globalAddress (s : State) (l : Nat) (a : RegNo) (w : BitVec 3) (o : BitVec 6) : Nat :=
  (pair s l a + BitVec.ofInt 64 (o.toInt * accessBytes w)).toNat

/-- The offset of LDP and STP (R302, R150). -/
def segmentOffset (s : State) (l : Nat) (a : RegNo) (w : BitVec 3) (o : BitVec 6) : Int := (reg s l a).toInt + o.toInt * accessBytes w

/-- `n` bytes at scratch offset p lie in the class's allocation, on lines that are present (R149). -/
def inScratch (s : State) (p n : Nat) : Prop :=
  p < 2 ^ 31 ∧ p + n ≤ (launchOf s (groupOf s).ck).scratch ∧ ∀ j, j < n → absentAt s (groupOf s).ck ((p + j) / 128) = 0

/-- `n` bytes at offset p of the register aperture name whole registers of the class's positions (R135). -/
def apertureRegs (s : State) (p n : Nat) : Prop :=
  2 ^ 31 ≤ p ∧ p % 4 = 0 ∧ 4 ≤ n ∧ ∀ k, k < n / 4 →
    ((p - 2 ^ 31) / 4 + k) / 32 % 1024 < (launchOf s (groupOf s).ck).regs
      ∧ (((p - 2 ^ 31) / 4 + k) / 32768 ∈ (clsAt s (groupOf s).ck).troupePos ∨ ((p - 2 ^ 31) / 4 + k) / 32768 ∈ (clsAt s (groupOf s).ck).spawnPos)

/-- The register that word q of the aperture is: position, allocation register and lane (R135). -/
def apertureReg (s : State) (q : Nat) : Nat := regKey (groupOf s).ck (q / 32768) (q / 32 % 1024) (q % 32)

/-- Nothing but scratch and threads has changed, and the instruction has issued. -/
def OnlyScratch (s t : State) : Prop := t = { s with scratch := t.scratch, badScratch := t.badScratch, threads := t.threads, issue := none, issueSeq := s.issueSeq + 1 }

/-- The lanes of an instruction in ascending order, each acting on what the one before it left (R162, R308): the state and their answers. -/
def inOrder {α : Type} (f : State → Nat → State × α) : State → List Nat → State × List (Nat × α)
  | s, [] => (s, [])
  | s, l :: r => ((inOrder f (f s l).1 r).1, (l, (f s l).2) :: (inOrder f (f s l).1 r).2)

/-- The answer of lane l. -/
def answerOf (q : List (Nat × Access)) (l : Nat) : Access := ((q.find? (fun x => x.1 == l)).map (·.2)).getD .stored

/-- What the accesses of a troupe's lanes leave, `q` being what they did in order: a load's lane holds its deferred result, a store's lane
goes on, a lane that traps is in its handler and one that must wait does (R297). -/
def Accessed (i : Instr) (s t : State) (ws : List Byte → List (Nat × Word)) (q : State × List (Nat × Access)) : Prop :=
  t = { q.1 with threads := t.threads }
    ∧ (∀ l ∈ lanes s, match answerOf q.2 l with
        | .loaded _ => tfind t.threads ((groupOf s).tk l) = some (completed i.marker (next s) (recorded i s l)
            (holding (s.issueSeq + 1) (deferredOf s (fun k => match answerOf q.2 k with | .loaded b => ws b | _ => []) l) (lane s l)))
        | .stored => tfind t.threads ((groupOf s).tk l) = some (completed i.marker (next s) (recorded i s l) (lane s l))
        | .trap c v => tfind t.threads ((groupOf s).tk l) = some (inTrap s c v (lane s l))
        | .park p => Waits p (lane s l) (after s t l)
        | .full _ => True)
    ∧ ∀ k, (∀ l ∈ lanes s, k ≠ (groupOf s).tk l) → tfind t.threads k = tfind s.threads k

/-- No lane has a region open, every lane that traps is served by the handler, and no k register is written unless every lane loads. -/
def plainAccess (s : State) (kdest : Bool) (q : State × List (Nat × Access)) : Prop :=
  ∀ l ∈ lanes s, (lane s l).region = none
    ∧ (∀ c v, answerOf q.2 l = .trap c v → handlerServes s l = true)
    ∧ (kdest = true → ∃ bs, answerOf q.2 l = .loaded bs)
    ∧ ∀ k, answerOf q.2 l ≠ .full k

/-- A register field that names a k register. -/
def isK (d : RegNo) : Bool := decide (112 ≤ d.toNat) && decide (d.toNat < 120)

/-- One lane of LDG or STG (R298): bits 63:48, the scratch aperture, then the context's pages. -/
def globalStep (s : State) (hint : Bool) (va n : Nat) (op : AccessOp) (s' : State) : State × Access :=
  if 2 ^ 48 ≤ va then (s', .trap .access (BitVec.ofNat 64 va))
  else if 0xFE0000000000 ≤ va ∧ va < 0xFE0000000000 + 2 ^ 32 then offsetAccess s' (groupOf s).ck (va - 0xFE0000000000) n op
  else globalAccess s' (groupOf s).ck va n hint op

/-- A TLB entry that serves an access of the executing class without a walk (R92, R94, R96): it maps the page in the class's context, permits
the kind, is not REMOTE unless `fab` exempts it, and for a write has D set and WP clear. -/
def serves (fab : Bool) (s : State) (va : Nat) (kind : Kind) (t : TlbEntry) : Bool :=
  t.ctx == (clsAt s (groupOf s).ck).ctx && decide (t.page ≤ va / 4096) && decide (va / 4096 < t.page + t.pages)
    && (match kind with
        | .read => t.leaf.getLsbD 1
        | .write => t.leaf.getLsbD 2 && t.leaf.getLsbD 5 && !t.leaf.getLsbD 9
        | .exec => t.leaf.getLsbD 3)
    && (fab || t.leaf.extractLsb' 7 2 != 3)

/-- The place that an entry gives an address (R87, R88): memory class, placement, bias and physical address. -/
def placed (t : TlbEntry) (va : Nat) : Place :=
  ⟨t.leaf.extractLsb' 7 2 == 2, (t.leaf.extractLsb' 7 2).toNat, (t.leaf.extractLsb' 52 4).toNat, t.leaf.getLsbD 11,
    (t.leaf.extractLsb' 12 40).toNat * 4096 + va % (4096 * t.pages)⟩

/-- The executing core translates `n` bytes at `va`, within one line of global space, to the place `pl` from its TLB, and no link that it needs
is down (R24, R85, R86, R96). -/
def ReachesBy (fab : Bool) (s : State) (va n : Nat) (kind : Kind) (pl : Place) : Prop :=
  va < 2 ^ 48 ∧ ¬ (0xFE0000000000 ≤ va ∧ va < 0xFE0000000000 + 2 ^ 32) ∧ 0 < n ∧ va % 128 + n ≤ 128
    ∧ (∃ t, (tget [] s.coreTlb (coreOf s (groupOf s).ck)).find? (serves fab s va kind) = some t ∧ t.pages ∈ [1, 512, 262144] ∧ pl = placed t va)
    ∧ (pl.host = true ∨ pl.bias = true → s.linkUp0 = true ∧ (s.port1Used = true → s.linkUp1 = true))

/-- The same, for an access that traps on a REMOTE page (R92). -/
def Reaches (s : State) (va n : Nat) (kind : Kind) (pl : Place) : Prop := ReachesBy false s va n kind pl

/-- No byte of device or host memory is spoiled (R165). -/
def unspoiled (s : State) : Prop := s.badDev = [] ∧ s.badHost = []

/-- No store of a core to the line of a place has issued without being performed (R167, R172). -/
def settledAt (s : State) (c : Nat) (pl : Place) : Prop :=
  ∀ e ∈ s.lateStores, lineKey e.core e.pl.host (e.pl.pa / 128) ≠ lineKey c pl.host (pl.pa / 128)

/-- No copy of the line of a place but that of core c, in an L1 or in a remote-data cache. -/
def soleCopy (s : State) (c : Nat) (pl : Place) : Prop :=
  (∀ k ∈ holders s pl.host (pl.pa / 128), k = lineKey c pl.host (pl.pa / 128))
    ∧ (pl.host = false → ∀ e ∈ s.rdc, e.1 % 2 ^ 60 ≠ pl.pa / 128)

/-- Every thread that executes has no region open. -/
def noRegion (s : State) : Prop := ∀ l ∈ lanes s, (lane s l).region = none

/-- The lanes of an instruction in ascending order, each doing to the state what `f` says. -/
def eachLane (f : State → Nat → State) (s : State) : State := (lanes s).foldl f (issued s)

/-- The bytes that lane l's store moves. -/
def storedBytes (s : State) (l : Nat) (d : RegNo) (w : BitVec 3) : List Byte := (List.range (accessBytes w)).map (storedByte s l d)

/-- A load completes in every lane: `q` is what the loads did in order, and each lane's bytes are on their way to its registers, widened (R297,
R299). -/
def Loaded (i : Instr) (s t : State) (w : BitVec 3) (d : RegNo) (q : State × List (Nat × List Byte)) : Prop :=
  t = { q.1 with threads := t.threads }
    ∧ Threads s t (fun l u => completed i.marker (next s) (recorded i s l) (holding (s.issueSeq + 1)
        (deferredOf s (fun k => loadedWords w d (fun j => (((q.2.find? (fun x => x.1 == k)).map (·.2)).getD []).getD j 0)) l) u))

/-- An instruction without a result completes in every lane, having made the state `u` (R297). -/
def Stored (i : Instr) (s t u : State) : Prop :=
  t = { u with threads := t.threads } ∧ Threads s t (fun l => completed i.marker (next s) (recorded i s l))

/-- `n` bytes at offset o of a thread's segment lie in it, and are aligned up to 4 bytes (R150). -/
def inSegment (s : State) (ck : Nat) (o : Int) (n : Nat) : Prop := o % (min n 4 : Nat) = 0 ∧ 0 ≤ o ∧ o + n ≤ (launchOf s ck).ownBytes

/-- A load from a thread's segment: its words in ascending order, each at its own place (R150). -/
def segmentLoad (s : State) (ck p l b n : Nat) : State × List Byte :=
  let q := inOrder (fun s' k => loadLine s' (coreOf s ck) (ownPlace s ck p l (b + 4 * k)) none (min n 4)) s (List.range ((n + 3) / 4))
  (q.1, q.2.flatMap (·.2))

/-- A store to a thread's segment: its words in ascending order, each at its own place (R150). -/
def segmentStore (s : State) (ck p l b : Nat) (bs : List Byte) : State :=
  (List.range ((bs.length + 3) / 4)).foldl (fun s' k => storeLine s' (coreOf s ck) (ownPlace s ck p l (b + 4 * k)) false ((bs.drop (4 * k)).take 4)) s

/-- The counter of a COHERENT location's region after a request of a core (R163): a near one that takes the token from another core adds 1, up
to 3; a far one that finds no other sharer subtracts 1. -/
def counterAfter (s : State) (c : Nat) (pl : Place) : Nat :=
  let n := tget 0 s.dirPred (pl.pa / 512)
  if n ≤ 1 then (if (otherHolders s c pl.host (pl.pa / 128)).any (fun k => (tfind s.l1 k).any (·.token)) then n + 1 else n)
  else if otherHolders s c pl.host (pl.pa / 128) = [] ∧ ∀ e ∈ s.rdc, e.1 % 2 ^ 60 = pl.pa / 128 → e.1 / 2 ^ 60 = c / 64 then n - 1 else n

/-- The location after ACASVER or ACASTAG succeeds (R306): its upper 16 bits counted on, the low 48 of the new value. -/
def tagStep (v y : DWord) : DWord := BitVec.ofNat 64 ((v.toNat / 2 ^ 48 + 1) % 2 ^ 16 * 2 ^ 48 + y.toNat % 2 ^ 48)

/-- The operations of atomics on a location of w bits (R306): `v` the location, `x` the operand or the compare value, `y` the new value. -/
def atomics (w : Nat) : List (DWord → DWord → DWord → DWord) :=
  let sg (z : DWord) : Int := (z.setWidth w).toInt
  let un (z : DWord) : Nat := z.toNat % 2 ^ w
  [fun v x _ => BitVec.ofNat 64 (v.toNat + x.toNat), fun v x _ => v &&& x, fun v x _ => v ||| x, fun v x _ => v ^^^ x,
   fun v x _ => if sg v ≤ sg x then v else x, fun v x _ => if sg x ≤ sg v then v else x,
   fun v x _ => if un v ≤ un x then v else x, fun v x _ => if un x ≤ un v then v else x, fun _ x _ => x,
   fun v x y => if un v = un x then y else v, fun v x y => if un v = un x ∧ sg v < sg y then y else v,
   fun v x y => if un v = un x ∧ un v < un y then y else v,
   fun v x y => if v.toNat / 2 ^ 48 = x.toNat / 2 ^ 48 then tagStep v y else v, fun v x y => if v = x then tagStep v y else v]

/-- The operand and the new value of lane l's atomic (R305): one register each, or a pair each. -/
def atomArgs (s : State) (l : Nat) (wide : Bool) (b : BitVec 6) : DWord × DWord :=
  if wide then (readReg s (groupOf s) l (2 * b.toNat + 1) ++ readReg s (groupOf s) l (2 * b.toNat),
                readReg s (groupOf s) l (2 * b.toNat + 3) ++ readReg s (groupOf s) l (2 * b.toNat + 2))
  else ((readReg s (groupOf s) l (2 * b.toNat)).setWidth 64, (readReg s (groupOf s) l (2 * b.toNat + 1)).setWidth 64)

/-- The registers that receive an atomic's old value (R305): none for D pair 0. -/
def atomWrites (wide : Bool) (d : BitVec 6) (v : DWord) : List (Nat × Word) :=
  if d = 0 then [] else if wide then [(2 * d.toNat, v.extractLsb' 0 32), (2 * d.toNat + 1, v.extractLsb' 32 32)] else [(2 * d.toNat, v.extractLsb' 0 32)]

/-- The address of lane l's atomic: the pair A. -/
def atomAddr (s : State) (l : Nat) (a : BitVec 6) : Nat := (readReg s (groupOf s) l (2 * a.toNat + 1) ++ readReg s (groupOf s) l (2 * a.toNat)).toNat

/-- The answer of lane l's atomic. -/
def atomAnswer (q : List (Nat × (Access ⊕ DWord))) (l : Nat) : Access ⊕ DWord := ((q.find? (fun x => x.1 == l)).map (·.2)).getD (.inr 0)

/-- The request for a location begins with the lowest lane that names it (R162). -/
def beginsRequest (s : State) (l : Nat) (a : BitVec 6) : Bool := (lanes s).find? (fun k => atomAddr s k a == atomAddr s l a) == some l

/-- An atomic of the troupe, its lanes in ascending order, each performed by `f` on the location as the one before left it (R308). -/
def AtomicDone (i : Instr) (s : State) (m : Bool) (f : DWord → DWord → DWord → DWord) (wide : Bool) (d a b : BitVec 6) (c : BitVec 3) : Prop :=
  let q := inOrder (fun s' l => atomicLane s' (groupOf s).ck (atomAddr s l a) c.toNat (if wide then 8 else 4)
    (beginsRequest s l a) (fun v => f v (atomArgs s l wide b).1 (atomArgs s l wide b).2)) (issued s) (lanes s)
  (∀ l ∈ lanes s, ∀ c v, atomAnswer q.2 l = .inl (.trap c v) → handlerServes s l = true) →
  (56 ≤ d.toNat → ∀ l ∈ lanes s, ∃ v, atomAnswer q.2 l = .inr v) →
  ∃ t, exec i s = .next t ∧ t = { q.1 with threads := t.threads }
    ∧ (∀ l ∈ lanes s, (lane s l).region = none → match atomAnswer q.2 l with
        | .inr _ => tfind t.threads ((groupOf s).tk l) = some (completed m (next s) none (holding (s.issueSeq + 1)
            (deferredOf s (fun k => match atomAnswer q.2 k with | .inr u => atomWrites wide d u | _ => []) l) (lane s l)))
        | .inl (.trap c v) => tfind t.threads ((groupOf s).tk l) = some (inTrap s c v (lane s l))
        | .inl (.park p) => Waits p (lane s l) (after s t l)
        | .inl _ => True)
    ∧ ∀ k, (∀ l ∈ lanes s, k ≠ (groupOf s).tk l) → tfind t.threads k = tfind s.threads k

/-- The function that lane l's atomic applies to its location. -/
def atomStep (s : State) (f : DWord → DWord → DWord → DWord) (wide : Bool) (b : BitVec 6) (l : Nat) (v : DWord) : DWord :=
  f v (atomArgs s l wide b).1 (atomArgs s l wide b).2

/-- The atomic completes in every lane (R305, R308): the locations are what its lanes leave in ascending order, and each lane's old value is on
its way to its registers, `q` being what they did. -/
def AtomicCompletes (i : Instr) (s : State) (wide : Bool) (d : BitVec 6) (q : State × List (Nat × DWord)) : Prop :=
  ∃ t, exec i s = .next t ∧ t = { q.1 with threads := t.threads }
    ∧ Threads s t (fun l u => completed i.marker (next s) none (holding (s.issueSeq + 1)
        (deferredOf s (fun k => atomWrites wide d (((q.2.find? (fun x => x.1 == k)).map (·.2)).getD 0)) l) u))

/-- An atomic on locations of global space that the core reaches (R307). -/
def AtomicInMemory (i : Instr) (s : State) (f : DWord → DWord → DWord → DWord) (wide : Bool) (d a b : BitVec 6) (c : BitVec 3) : Prop :=
  ∀ (pl : Nat → Place), noRegion s → unspoiled s →
    (∀ l ∈ lanes s, atomAddr s l a % (if wide then 8 else 4) = 0 ∧ Reaches s (atomAddr s l a) (if wide then 8 else 4) .write (pl l)) →
    AtomicCompletes i s wide d (inOrder (fun s' l => performAtomic s' (coreOf s (groupOf s).ck) (pl l) c.toNat (if wide then 8 else 4)
      (beginsRequest s l a) (atomStep s f wide b l)) (issued s) (lanes s))

/-- One word of scratch replaced by what `f` makes of it. -/
def scratchStep (n : Nat) (s : State) (ck o : Nat) (f : DWord → DWord) : State × DWord :=
  let v : DWord := BitVec.ofNat 64 (littleEndian n (fun j => rd8 s.scratch (scratchKey ck (o + j))))
  (writeScratch s ck o ((List.range n).map (fun j => (f v).extractLsb' (8 * j) 8)), v)

/-- An atomic on locations of the class's scratch, reached through the aperture (R307). -/
def AtomicInScratch (i : Instr) (s : State) (f : DWord → DWord → DWord → DWord) (wide : Bool) (d a b : BitVec 6) : Prop :=
  noRegion s → s.badScratch = [] →
    (∀ l ∈ lanes s, atomAddr s l a % (if wide then 8 else 4) = 0 ∧ 0xFE0000000000 ≤ atomAddr s l a
      ∧ inScratch s (atomAddr s l a - 0xFE0000000000) (if wide then 8 else 4)) →
    AtomicCompletes i s wide d (inOrder (fun s' l => scratchStep (if wide then 8 else 4) s' (groupOf s).ck (atomAddr s l a - 0xFE0000000000)
      (atomStep s f wide b l)) (issued s) (lanes s))

/-! ## Fates of lanes, and synchronisation -/

/-- What a fate leaves in lane l (R124, R136, R137, R142), `ws` being the deferred results of all lanes. -/
def Left (i : Instr) (s t : State) (ws : Nat → List (Nat × Word)) (l : Nat) : LaneAct → Prop
  | .done _ pc => tfind t.threads ((groupOf s).tk l) = some (completed i.marker pc (recorded i s l) (lane s l))
  | .defer _ => tfind t.threads ((groupOf s).tk l)
      = some (completed i.marker (next s) (recorded i s l) (holding (s.issueSeq + 1) (deferredOf s ws l) (lane s l)))
  | .deferPark _ p => Waits p (holding (s.issueSeq + 1) (deferredOf s ws l) (lane s l)) (after s t l)
  | .trap c v => tfind t.threads ((groupOf s).tk l) = some (inTrap s c v (lane s l))
  | .park p => Waits p (lane s l) (after s t l)
  | _ => True

/-- The fate of lane l. -/
def fateOf (q : List (Nat × LaneAct)) (l : Nat) : LaneAct := ((q.find? (fun x => x.1 == l)).map (·.2)).getD .gone

/-- The deferred writes of a fate. -/
def laterOf : LaneAct → List (Nat × Word)
  | .defer ws => ws
  | .deferPark ws _ => ws
  | _ => []

/-- The instruction's lanes act in ascending order, each as `f` says on what the one before left; wherever the lanes that trap are served by
their handler, and every lane has a result if a k register is to receive one, it answers the next state that their fates give. -/
def Performs (i : Instr) (s : State) (kdest : Bool) (f : State → Nat → State × LaneAct) : Prop :=
  let q := inOrder f (issued s) (lanes s)
  (∀ l ∈ lanes s, (∀ c v, fateOf q.2 l = .trap c v → handlerServes s l = true) ∧ (kdest = true → laterOf (fateOf q.2 l) ≠ [])) →
  ∃ t, exec i s = .next t ∧ t = { q.1 with threads := t.threads }
    ∧ (∀ l ∈ lanes s, Left i s t (fun k => laterOf (fateOf q.2 k)) l (fateOf q.2 l))
    ∧ ∀ k, (∀ l ∈ lanes s, k ≠ (groupOf s).tk l) → tfind t.threads k = tfind s.threads k

/-- The fields GEN, NEXT, ARRIVED and COUNT of a barrier object (R310). -/
structure Barrier where
  gen : Nat
  next : Nat
  arrived : Nat
  count : Nat
  deriving DecidableEq, Repr

/-- The object at offset o of a class's scratch (R310). -/
def barrierIn (s : State) (ck o : Nat) : Barrier :=
  let v := littleEndian 8 (fun j => rd8 s.scratch (scratchKey ck (o + j)))
  ⟨v / 2 ^ 48, v / 2 ^ 33 % 2 ^ 15, v / 2 ^ 16 % 2 ^ 16, v % 2 ^ 16⟩

/-- The object's bytes: GEN, NEXT, PHASE = GEN[0], ARRIVED and COUNT (R310). -/
def barrierBytes (b : Barrier) : List Byte :=
  (List.range 8).map (fun j => BitVec.ofNat 8
    ((b.gen % 2 ^ 16 * 2 ^ 48 + b.next % 2 ^ 15 * 2 ^ 33 + b.gen % 2 * 2 ^ 32 + b.arrived % 2 ^ 16 * 2 ^ 16 + b.count % 2 ^ 16) / 2 ^ (8 * j)))

/-- The object replaced. -/
def withBarrier (s : State) (ck o : Nat) (b : Barrier) : State := writeScratch s ck o (barrierBytes b)

/-- An arrival with token t (R313): the object after it and the phase joined; none where the lane must wait. -/
def arrival (b : Barrier) (t : Word) : Option (Barrier × Nat) :=
  if t.getLsbD 16 ∧ t.toNat % 2 ^ 16 = (b.gen + 1) % 2 ^ 16 then none
  else if t.getLsbD 16 ∧ t.toNat % 2 ^ 16 = b.gen then
    (if b.next = b.count then none else some ({ b with next := b.next + 1 }, (b.gen + 1) % 2 ^ 16))
  else if b.arrived + 1 ≠ b.count then some ({ b with arrived := b.arrived + 1 }, b.gen)
  else if b.next ≠ b.count then some (⟨(b.gen + 1) % 2 ^ 16, 0, b.next, b.count⟩, b.gen)
  else some (⟨(b.gen + 2) % 2 ^ 16, 0, 0, b.count⟩, b.gen)

/-- The phase of token t has completed (R314). -/
def phasePast (b : Barrier) (t : Word) : Bool :=
  let d := (b.gen + 2 ^ 16 - t.toNat % 2 ^ 16) % 2 ^ 16
  decide (1 ≤ d) && decide (d ≤ 32767)

/-- The class whose scratch holds a barrier object (R311): the issuing class's own for .core; for .cluster that of the gang's member at
cluster coordinate 0. -/
def barrierClass (s : State) (cluster : Bool) : Nat := if cluster then barOwner s (groupOf s).ck 3 else (groupOf s).ck

/-- The object of lane l is in place (R310, R312): aligned, in the allocation, on a line that is present, with a slot, and with a COUNT that
BARINIT gives. -/
def barrierStands (s : State) (ck o : Nat) : Prop :=
  o % 8 = 0 ∧ o + 8 ≤ (launchOf s ck).scratch ∧ absentAt s ck (o / 128) = 0 ∧ o ∈ (clsAt s ck).barSlots
    ∧ 1 ≤ (barrierIn s ck o).count ∧ (barrierIn s ck o).count ≤ 32767

/-- The object, if it is not in place: what traps (R310, R312). -/
def barrierTrap (s : State) (i : Instr) (ck o : Nat) : Option (Cause × DWord) :=
  if o % 8 ≠ 0 then some (.align, BitVec.ofNat 64 o)
  else if (launchOf s ck).scratch < o + 8 then some (.scratchLimit, BitVec.ofNat 64 o)
  else if absentAt s ck (o / 128) = 0 ∧ o ∉ (clsAt s ck).barSlots then some (.illegal, BitVec.ofNat 64 (encode i))
  else none

/-- The token of phase j (R313). -/
def tokenFor (j : Nat) : Word := BitVec.ofNat 32 (2 ^ 16 + j % 2 ^ 16)

/-- The largest number below which no operation of the timeline is open (R176). -/
def visibleCount (t : Timeline) : Nat := match t.ops with | [] => t.issued | n :: r => r.foldl min n - 1

/-- The handles that note queue n of class ck holds, oldest first (R318, R319). -/
def handlesIn (s : State) (ck n : Nat) : List Word :=
  if (noteDecl s ck n).scope = 0 then
    let b := noteBase s ck n
    (List.range (noteCount s ck n)).map (fun i => BitVec.ofNat 32 (littleEndian 4 (fun j => rd8 s.scratch (scratchKey ck
      (b + 128 + 4 * ((littleEndian 4 (fun j => rd8 s.scratch (scratchKey ck (b + j))) + i) % 2 ^ 32 % (noteDecl s ck n).cap) + j)))))
  else (tget NoteQueue.blank s.noteQueues (noteKey s ck n (noteDecl s ck n))).handles

/-- The counters of a class queue stay apart from their wrap, or wrap at a slot 0 (R319). -/
def ringTurns (s : State) (ck n k : Nat) : Prop :=
  (noteDecl s ck n).scope ≠ 0 ∨ 2 ^ 32 % (noteDecl s ck n).cap = 0
    ∨ littleEndian 4 (fun j => rd8 s.scratch (scratchKey ck (noteBase s ck n + j))) + noteCount s ck n + k < 2 ^ 32

/-- The value of an aborted or committed region's checkpoint for allocation register a (R212). -/
def checkpointed (r : Region) (a : Nat) : Word := (((r.ckRegs.filter (fun e => e.1 == a)).getLast?).map (·.2)).getD 0

/-- A region that has just opened (R212). -/
def openedRegion (s : State) (l : Nat) (d : RegNo) (fallback : DWord) : Region :=
  ⟨d, fallback, threadRegs s ((groupOf s).tk l), (lane s l).wb, false, [], [], [], [], []⟩

/-- A recorded constraint holds under fresh inputs (R216, R220): its relation of its operands at its width, each tagged one the input's fresh value and its
constant, has the outcome that the region saw. -/
def keeps (fresh : List DWord) (c : Constraint) : Prop :=
  let v (x : Operand) : DWord := match x with | .tagged t => fresh.getD t.k 0 + t.c | .plain v => v
  let n := if c.wide then 64 else 32
  let a := (v c.x).setWidth n; let b := (v c.y).setWidth n
  let relation : Prop := match c.rel with
    | .eq => a = b
    | .ne => a ≠ b
    | .lt => a.toInt < b.toInt
    | .ge => b.toInt ≤ a.toInt
    | .le => a.toInt ≤ b.toInt
    | .ltn => a.toNat < b.toNat
    | .gen => b.toNat ≤ a.toNat
    | .len => a.toNat ≤ b.toNat
  c.holds = true ↔ relation

/-- A thread whose region has aborted (R221). -/
def abandoned (r : Region) (t : Thread) : Thread :=
  { t with region := none, wb := r.ckWb, out := 0, pend := [], markWait := false, park := none, parkSeq := 0, pc := r.fallback }

/-! ## Events -/

/-- An event: a constructor that has no word (spec/95). -/
def event : Instr → Bool
  | .snapshotQuiesce _ | .classPlace _ | .steal _ | .classEnd _ | .preempt _ | .residentKill _ | .fifoFeedFault _ | .fetchwAnswer _
  | .tickBoundary _ | .binTimerExpire _ | .binLaunch _ | .issueSelect _ _ | .threadStarved _ | .laneWake _ | .pageWalk _ _ _ _
  | .translationFaultResolve _ | .phaseSweep _ | .monitorFire _ | .signalDelivery _ | .copyRequestStart _ | .copyComplete _
  | .matrixStep _ _ | .ticketedSlateAct _ _ | .illegalWord _ | .deferredResultWrite _ _ | .fabricOpSend _ | .fabricOpSettle _ _ _
  | .pbenSet | .pbenClear | .doeAbort | .doeDiscovery | .spdmDoeRequest | .telemetryRead | .i3cReset | .powerOn | .perst | .cxlReset
  | .functionLevelReset | .port1Reset | .holdEnd | .powerFault | .thermalTrip | .clockThrottle | .clockRestore | .freeze
  | .freezeRelease | .scanShift | .backstopSweep | .passStep | .deviceNumberConflict | .dvsecRegisterWrite _ _ _ | .mbwrWrite _
  | .mbrdWrite _ | .spdmMctpRequest _ | .linkDown _ | .linkRetrain _ | .bisnpTimeout _ _ | .playbillWriteSnoop _ _
  | .queueTailWrite _ | .hostMemRead _ _ | .hostMemWrite _ _ | .hostSnoop _ _ | .fabricOpArrival _ _ _ _ _ _
  | .fabricPathTimeout _ | .gratricPortFail _ | .flitResend _ | .uncorrectableError _ _ _ | .correctedError _ | .gratricPortTrain _ => true
  | _ => false

/-- The clocks run and nothing holds the module (R15, R17, R18). -/
def runs (s : State) : Prop := s.frozen = false ∧ s.hold = none

/-- The state after a module reset with hold h (R20): every part in its reset state but the configuration image, read again, and what is not
the module's own working state (log 18, DESIGN CHOICE); retirements last until a new image, whose assignment of cores is then read (R10, R11,
R81). Port 0's link trains unless the module stands frozen or held (R18; log 53, DEDUCED). -/
def AfterReset (s t : State) (h : Option Hold) : Prop :=
  t = { State.reset with
    cfg := s.cfgFlash, cfgFlash := s.cfgFlash, hdmBase := s.hdmBase, hmem := s.hmem, badHost := s.badHost, freezePin := s.freezePin,
    frozen := s.freezePin, hold := h, linkUp0 := h.isNone && !s.freezePin,
    i3c := s.i3c ++ (if s.cfgFlash.verifies then [] else [.imageFailed]),
    coreMap := if s.newImage then s.cfgFlash.coreMap else s.coreMap, retiredCores := if s.newImage then [] else s.retiredCores,
    vacant := if s.newImage then [] else s.vacant.filter (fun c => s.retiredCores.contains (68 * (c / 64) + physOf s c)), retiredChannels := if s.newImage then [] else s.retiredChannels,
    hostOut := s.hostOut, irqs := s.irqs, free := s.free, agenda := s.agenda }

/-- The hold that the image's check leaves (R82). -/
def imageHold (s : State) : Option Hold := if s.cfgFlash.verifies then none else some .image

/-- Links and ports seen to fail. -/
def unlinked (s : State) : State := { s with linkUp0 := false, linkUp1 := false, ports := [] }

/-- A playbill range that may be latched (R28): 2 to 2^20 records, wholly in host memory or wholly in the exported part. -/
def latchable (s : State) (b n : Nat) : Prop :=
  2 ≤ n ∧ n ≤ 2 ^ 20 ∧ ((b + 128 * n ≤ 2 ^ 52 ∧ (b + 128 * n ≤ s.hdmBase ∨ s.hdmBase + s.cfg.hdmSize ≤ b))
    ∨ (s.hdmBase ≤ b ∧ b + 128 * n ≤ s.hdmBase + s.cfg.hdmSize))

/-- Stores to host memory and to host-biased pages that have issued, performed (R24; log 59, DEDUCED). -/
def linkSettled (s : State) : State := settleStores s (fun e => e.pl.host || e.pl.bias)

/-- A number's `n` bytes, the least significant first. -/
def numberBytes (n v : Nat) : List Byte := (List.range n).map (fun j => BitVec.ofNat 8 (v / 2 ^ (8 * j)))

/-- The playbill let go (R24, R28): the converged state, and everything else, stays. -/
def Unlatched (s t : State) (err : Bool) : Prop :=
  t = { s with playbill := none, fullRead := false, flags := [], watch := [], dvsec := { s.dvsec with pben := false, pblive := false, pberr := err } }

/-- A line of 64 bytes of the playbill that a write of `n` bytes at host physical address a touches (R59). -/
def touches (s : State) (a n x : Nat) : Prop :=
  ∃ b k, s.playbill = some (b, k) ∧ x < 2 * k ∧ 0 < n ∧ a < b + 64 * (x + 1) ∧ b + 64 * x < a + n

/-- The playbill in force lies in device memory. -/
def playbillInDevice (s : State) : Prop := ∃ b k, s.playbill = some (b, k) ∧ s.hdmBase ≤ b ∧ b < s.hdmBase + s.cfg.hdmSize

/-- What a write does to the records that are watched (R59, R325): those of the lines it touches in device memory, or that a filter holds in host
memory, are flagged and the pass leader wakes; a filter then holds no line that was touched. -/
def Watched (s t : State) (a n : Nat) : Prop :=
  (∀ x, touches s a n x → playbillInDevice s ∨ x ∈ tget [] s.watch (x % 8) → x / 2 ∈ t.flags ∧ t.wake = true)
    ∧ (¬ playbillInDevice s → (∀ x, touches s a n x → x ∉ tget [] s.watch (x % 8)) → t.flags = s.flags ∧ t.wake = s.wake)
    ∧ (¬ playbillInDevice s → ∀ x, touches s a n x → x ∉ tget [] t.watch (x % 8))

/-- A core holds byte x of device memory dirty, and has it as `b`. -/
def dirtyAs (s : State) (x : Nat) (b : Byte) : Prop :=
  ∃ k ∈ holders s false (x / 128), ∃ ln, tfind s.l1 k = some ln ∧ ln.dirty.getD (x % 128) false = true ∧ b = ln.bytes.getD (x % 128) 0

/-- What the host reads of byte x of exported memory (R25, R158): of a COHERENT page what a core that has it dirty holds, else what its home has. -/
def hostReads (s : State) (x : Nat) (b : Byte) : Prop :=
  if pageClass s (x / 4096) = 0 then b = rd8 s.dmem x else dirtyAs s x b ∨ ((∀ c, ¬ dirtyAs s x c) ∧ b = rd8 s.dmem x)

/-- No byte of device memory is dirty in two cores. -/
def dirtyOnce (s : State) : Prop := ∀ x b c, dirtyAs s x b → dirtyAs s x c → b = c

/-- x / 2^n to the nearest integer, a tie to the even one. -/
def nearestEven (x : Int) (n : Nat) : Int :=
  let q := x / 2 ^ n; let f := x % 2 ^ n
  if 2 * f < 2 ^ n ∨ (2 * f = 2 ^ n ∧ q % 2 = 0) then q else q + 1

/-- The bits that a row and products of top g need of a mantissa at the row's exponent (R201). -/
def bitsNeeded (g : Int) (r : Row) : Int := max ((r.m.foldl (fun (n : Nat) m => max n (blen m.toInt.natAbs)) 0 : Nat) : Int) (g - r.e) + 5

/-- The renormalisations by which a row makes room for products of top g (R201): the row after them and each one's S and E, in order; the row's O is set
where E would pass 32,767. -/
inductive MakesRoom (g : Int) : Row → List (Int × Int) → Row → Prop
  | room (r : Row) : bitsNeeded g r ≤ 47 → MakesRoom g r [] r
  | overflow (r : Row) (n : Nat) : 47 < bitsNeeded g r → (n : Int) = (bitsNeeded g r - 47 + 7) / 8 → 32767 < r.e + 8 * n →
      MakesRoom g r [] { r with o := true, e := 32767 }
  | shift (r r' : Row) (n : Nat) (ev : List (Int × Int)) : 47 < bitsNeeded g r → (n : Int) = (bitsNeeded g r - 47 + 7) / 8 → r.e + 8 * n ≤ 32767 →
      MakesRoom g { r with m := r.m.map (fun m => BitVec.ofInt 48 (nearestEven m.toInt (8 * n))), e := r.e + 8 * n } ev r' →
      MakesRoom g r ((8 * (n : Int), r.e + 8 * n) :: ev) r'

/-- g is the top of some products: the largest of e + blen(|q|) (R201). -/
def isTop (g : Int) (ps : Products) : Prop := (∃ p ∈ ps, g = p.2.2 + blen p.2.1.natAbs) ∧ ∀ p ∈ ps, p.2.2 + blen p.2.1.natAbs ≤ g

/-- floor(q × 2^k). -/
def floorOf (q k : Int) : Int := if 0 ≤ k then q * 2 ^ k.toNat else q / 2 ^ (-k).toNat

/-- What SLRD returns of element j of a row (R205). -/
def elementRead (r : Row) (conv j : Nat) : Word :=
  let m := r.m.getD j 0
  let float (F : Fmt) : Nat :=
    if r.n then F.nan
    else if r.o then (if m = 0 then 0 else cvt F .rne false (.inf (m.toInt < 0)))
    else if r.z then 0
    else cvt F .rne false (.fin (m.toInt < 0) m.toInt.natAbs r.e)
  match conv with
  | 0 => BitVec.ofNat 32 (float fp32)
  | 1 => BitVec.ofNat 32 (float bf16)
  | 2 => m.extractLsb' 0 32
  | _ => (m.extractLsb' 32 16).signExtend 32

/-- The digits of a mixed-radix number, fastest first. -/
def radixDigits : List Nat → Nat → List Nat
  | [], _ => []
  | e :: r, i => i % e :: radixDigits r (i / e)

/-- The coordinates of class i at the levels of class domain and wider, outermost first, in six words (R103, R113): the digits of i, those of the
die, the cluster and the class first, and then those of the device levels, innermost first. -/
def mailWords (l : Launch) (i : Nat) : List Nat :=
  let domain (n : Nat) : Nat := (l.levels.getD n ⟨0, 0, 0⟩).domain
  let at_ (d : Nat) : List Nat := (List.range l.levels.length).filter (fun n => domain n == d)
  let order := at_ 4 ++ at_ 3 ++ at_ 2 ++ (at_ 5).reverse
  let digits := radixDigits (order.map (fun n => (l.levels.getD n ⟨0, 0, 0⟩).extent)) i
  (((List.range l.levels.length).filter (fun n => 2 ≤ domain n)).map (fun n => digits.getD (order.idxOf n) 0) ++ List.replicate 6 0).take 6

/-- Every class of a context can stop now, and no request or fabric operation of it is under way but those that feed a FIFO (R77, R119). -/
def QuiescesNow (s : State) (ctx : Nat) : Prop :=
  ∀ ck c, (ck, c) ∈ s.classes → c.ctx = ctx →
    (c.placed = true → (∀ tk u, (tk, u) ∈ s.threads → ckOfT tk = ck → u.pend = [])
      ∧ (∀ i r, (i, r) ∈ s.reqs → r.ck = ck → r.completed = false → linesOf r.blk r.lrFirst r.lrLast = []) ∧ ∀ g, s.issue = some g → g.ck ≠ ck)
    ∧ (∀ i r, (i, r) ∈ s.reqs → r.ck = ck → r.blk.dest ≠ 2 → r.completed = true) ∧ ∀ i x, (i, x) ∈ s.fabOps → x.ck ≠ ck

/-- Nothing but threads has changed. -/
def ThreadsOnly (s t : State) : Prop := t = { s with threads := t.threads }

/-- One thread has become `u`, and no other has changed. -/
def ThreadIs (s t : State) (k : Nat) (u : Thread) : Prop :=
  tfind t.threads k = some u ∧ ∀ j, j ≠ k → tfind t.threads j = tfind s.threads j

/-- A lane of the troupe at key k could issue. -/
def ReadyLane (s : State) (k l : Nat) : Prop := l < 32 ∧ ∃ u, tfind s.threads (k * 32 + l) = some u ∧ ready u = true ∧ deliverable u = false

/-- The troupe at key k could issue in this section: its class may issue on the core, and a lane is ready. -/
def MayIssue (s : State) (core sec k : Nat) : Prop :=
  (∃ t, (k, t) ∈ s.troupes) ∧ issuing s (k / 64) = true ∧ coreOf s (k / 64) = core ∧ k % 4 = sec ∧ ∃ l, ReadyLane s k l

/-- A ready lane that is starved: it has been ready for 256 cycles (R125). -/
def Starved (s : State) (core k l : Nat) : Prop :=
  ReadyLane s k l ∧ ∃ u, tfind s.threads (k * 32 + l) = some u ∧ (u.starved = true ∨ u.readySince + 256 ≤ coreCycle s core)

/-- The troupe at key j is older than that at k (R125). -/
def older (s : State) (j k : Nat) : Prop :=
  let a := tget Troupe.blank s.troupes j; let b := tget Troupe.blank s.troupes k
  (clsAt s (j / 64)).seq < (clsAt s (k / 64)).seq
    ∨ ((clsAt s (j / 64)).seq = (clsAt s (k / 64)).seq ∧ ((a.spawned = false ∧ b.spawned = true) ∨ (a.spawned = b.spawned ∧ a.order < b.order)))

/-- The cycle of the core that a thread's class is on. -/
def cycleOf (s : State) (tk : Nat) : Nat := coreCycle s (coreOf s (ckOfT tk))

/-- No lane below waits at the marker of an execution of the instruction that this lane waits in: the lower one is served first (R137, R279, R320). -/
def noneMarkedBelow (s : State) (tk : Nat) (t : Thread) : Prop :=
  ∀ l, l < laneOfT tk → ∀ u, tfind s.threads (tkey (ckOfT tk) (posOfT tk) l) = some u → u.markWait = true → u.parkSeq ≠ 0 → u.parkSeq ≠ t.parkSeq

/-- What ends the wait of a parked lane, by R124's table, for the waits that are over whenever the condition holds. The rest end by an event of
their own: a trap's entry, JWAIT, a monitor, TICKWAIT and the wait part of a barrier. -/
def WaitOver (s : State) (tk : Nat) (t : Thread) : Prop :=
  let ck := ckOfT tk; let core := coreOf s ck
  match t.park with
  | some .results => t.pend = []
  | some (.fence acq) => ∀ d ∈ t.pend, writesC d = false ∧ (acq = true → d.waits.isSome = true)
  | some (.translation va k) => let w := peekWalk s (clsAt s ck).ctx va.toNat k; w ≠ .miss ∧ w ≠ .migrating
  | some (.absent owner ln) => absentAt s owner ln = 0
  | some (.timeline n v) => v.toNat ≤ visibleCount (timelineAt s ck n)
  | some (.arrival owner o g) => (barrierIn s owner o).gen ≠ g
  | some (.notePush n) => noteCount s ck n < (noteDecl s ck n).cap ∧ earlierWaiter s ck n t.parkSeq true = false ∧ noneMarkedBelow s tk t
  | some (.notePop n) => noteCount s ck n ≠ 0 ∧ earlierWaiter s ck n t.parkSeq false = false
      ∧ sweepOwed s core (noteScope (noteDecl s ck n)) = false ∧ noneMarkedBelow s tk t
  | some (.queue q) => ∃ cb, tfind s.cbs q = some cb ∧ cb.armed = true ∧ cb.held = false
  | some .spawn => noneMarkedBelow s tk t
  | some (.wincnt w sel v) => ∀ x c, openWindow s (clsAt s ck).ctx w = some x → counterOf x sel = some c → v.toNat ≤ c
  | some .loops => (matrixAt s core).loops.length < 4
  | some .engine => queueLen s core < 64 ∧ noneMarkedBelow s tk t
  | some (.fifoFull f) => retainedFor s ck f < 4 ∧ noneMarkedBelow s tk t
  | some .regions => regionsOpen s core < 64
  | some .sweep => sweepOwed s core 4 = false
  | _ => False

/-- A lane that may go on where a lower lane of the same execution does: it is held behind it alone (log 29, DEDUCED), all those below that
still wait being in `W`. -/
def HeldBehind (s : State) (tk : Nat) (t : Thread) (W : Nat → Prop) : Prop :=
  t.park = some .behind ∧ ∀ l, l < laneOfT tk → ∀ u, tfind s.threads (tkey (ckOfT tk) (posOfT tk) l) = some u →
    u.pc = t.pc → u.park ≠ none ∨ u.markWait = true → t.parkSeq ≤ u.parkSeq → W (tkey (ckOfT tk) (posOfT tk) l)

/-- What a lane that goes on has been waiting for: a wait for a sweep is part of the wait before it (R320). -/
def waitedFor (t : Thread) : Option Park := if t.park = some .sweep ∧ t.was ≠ none then t.was else t.park

/-- The phase that a lane waits for in the wait part of a barrier has completed (R314). -/
def phaseOver (s : State) (t : Thread) : Bool :=
  match t.park with
  | some (.barWait ck o j _) => phasePast (barrierIn s ck o) (BitVec.ofNat 32 j)
  | _ => false

/-- Every cached line holds 128 bytes, in an L1 with a mark for each (R148). -/
def goodLines (s : State) : Bool :=
  s.l1.all (fun e => e.2.bytes.length == 128 && e.2.dirty.length == 128) && s.rdc.all (fun e => e.2.bytes.length == 128)

/-- The keys of a table strictly rise. -/
def canonicalKeys {α : Type} (t : Table α) : Bool := rising t

/-! ## Invariants -/

/-- The memories keep their canonical form: addresses strictly rising, and no byte listed that reads as an unlisted one. -/
def memoryWf (s : State) : Bool := Memory.wf s.dmem && Memory.wf s.hmem && Memory.wf s.scratch

/-- What a frozen module holds still (R18): everything but the freeze input, the links and ports, what has left the module, the sideband's
log, the causes that hold it, the counter of free values and the events still to come. -/
def still (s : State) : State :=
  { s with freezePin := false, linkUp0 := false, linkUp1 := false, ports := [], hostOut := [], i3c := [], hold := none, free := 0, agenda := [] }

/-- What comes to the module from outside, short of a reset that acts on a frozen module (R18, R20). -/
def outside : Instr → Bool
  | .pbenSet | .pbenClear | .dvsecRegisterWrite _ _ _ | .mbwrWrite _ | .mbrdWrite _ | .doeAbort | .doeDiscovery | .spdmDoeRequest
  | .spdmMctpRequest _ | .telemetryRead | .perst | .cxlReset | .functionLevelReset | .port1Reset | .powerFault | .thermalTrip
  | .clockThrottle | .clockRestore | .freeze | .freezeRelease | .scanShift | .linkDown _ | .linkRetrain _ | .bisnpTimeout _ _
  | .playbillWriteSnoop _ _ | .queueTailWrite _ | .hostMemRead _ _ | .hostMemWrite _ _ | .hostSnoop _ _
  | .fabricOpArrival _ _ _ _ _ _ | .fabricOpSettle _ _ _ | .fabricPathTimeout _ | .gratricPortFail _ | .gratricPortTrain _
  | .flitResend _ | .deviceNumberConflict | .uncorrectableError _ _ _ | .correctedError _ => true
  | _ => false

/-- A frozen module that stands as `r` does, with nothing to come but events that R18 keeps from it. -/
def Frozen (r s : State) : Prop := s.frozen = true ∧ still s = r ∧ ∀ i ∈ s.agenda, outside i = true

end Sys2Proof.Safety
end

