-- ==== Sys2Proof/Certificates/Slice0/Obligations.lean ====
section
/-! DEFINITION. What is to be proved of the machine: each statement formalises numbered rules of the specification, or says that it is
derived. A table of instructions gives, for each, the result that its rule states as exact arithmetic on the operands. -/

open Sys2Proof Sys2Proof.Machine Sys2Proof.Safety

/-! ## Integer and control instructions -/

/-- IALU (R260): in every active lane D receives the result of the table. x, y and z are a, b and d; results are modulo 2^32 (R258). The
immediate forms (R265, R266): i is the sign-extended immediate, n the shift amount. -/
def Obligations.IntegerArithmeticResults : Prop :=
  (
  ∀ e ∈ [(Instr.add, fun x y _ => BitVec.ofNat 32 (x.toNat + y.toNat)),
         (Instr.sub, fun x y _ => BitVec.ofInt 32 ((x.toNat : Int) - y.toNat)),
         (Instr.mul, fun x y _ => BitVec.ofNat 32 (x.toNat * y.toNat)),
         (Instr.mulh, fun x y _ => BitVec.ofInt 32 (x.toInt * y.toInt / 2 ^ 32)),
         (Instr.mulhn, fun x y _ => BitVec.ofNat 32 (x.toNat * y.toNat / 2 ^ 32)),
         (Instr.mad, fun x y (z : Word) => BitVec.ofNat 32 (z.toNat + x.toNat * y.toNat)),
         (Instr.min, fun x y _ => if x.toInt ≤ y.toInt then x else y),
         (Instr.max, fun x y _ => if y.toInt ≤ x.toInt then x else y),
         (Instr.minn, fun x y _ => if x.toNat ≤ y.toNat then x else y),
         (Instr.maxn, fun x y _ => if y.toNat ≤ x.toNat then x else y),
         (Instr.adif, fun x y _ => BitVec.ofNat 32 (x.toInt - y.toInt).natAbs),
         (Instr.adds, fun x y _ => BitVec.ofInt 32 (min (max (x.toInt + y.toInt) (-2 ^ 31)) (2 ^ 31 - 1))),
         (Instr.subs, fun (x y : Word) _ => BitVec.ofInt 32 (min (max (x.toInt - y.toInt) (-2 ^ 31)) (2 ^ 31 - 1)))],
    ∀ (m : Bool) (d a b : RegNo) (s : State), Ready (e.1 m d a b) s →
      ∃ t, exec (e.1 m d a b) s = .next t
        ∧ Immediate (e.1 m d a b) s t (one d (fun l => e.2 (reg s l a) (reg s l b) (reg s l d))) (fun _ => next s)
  )
  ∧ (
  (∀ e ∈ [(Instr.addi, fun x i => BitVec.ofInt 32 ((x.toNat : Int) + i)),
          (Instr.andi, fun x i => x &&& BitVec.ofInt 32 i),
          (Instr.ori, fun x i => x ||| BitVec.ofInt 32 i),
          (Instr.xori, fun x i => x ^^^ BitVec.ofInt 32 i),
          (Instr.slti, fun x i => if x.toInt < i then 1 else 0),
          (Instr.sltni, fun x i => if (x.toNat : Int) < i % 2 ^ 32 then 1 else 0),
          (Instr.muli, fun (x : Word) (i : Int) => BitVec.ofInt 32 ((x.toNat : Int) * i))],
    ∀ (m : Bool) (d a : RegNo) (i : BitVec 11) (s : State), Ready (e.1 m d a i) s →
      ∃ t, exec (e.1 m d a i) s = .next t
        ∧ Immediate (e.1 m d a i) s t (one d (fun l => e.2 (reg s l a) i.toInt)) (fun _ => next s))
  ∧ (∀ e ∈ [(Instr.shli, fun x n => BitVec.ofNat 32 (x.toNat * 2 ^ n)),
            (Instr.shri, fun x n => BitVec.ofNat 32 (x.toNat / 2 ^ n)),
            (Instr.shrai, fun x n => BitVec.ofInt 32 (x.toInt / 2 ^ n)),
            (Instr.rotli, fun (x : Word) (n : Nat) => x.rotateLeft n)],
    ∀ (m : Bool) (d a : RegNo) (n : BitVec 5) (s : State), Ready (e.1 m d a n) s →
      ∃ t, exec (e.1 m d a n) s = .next t
        ∧ Immediate (e.1 m d a n) s t (one d (fun l => e.2 (reg s l a) n.toNat)) (fun _ => next s))
  )

/-- LOGIC with two sources (R261): n is b mod 32; SEL also reads d. LOGIC with one source (R261): the number of 1 bits, 32 − blen(a), the
number of low zero bits (the powers of two that divide a; all 32 for zero), and the bits in reverse. ICMP (R262): D is 1 when the relation
holds and 0 otherwise. -/
def Obligations.LogicCountAndCompareResults : Prop :=
  (
  ∀ e ∈ [(Instr.and, fun x y _ => x &&& y),
         (Instr.or, fun x y _ => x ||| y),
         (Instr.xor, fun x y _ => x ^^^ y),
         (Instr.andn, fun x y _ => x &&& ~~~y),
         (Instr.shl, fun x y _ => BitVec.ofNat 32 (x.toNat * 2 ^ (y.toNat % 32))),
         (Instr.shr, fun x y _ => BitVec.ofNat 32 (x.toNat / 2 ^ (y.toNat % 32))),
         (Instr.shra, fun x y _ => BitVec.ofInt 32 (x.toInt / 2 ^ (y.toNat % 32))),
         (Instr.rotl, fun x y _ => x.rotateLeft (y.toNat % 32)),
         (Instr.sel, fun (x y z : Word) => if z.toNat ≠ 0 then x else y)],
    ∀ (m : Bool) (d a b : RegNo) (s : State), Ready (e.1 m d a b) s →
      ∃ t, exec (e.1 m d a b) s = .next t
        ∧ Immediate (e.1 m d a b) s t (one d (fun l => e.2 (reg s l a) (reg s l b) (reg s l d))) (fun _ => next s)
  )
  ∧ (
  ∀ e ∈ [(Instr.popc, fun x => BitVec.ofNat 32 ((List.range 32).countP (fun i => x.toNat / 2 ^ i % 2 = 1))),
         (Instr.clz, fun x => BitVec.ofNat 32 ((List.range 32).countP (fun i => x.toNat < 2 ^ i))),
         (Instr.ctz, fun x => BitVec.ofNat 32 ((List.range 32).countP (fun i => x.toNat % 2 ^ (i + 1) = 0))),
         (Instr.brev, fun (x : Word) => x.reverse)],
    ∀ (m : Bool) (d a : RegNo) (s : State), Ready (e.1 m d a) s →
      ∃ t, exec (e.1 m d a) s = .next t
        ∧ Immediate (e.1 m d a) s t (one d (fun l => e.2 (reg s l a))) (fun _ => next s)
  )
  ∧ (
  ∀ e ∈ [(Instr.seq, fun x y => decide (x.toNat = y.toNat)),
         (Instr.sne, fun x y => decide (x.toNat ≠ y.toNat)),
         (Instr.slt, fun x y => decide (x.toInt < y.toInt)),
         (Instr.sle, fun x y => decide (x.toInt ≤ y.toInt)),
         (Instr.sltn, fun x y => decide (x.toNat < y.toNat)),
         (Instr.slen, fun (x y : Word) => decide (x.toNat ≤ y.toNat))],
    ∀ (m : Bool) (d a b : RegNo) (s : State), Ready (e.1 m d a b) s →
      ∃ t, exec (e.1 m d a b) s = .next t
        ∧ Immediate (e.1 m d a b) s t (one d (fun l => if e.2 (reg s l a) (reg s l b) then 1 else 0)) (fun _ => next s)
  )

/-- IWIDE but for division (R263): pair by pair, pair by single (n6 is b mod 64), and the relations of pairs. DIV, DIVN, REM and REMN
(R264): quotients round toward zero, division by zero gives all ones and the dividend, −2^63 by −1 wraps; the pair is a deferred result
(R136). -/
def Obligations.WideAndDivisionResults : Prop :=
  (
  (∀ e ∈ [(Instr.add64, fun x y => BitVec.ofNat 64 (x.toNat + y.toNat)),
          (Instr.sub64, fun x y => BitVec.ofInt 64 ((x.toNat : Int) - y.toNat)),
          (Instr.mul64, fun (x y : DWord) => BitVec.ofNat 64 (x.toNat * y.toNat))],
    ∀ (m : Bool) (d a b : RegNo) (s : State), Ready (e.1 m d a b) s →
      ∃ t, exec (e.1 m d a b) s = .next t
        ∧ Immediate (e.1 m d a b) s t (two d (fun l => e.2 (pair s l a) (pair s l b))) (fun _ => next s))
  ∧ (∀ e ∈ [(Instr.addx, fun x y => BitVec.ofInt 64 (x.toInt + y.toInt)),
            (Instr.addxn, fun x y => BitVec.ofNat 64 (x.toNat + y.toNat)),
            (Instr.shl64, fun x y => BitVec.ofNat 64 (x.toNat * 2 ^ (y.toNat % 64))),
            (Instr.shr64, fun x y => BitVec.ofNat 64 (x.toNat / 2 ^ (y.toNat % 64))),
            (Instr.shra64, fun (x : DWord) (y : Word) => BitVec.ofInt 64 (x.toInt / 2 ^ (y.toNat % 64)))],
    ∀ (m : Bool) (d a b : RegNo) (s : State), Ready (e.1 m d a b) s →
      ∃ t, exec (e.1 m d a b) s = .next t
        ∧ Immediate (e.1 m d a b) s t (two d (fun l => e.2 (pair s l a) (reg s l b))) (fun _ => next s))
  ∧ (∀ e ∈ [(Instr.seq64, fun x y => decide (x.toNat = y.toNat)),
            (Instr.slt64, fun x y => decide (x.toInt < y.toInt)),
            (Instr.sltn64, fun (x y : DWord) => decide (x.toNat < y.toNat))],
    ∀ (m : Bool) (d a b : RegNo) (s : State), Ready (e.1 m d a b) s →
      ∃ t, exec (e.1 m d a b) s = .next t
        ∧ Immediate (e.1 m d a b) s t (one d (fun l => if e.2 (pair s l a) (pair s l b) then 1 else 0)) (fun _ => next s))
  )
  ∧ (
  ∀ e ∈ [(Instr.div, fun x y => if y.toNat = 0 then BitVec.ofInt 64 (-1) else BitVec.ofInt 64 (x.toInt.tdiv y.toInt)),
         (Instr.divn, fun x y => if y.toNat = 0 then BitVec.ofNat 64 (2 ^ 64 - 1) else BitVec.ofNat 64 (x.toNat / y.toNat)),
         (Instr.rem, fun x y => if y.toNat = 0 then x else BitVec.ofInt 64 (x.toInt - y.toInt * x.toInt.tdiv y.toInt)),
         (Instr.remn, fun (x y : DWord) => if y.toNat = 0 then x else BitVec.ofNat 64 (x.toNat - y.toNat * (x.toNat / y.toNat)))],
    ∀ (m : Bool) (d a b : RegNo) (s : State), Ready (e.1 m d a b) s →
      ∃ t, exec (e.1 m d a b) s = .next t ∧ Pending (e.1 m d a b) s t (two d (fun l => e.2 (pair s l a) (pair s l b)))
  )

/-- BFX and BFI (R267): the field of len bits at pos, extended with its own sign where IMM[10] is 1, and the field replaced. ADDXI, LUI
and LAPC (R268): LAPC counts from its own address. -/
def Obligations.FieldAndAddressResults : Prop :=
  (
  (∀ (m : Bool) (d a : RegNo) (e : Bool) (l p : BitVec 5) (s : State), Ready (.bfx m d a e l p) s →
    ∃ t, exec (.bfx m d a e l p) s = .next t
      ∧ Immediate (.bfx m d a e l p) s t
          (one d (fun k =>
            let f := (reg s k a).extractLsb' p.toNat (l.toNat + 1)
            if e then f.signExtend 32 else f.zeroExtend 32)) (fun _ => next s))
  ∧ (∀ (m : Bool) (d a : RegNo) (l p : BitVec 5) (s : State), Ready (.bfi m d a l p) s →
    ∃ t, exec (.bfi m d a l p) s = .next t ∧ ∃ f : Nat → Word,
      Immediate (.bfi m d a l p) s t (one d f) (fun _ => next s)
        ∧ ∀ k i, i < 32 → (f k).getLsbD i =
            if p.toNat ≤ i ∧ i < p.toNat + l.toNat + 1 then (reg s k a).getLsbD (i - p.toNat) else (reg s k d).getLsbD i)
  )
  ∧ (
  (∀ (m : Bool) (d a : RegNo) (i : BitVec 11) (s : State), Ready (.addxi m d a i) s →
    ∃ t, exec (.addxi m d a i) s = .next t
      ∧ Immediate (.addxi m d a i) s t (two d (fun l => BitVec.ofInt 64 ((pair s l a).toNat + i.toInt))) (fun _ => next s))
  ∧ (∀ (m : Bool) (d : RegNo) (i : BitVec 18) (s : State), Ready (.lui m d i) s →
    ∃ t, exec (.lui m d i) s = .next t
      ∧ Immediate (.lui m d i) s t (one d (fun _ => BitVec.ofNat 32 (i.toNat * 2 ^ 14))) (fun _ => next s))
  ∧ (∀ (m : Bool) (d : RegNo) (i : BitVec 18) (s : State), Ready (.lapc m d i) s →
    ∃ t, exec (.lapc m d i) s = .next t
      ∧ Immediate (.lapc m d i) s t (two d (fun _ => BitVec.ofInt 64 ((groupOf s).pc.toNat + i.toInt * 4))) (fun _ => next s))
  )

/-- Branches (R269): each lane goes to PC + sext(offset) × 4 where its relation holds and to PC + 4 otherwise, and no register is written.
BR, JAL, JR and JALR (R271, R272): the target, and the link PC + 4, which JALR writes after it has read A. A lane whose target is no
multiple of 4 traps ALIGN with cw.tval = the target, and its link is not written. -/
def Obligations.BranchesAndJumps : Prop :=
  (
  ∀ e ∈ [(Instr.beq, fun x y => decide (x.toNat = y.toNat)),
         (Instr.bne, fun x y => decide (x.toNat ≠ y.toNat)),
         (Instr.blt, fun x y => decide (x.toInt < y.toInt)),
         (Instr.bge, fun x y => decide (y.toInt ≤ x.toInt)),
         (Instr.bltn, fun x y => decide (x.toNat < y.toNat)),
         (Instr.bgen, fun (x y : Word) => decide (y.toNat ≤ x.toNat))],
    ∀ (m : Bool) (a b : RegNo) (o : BitVec 11) (s : State), Ready (e.1 m a b o) s →
      ∃ t, exec (e.1 m a b o) s = .next t
        ∧ Immediate (e.1 m a b o) s t nothing (fun l =>
            if e.2 (reg s l a) (reg s l b) then BitVec.ofInt 64 ((groupOf s).pc.toNat + o.toInt * 4)
            else BitVec.ofNat 64 ((groupOf s).pc.toNat + 4))
  )
  ∧ (
  (∀ (m : Bool) (o : BitVec 25) (s : State), Ready (.br m o) s →
    ∃ t, exec (.br m o) s = .next t
      ∧ Immediate (.br m o) s t nothing (fun _ => BitVec.ofInt 64 ((groupOf s).pc.toNat + o.toInt * 4)))
  ∧ (∀ (m : Bool) (o : BitVec 25) (s : State), Ready (.jal m o) s →
    ∃ t, exec (.jal m o) s = .next t
      ∧ Immediate (.jal m o) s t (two 2 (fun _ => BitVec.ofNat 64 ((groupOf s).pc.toNat + 4)))
          (fun _ => BitVec.ofInt 64 ((groupOf s).pc.toNat + o.toInt * 4)))
  ∧ (∀ (m : Bool) (a : RegNo) (s : State), Ready (.jr m a) s → (∀ l ∈ lanes s, (pair s l a).toNat % 4 = 0) →
    ∃ t, exec (.jr m a) s = .next t ∧ Immediate (.jr m a) s t nothing (fun l => pair s l a))
  ∧ (∀ (m : Bool) (d a : RegNo) (s : State), Ready (.jalr m d a) s → (∀ l ∈ lanes s, (pair s l a).toNat % 4 = 0) →
    ∃ t, exec (.jalr m d a) s = .next t
      ∧ Immediate (.jalr m d a) s t (two d (fun _ => BitVec.ofNat 64 ((groupOf s).pc.toNat + 4))) (fun l => pair s l a))
  ∧ (∀ (m : Bool) (a : RegNo) (s : State), Ready (.jr m a) s → ∃ t, exec (.jr m a) s = .next t ∧
      ∀ l ∈ lanes s, (pair s l a).toNat % 4 ≠ 0 → handlerServes s l = true → LaneTrapped s t l .align (pair s l a))
  ∧ (∀ (m : Bool) (d a : RegNo) (s : State), Ready (.jalr m d a) s → ∃ t, exec (.jalr m d a) s = .next t ∧
      ∀ l ∈ lanes s, (pair s l a).toNat % 4 ≠ 0 → handlerServes s l = true → LaneTrapped s t l .align (pair s l a))
  )

/-- NOP and YIELD (R274): nothing but the program counter and the marker; YIELD's troupe is not the one that issued last. EXIT (R275): a
lane with results outstanding parks. A lane with none ends: its thread is gone, it has left cw.lmask and every rejoin mask, and a thread
that stays is unchanged unless a mask released it past its JWAIT (R129). A spawned troupe frees its position with its last lane. -/
def Obligations.NopYieldAndExit : Prop :=
  (
  (∀ (m : Bool) (s : State), Ready (.nop m) s →
    ∃ t, exec (.nop m) s = .next t ∧ Immediate (.nop m) s t nothing (fun _ => next s))
  ∧ (∀ (m : Bool) (s : State), Ready (.yield m) s →
    ∃ t, exec (.yield m) s = .next t ∧ Immediate (.yield m) s { t with cores := s.cores } nothing (fun _ => next s)
      ∧ tfind (tget CoreState.blank t.cores (coreOf s (groupOf s).ck)).lastTroupe ((groupOf s).p % 4) = none
      ∧ ∀ core, core ≠ coreOf s (groupOf s).ck → tfind t.cores core = tfind s.cores core)
  )
  ∧ (
  ∀ (m : Bool) (s : State), Ready (.exit m) s → (∀ l ∈ lanes s, (lane s l).park = none) →
    ∃ t, exec (.exit m) s = .next t
      ∧ t = { s with troupes := t.troupes, threads := t.threads, ended := t.ended, issue := none, issueSeq := s.issueSeq + 1 }
      ∧ (∀ l ∈ lanes s, (lane s l).pend = [] → tfind t.threads ((groupOf s).tk l) = none ∧ tfind t.ended ((groupOf s).tk l) = some (lane s l))
      ∧ (∀ k, (∀ l ∈ lanes s, (lane s l).pend = [] → k ≠ (groupOf s).tk l) → tfind t.ended k = tfind s.ended k)
      ∧ (∀ l ∈ lanes s, (lane s l).pend ≠ [] → ∃ u, tfind t.threads ((groupOf s).tk l) = some u ∧ u.park = some .results
          ∧ u.pc = (lane s l).pc ∧ u.pend = (lane s l).pend)
      ∧ (∀ k, (∀ l ∈ lanes s, k ≠ (groupOf s).tk l) → tfind t.threads k = tfind s.threads k
          ∨ ∃ u j, tfind s.threads k = some u ∧ j < 8 ∧ u.park = some (.jwait j)
              ∧ tfind t.threads k = some { u with park := none, parkSeq := 0, pc := u.pc + 4,
                                                  readySince := coreCycle s (coreOf s (groupOf s).ck) })
      ∧ (∀ u, tfind t.troupes (pkey (groupOf s).ck (groupOf s).p) = some u → ∀ l ∈ lanes s, (lane s l).pend = [] →
          inMask u.lmask l = false ∧ ∀ j, j < 8 → inMask (enrolledAt u j) l = false ∧ inMask (arrivedAt u j) l = false)
      ∧ (∀ l, l < 32 → (l ∈ lanes s → (lane s l).pend ≠ []) → (tfind t.troupes (pkey (groupOf s).ck (groupOf s).p)).isSome = true →
          inMask (troupeAt t (groupOf s).ck (groupOf s).p).lmask l = inMask (troupeAt s (groupOf s).ck (groupOf s).p).lmask l)
      ∧ ((troupeAt s (groupOf s).ck (groupOf s).p).spawned = true → lanes s ≠ [] →
          (∀ l, l < 32 → inMask (troupeAt s (groupOf s).ck (groupOf s).p).lmask l = true → l ∈ lanes s ∧ (lane s l).pend = []) →
          (∃ l ∈ lanes s, (lane s l).pend = []) → tfind t.troupes (pkey (groupOf s).ck (groupOf s).p) = none)
  )

/-- TRAP and BRK (R276, R142): every lane enters its handler with cw.tval = the code, or the instruction word, and cw.epc = its own
address. A trap with H = 1 is NESTED, and a trap of a program without a vector has no handler: both go to the reconciler, which is to kill
the RESIDENT's classes with reason 0x04cc (R142, R144). The thread stands where it is. ERET (R143): with H = 1 the program counter is
cw.epc and H is 0; with H = 0 it traps ILLEGAL, which a program's handler serves. -/
def Obligations.TrapsAndTheReturn : Prop :=
  (
  (∀ (m : Bool) (c : BitVec 7) (s : State), Ready (.trapI m c) s → (∀ l ∈ lanes s, handlerServes s l = true) →
    ∃ t, exec (.trapI m c) s = .next t ∧ Trapped s t .trap (fun _ => c.setWidth 64))
  ∧ (∀ (m : Bool) (s : State), Ready (.brk m) s → (∀ l ∈ lanes s, handlerServes s l = true) →
    ∃ t, exec (.brk m) s = .next t ∧ Trapped s t .brk (fun _ => BitVec.ofNat 64 (encode (.brk m))))
  )
  ∧ (
  ∀ e ∈ [(fun m c => (Instr.trapI m c, 0x0D)), (fun (m : Bool) (_ : BitVec 7) => (Instr.brk m, 0x0C))],
    ∀ (m : Bool) (c : BitVec 7) (s : State), Ready (e m c).1 s → lanes s ≠ [] →
      (∀ l ∈ lanes s, (lane s l).pend = [] ∧ (lane s l).region = none) →
      (tfind s.residents (ridOf (groupOf s).ck)).isSome = true → (residentAt s (ridOf (groupOf s).ck)).killPending = none →
      ∃ t, exec (e m c).1 s = .next t
        ∧ ((∀ l ∈ lanes s, (lane s l).inHandler = true) →
            (residentAt t (ridOf (groupOf s).ck)).killPending = some 0x0430
              ∧ ∀ l ∈ lanes s, (after s t l).park = some .reconciler ∧ (after s t l).pc = (lane s l).pc)
        ∧ ((∀ l ∈ lanes s, (lane s l).inHandler = false) → (launchOf s (groupOf s).ck).trapVec = 0xFFFFFFFF →
            (residentAt t (ridOf (groupOf s).ck)).killPending = some (BitVec.ofNat 16 (0x0400 + (e m c).2))
              ∧ ∀ l ∈ lanes s, (after s t l).park = some .reconciler ∧ (after s t l).pc = (lane s l).pc)
  )
  ∧ (
  ∀ (m : Bool) (s : State), Ready (.eret m) s → (∀ l ∈ lanes s, (lane s l).inHandler = true ∨ handlerServes s l = true) →
    ∃ t, exec (.eret m) s = .next t ∧ OnlyThreads s t ∧ Threads s t (fun l u =>
      if (lane s l).inHandler then completed m u.epc (recorded (.eret m) s l) { u with inHandler := false }
      else inTrap s .illegal (BitVec.ofNat 64 (encode (.eret m))) u)
  )

/-- WBASE, and WRCW of cw.wb (R277, R131, R283): a multiple of 32 from 0 to REGS − 112 becomes the window, which applies from the next
instruction; any other value traps WINDOW with cw.tval = the value, and the window stays. CHK (R278): a lane with a ≥ b traps BOUND with
cw.tval = a; any other only goes on. -/
def Obligations.WindowsAndBounds : Prop :=
  (
  ∀ i a, (∃ m, i = Instr.wbase m a ∨ i = .wrcw m a 0x010) → ∀ s : State, Ready i s →
    (∀ l ∈ lanes s, goodWindow s (reg s l a) = true ∨ handlerServes s l = true) →
    ∃ t, exec i s = .next t ∧ OnlyThreads s t ∧ Threads s t (fun l u =>
      if goodWindow s (reg s l a) then completed i.marker (next s) (recorded i s l) { u with wb := reg s l a }
      else inTrap s .window ((reg s l a).setWidth 64) u)
  )
  ∧ (
  ∀ (m : Bool) (a b : RegNo) (s : State), Ready (.chk m a b) s →
    (∀ l ∈ lanes s, (reg s l a).toNat < (reg s l b).toNat ∨ handlerServes s l = true) →
    ∃ t, exec (.chk m a b) s = .next t ∧ OnlyThreads s t ∧ Threads s t (fun l u =>
      if (reg s l a).toNat < (reg s l b).toNat then completed m (next s) (recorded (.chk m a b) s l) u
      else inTrap s .bound ((reg s l a).setWidth 64) u)
  )

/-- JENROL, JWAIT and JSTRIKE (R129, R280) act on one mask of the troupe: E and A become what the rule's pseudocode says; when E is not
empty and E ⊆ A, both are emptied and every lane of A that waits there goes on past its JWAIT. -/
def Obligations.RejoinMasks : Prop :=
  (∀ (m : Bool) (j : BitVec 3) (s : State), Ready (.jenrol m j) s → troupeLives s = true →
    ∃ t, exec (.jenrol m j) s = .next t
      ∧ OnlyLanes s t ∧ t.regs = s.regs ∧ t.cregs = s.cregs
      ∧ (∀ l ∈ lanes s, tfind t.threads ((groupOf s).tk l) = some (completed m (next s) (recorded (.jenrol m j) s l) (lane s l)))
      ∧ Rejoin s t j.toNat (enrolledIn s s j.toNat ||| maskOf (lanes s)) (arrivedIn s s j.toNat) false)
  ∧ (∀ (m : Bool) (j : BitVec 3) (s : State), Ready (.jstrike m j) s → troupeLives s = true →
    ∃ t, exec (.jstrike m j) s = .next t
      ∧ OnlyLanes s t ∧ t.regs = s.regs ∧ t.cregs = s.cregs
      ∧ (∀ l ∈ lanes s, tfind t.threads ((groupOf s).tk l) = some (completed m (next s) (recorded (.jstrike m j) s l) (lane s l)))
      ∧ Rejoin s t j.toNat (enrolledIn s s j.toNat &&& ~~~maskOf (lanes s)) (arrivedIn s s j.toNat &&& ~~~maskOf (lanes s)) true)
  ∧ (∀ (m : Bool) (j : BitVec 3) (s : State), Ready (.jwait m j) s → troupeLives s = true →
    ∃ t, exec (.jwait m j) s = .next t
      ∧ OnlyLanes s t ∧ t.regs = s.regs ∧ t.cregs = s.cregs
      ∧ (∀ l ∈ lanes s,
          if releases (enrolledIn s s j.toNat ||| maskOf (lanes s)) (arrivedIn s s j.toNat ||| maskOf (lanes s))
          then (after s t l).park = none ∧ (after s t l).pc = (lane s l).pc + 4 ∧ core (after s t l) = core (lane s l)
          else Waits (.jwait j.toNat) (lane s l) (after s t l))
      ∧ Rejoin s t j.toNat (enrolledIn s s j.toNat ||| maskOf (lanes s)) (arrivedIn s s j.toNat ||| maskOf (lanes s)) true)

/-- SPAWN (R279, R110, R112; log 59, DEDUCED, for what its release performs): lanes in ascending order take the slots of a bin keyed to
their class and entry that has room for them; one lane that finds none opens the lowest-numbered empty bin of its core, with its own
cw.bintimer; with no bin and no slot it parks. The argument registers and the coordinates go with the slot. -/
def Obligations.SpawnTakesSlots : Prop :=
  (∀ (m : Bool) (d a : RegNo) (c : BitVec 7) (s : State) (e : DWord) (b : Nat) (x : Bin),
    Ready (.spawn m d a c) s → spawnForm s d c = true → (∀ l ∈ lanes s, pair s l a = e) → e.toNat % 4 = 0 → e.toNat < 2 ^ 48 →
    s.bins.find? (fun y => y.2.ck == (groupOf s).ck && y.2.entry == e && decide (y.2.slots.length < 32)) = some (b, x) →
    tfind s.bins b = some x → x.slots.length + (lanes s).length ≤ 32 →
    ∃ t, exec (.spawn m d a c) s = .next t
      ∧ t = { eachLane (fun s' _ => settleCore s' (coreOf s (groupOf s).ck)) s with bins := t.bins, threads := t.threads }
      ∧ tfind t.bins b = some { x with slots := x.slots ++ (lanes s).map (spawned s d c) }
      ∧ (∀ k, k ≠ b → tfind t.bins k = tfind s.bins k)
      ∧ Threads s t (fun l => completed m (next s) (recorded (.spawn m d a c) s l)))
  ∧ (∀ (m : Bool) (d a : RegNo) (c : BitVec 7) (s : State) (l : Nat),
    Ready (.spawn m d a c) s → spawnForm s d c = true → lanes s = [l] → (pair s l a).toNat % 4 = 0 → (pair s l a).toNat < 2 ^ 48 →
    s.bins.find? (fun y => y.2.ck == (groupOf s).ck && y.2.entry == pair s l a && decide (y.2.slots.length < 32)) = none →
    ∃ t, exec (.spawn m d a c) s = .next t
      ∧ (∀ n, n < 16 → tfind s.bins (coreOf s (groupOf s).ck * 16 + n) = none →
          (∀ k, k < n → (tfind s.bins (coreOf s (groupOf s).ck * 16 + k)).isSome = true) →
          tfind t.bins (coreOf s (groupOf s).ck * 16 + n) = some ⟨(groupOf s).ck, pair s l a, [spawned s d c l],
              coreCycle s (coreOf s (groupOf s).ck) + (lane s l).binTimer.toNat, false⟩
            ∧ t = { settleCore (issued s) (coreOf s (groupOf s).ck) with bins := t.bins, threads := t.threads }
            ∧ (∀ k, k ≠ coreOf s (groupOf s).ck * 16 + n → tfind t.bins k = tfind s.bins k)
            ∧ Threads s t (fun l => completed m (next s) (recorded (.spawn m d a c) s l)))
      ∧ ((∀ n, n < 16 → (tfind s.bins (coreOf s (groupOf s).ck * 16 + n)).isSome = true) →
          OnlyThreads s t ∧ Waits .spawn (lane s l) (after s t l)))
  ∧ (∀ (m : Bool) (d a : RegNo) (c : BitVec 7) (s : State), Ready (.spawn m d a c) s → (∀ l ∈ lanes s, handlerServes s l = true) →
    spawnForm s d c = false → ∃ t, exec (.spawn m d a c) s = .next t ∧ Trapped s t .illegal (fun _ => BitVec.ofNat 64 (encode (.spawn m d a c))))
  ∧ (∀ (m : Bool) (d a : RegNo) (c : BitVec 7) (s : State), Ready (.spawn m d a c) s → spawnForm s d c = true →
    ∃ t, exec (.spawn m d a c) s = .next t ∧ ∀ l ∈ lanes s, handlerServes s l = true →
      ((pair s l a).toNat % 4 ≠ 0 → LaneTrapped s t l .align (pair s l a))
        ∧ ((pair s l a).toNat % 4 = 0 → 2 ^ 48 ≤ (pair s l a).toNat → LaneTrapped s t l .access (pair s l a)))

/-- RDCW (R282, R140): a stable word at once, a volatile one (cw.phase, cw.tick, cw.cycle, cw.lmask) as a deferred result; a read of
cw.cycle or cw.tick latches the high half. An index without a word gives 0. WRCW (R283, R140): what each word takes from a; a read-only
word traps ILLEGAL, and a read-ignore word or an index without a word ignores the write. For cw.wb see WindowsAndBounds. A write to
cw.sigsend (R145, R283): every live thread that a lane's value names holds SIGNAL, with the sender's (seat × 4 + section) × 32 + lane as
its value; the highest sender's stands, and a target that is not live is skipped. -/
def Obligations.ControlWordsReadAndWritten : Prop :=
  (
  (∀ e ∈ [(0x000, fun (_ : State) l => BitVec.ofNat 32 l),
          (0x001, fun s _ => BitVec.ofNat 32 ((groupOf s).p / 4)),
          (0x002, fun s _ => BitVec.ofNat 32 ((groupOf s).p % 4)),
          (0x003, fun s _ => BitVec.ofNat 32 (clsAt s (groupOf s).ck).idx),
          (0x004, fun s _ => BitVec.ofNat 32 ((clsAt s (groupOf s).ck).idx / 2 ^ 32 % 2 ^ 16)),
          (0x005, fun s _ => BitVec.ofNat 32 (clsAt s (groupOf s).ck).core),
          (0x006, fun s _ => BitVec.ofNat 32 (clsAt s (groupOf s).ck).die),
          (0x007, fun s _ => BitVec.ofNat 32 s.cfg.device.toNat),
          (0x008, fun s l => tget 0 (lane s l).coords 0), (0x009, fun s l => tget 0 (lane s l).coords 1),
          (0x00A, fun s l => tget 0 (lane s l).coords 2), (0x00B, fun s l => tget 0 (lane s l).coords 3),
          (0x00C, fun s l => tget 0 (lane s l).coords 4), (0x00D, fun s l => tget 0 (lane s l).coords 5),
          (0x00E, fun s l => tget 0 (lane s l).coords 6), (0x00F, fun s l => tget 0 (lane s l).coords 7),
          (0x010, fun s l => (lane s l).wb),
          (0x011, fun s _ => BitVec.ofNat 32 (launchOf s (groupOf s).ck).regs),
          (0x012, fun s _ => BitVec.ofNat 32 (launchOf s (groupOf s).ck).ownBytes),
          (0x015, fun s l => (lane s l).tickHi),
          (0x016, fun s l => (lane s l).epc.extractLsb' 0 32), (0x017, fun s l => (lane s l).epc.extractLsb' 32 32),
          (0x018, fun s l => (lane s l).cause.zeroExtend 32),
          (0x019, fun s l => (lane s l).tval.extractLsb' 0 32), (0x01A, fun s l => (lane s l).tval.extractLsb' 32 32),
          (0x01B, fun s l => (lane s l).lrFirst), (0x01C, fun s l => (lane s l).lrLast),
          (0x01D, fun s _ => (clsAt s (groupOf s).ck).restart),
          (0x01F, fun s l => (lane s l).cycleHi),
          (0x020, fun s l => (lane s l).binTimer),
          (0x022, fun s l => if (lane s l).inHandler then 1 else 0),
          (0x023, fun _ _ => 0)],
    ∀ (m : Bool) (d : RegNo) (s : State), Ready (.rdcw m d (BitVec.ofNat 11 e.1)) s →
      ∃ t, exec (.rdcw m d (BitVec.ofNat 11 e.1)) s = .next t
        ∧ Immediate (.rdcw m d (BitVec.ofNat 11 e.1)) s t (one d (e.2 s)) (fun _ => next s))
  ∧ (∀ (m : Bool) (d : RegNo) (i : BitVec 11) (s : State), 0x24 ≤ i.toNat → Ready (.rdcw m d i) s →
    ∃ t, exec (.rdcw m d i) s = .next t ∧ Immediate (.rdcw m d i) s t (one d (fun _ => 0)) (fun _ => next s))
  ∧ (∀ e ∈ [(0x013, fun s => BitVec.ofNat 32 (corePhaseAt s (coreOf s (groupOf s).ck)).p.toNat, fun (_ : State) (u : Thread) => u),
            (0x014, fun s => BitVec.ofNat 32 (ticksNow s), fun s u => { u with tickHi := BitVec.ofNat 32 (ticksNow s / 2 ^ 32) }),
            (0x01E, fun s => BitVec.ofNat 32 (coreCycle s (coreOf s (groupOf s).ck)),
              fun s u => { u with cycleHi := BitVec.ofNat 32 (coreCycle s (coreOf s (groupOf s).ck) / 2 ^ 32) }),
            (0x021, fun s => (troupeAt s (groupOf s).ck (groupOf s).p).lmask, fun (_ : State) (u : Thread) => u)],
    ∀ (m : Bool) (d : RegNo) (s : State), Ready (.rdcw m d (BitVec.ofNat 11 e.1)) s →
      ∃ t, exec (.rdcw m d (BitVec.ofNat 11 e.1)) s = .next t ∧ OnlyThreads s t
        ∧ Threads s t (fun l u => completed m (next s) (recorded (.rdcw m d (BitVec.ofNat 11 e.1)) s l)
            (holding (s.issueSeq + 1) (deferredOf s (one d (fun _ => e.2.1 s)) l) (e.2.2 s u))))
  )
  ∧ (
  (∀ e ∈ [(0x008, fun (v : Word) (u : Thread) => { u with coords := tset 0 u.coords 0 v }),
          (0x009, fun v u => { u with coords := tset 0 u.coords 1 v }), (0x00A, fun v u => { u with coords := tset 0 u.coords 2 v }),
          (0x00B, fun v u => { u with coords := tset 0 u.coords 3 v }), (0x00C, fun v u => { u with coords := tset 0 u.coords 4 v }),
          (0x00D, fun v u => { u with coords := tset 0 u.coords 5 v }), (0x00E, fun v u => { u with coords := tset 0 u.coords 6 v }),
          (0x00F, fun v u => { u with coords := tset 0 u.coords 7 v }),
          (0x016, fun v u => { u with epc := u.epc.extractLsb' 32 32 ++ v }),
          (0x017, fun v u => { u with epc := v ++ u.epc.extractLsb' 0 32 }),
          (0x018, fun v u => { u with cause := v.extractLsb' 0 8 }),
          (0x019, fun v u => { u with tval := u.tval.extractLsb' 32 32 ++ v }),
          (0x01A, fun v u => { u with tval := v ++ u.tval.extractLsb' 0 32 }),
          (0x01B, fun v u => { u with lrFirst := v }), (0x01C, fun v u => { u with lrLast := v }),
          (0x020, fun v u => { u with binTimer :=
            if v.toNat % 2 ^ 16 = 0 then 2048 else if v.toNat % 2 ^ 16 < 32 then 32 else BitVec.ofNat 32 (v.toNat % 2 ^ 16) }),
          (0x022, fun v u => { u with inHandler := v.getLsbD 0 }),
          (0x013, fun _ u => u), (0x014, fun _ u => u), (0x015, fun _ u => u), (0x01E, fun _ u => u), (0x01F, fun _ u => u),
          (0x021, fun _ u => u), (0x024, fun _ u => u), (0x7FF, fun _ u => u)],
    ∀ (m : Bool) (a : RegNo) (s : State), Ready (.wrcw m a (BitVec.ofNat 11 e.1)) s →
      ∃ t, exec (.wrcw m a (BitVec.ofNat 11 e.1)) s = .next t ∧ OnlyThreads s t
        ∧ Threads s t (fun l u => completed m (next s) (recorded (.wrcw m a (BitVec.ofNat 11 e.1)) s l) (e.2 (reg s l a) u)))
  ∧ (∀ (m : Bool) (a : RegNo) (i : BitVec 11) (s : State), 0x24 ≤ i.toNat → Ready (.wrcw m a i) s →
    ∃ t, exec (.wrcw m a i) s = .next t ∧ OnlyThreads s t
      ∧ Threads s t (fun l u => completed m (next s) (recorded (.wrcw m a i) s l) u))
  ∧ (∀ (m : Bool) (a : RegNo) (i : BitVec 11) (s : State), (i.toNat ≤ 7 ∨ i.toNat = 0x11 ∨ i.toNat = 0x12 ∨ i.toNat = 0x1D) →
    Ready (.wrcw m a i) s → (∀ l ∈ lanes s, handlerServes s l = true) →
    ∃ t, exec (.wrcw m a i) s = .next t ∧ Trapped s t .illegal (fun _ => BitVec.ofNat 64 (encode (.wrcw m a i))))
  )
  ∧ (
  ∀ (m : Bool) (a : RegNo) (s : State), Ready (.wrcw m a 0x023) s →
    ∃ t, exec (.wrcw m a 0x023) s = .next t ∧ OnlyThreads s t
      ∧ (∀ l ∈ lanes s, tfind t.threads ((groupOf s).tk l)
          = some (completed m (next s) (recorded (.wrcw m a 0x023) s l) (signalled s a ((groupOf s).tk l) (lane s l))))
      ∧ ∀ k, (∀ l ∈ lanes s, k ≠ (groupOf s).tk l) → tfind t.threads k = (tfind s.threads k).map (signalled s a k)
  )

/-! ## Floating point and troupes -/

/-- The conversion rule (R184), in integers: a = m × 2^e is not zero, j = floor(log2 a), k and the spacing 2^(k − F.m) are the rule's, and
t is a over the spacing, rounded by the mode. The result has the sign s and the magnitude t × 2^(k − F.m), or, beyond the largest finite
value, that value or infinity, or the NaN of a format without one. A NaN gives the format's own, a zero keeps its sign, and an infinity is
as a value beyond the largest in round to nearest. -/
def Obligations.ConversionRoundsByMode : Prop :=
  ∀ F ∈ [fp32, fp16, bf16, e4m3, e5m2], ∀ (rm : RMode) (sat s : Bool),
    (∀ e : Int, cvt F rm sat .nan = F.nan ∧ cvt F rm sat (.fin s 0 e) = (if s then 2 ^ F.sign else 0)
      ∧ cvt F rm sat (.inf s) = if sat then (if s then 2 ^ F.sign else 0) + F.maxBits else match F.inf with
          | some i => (if s then 2 ^ F.sign else 0) + i
          | none => F.nan)
    ∧ ∀ (m : Nat) (e j : Int) (t : Nat), m ≠ 0 → log2Is m e j → roundsTo rm s m (e - (max j (1 - (F.bias : Int)) - F.m)) t →
    if magnitudeLe t (max j (1 - (F.bias : Int)) - F.m) F then
      ∃ n g, fdecode F (cvt F rm sat (.fin s m e)) = .fin s n g ∧ sameMagnitude n g t (max j (1 - (F.bias : Int)) - F.m)
    else if sat = true ∨ rm = .rtz ∨ (rm = .rdn ∧ s = false) ∨ (rm = .rup ∧ s = true) then
      cvt F rm sat (.fin s m e) = (if s then 2 ^ F.sign else 0) + F.maxBits
    else cvt F rm sat (.fin s m e) = match F.inf with
      | some i => (if s then 2 ^ F.sign else 0) + i
      | none => F.nan

/-- Sums and products are formed exactly before they are rounded (R285): of finite values, in integers at a common exponent. An exact zero
sum is −0 only if both terms are −0 (IEEE 754 in round to nearest even); an infinity, or infinity less itself or times zero, is as IEEE
754 has it. FALU (R285, R182): each operation on the FP32 values of its operands, rounded once; FABS, FNEG and FSGN change bits, but a NaN
gives 0x7FC00000; the compares give 0 on a NaN and take −0 for +0; FCLASS sets the one bit of its class (R286). Packed BF16 (R289): each
half is computed alone, exactly, and rounded once to BF16; a deferred result. -/
def Obligations.FloatArithmeticResults : Prop :=
  (
  (∀ (s t : Bool) (m n : Nat) (e g lo : Int), lo ≤ e → lo ≤ g → ∃ u p h, fadd (.fin s m e) (.fin t n g) = .fin u p h ∧
      (∀ low, low ≤ h → low ≤ lo →
        scaled u p h low = scaled s m e low + scaled t n g low)
      ∧ (scaled s m e lo + scaled t n g lo = 0 → p = 0 ∧ (u = true ↔ m = 0 ∧ n = 0 ∧ s = true ∧ t = true)))
  ∧ (∀ (s t : Bool) (m n : Nat) (e g : Int), fmul (.fin s m e) (.fin t n g) = .fin (s != t) (m * n) (e + g))
  ∧ (∀ x : FVal, fadd .nan x = .nan ∧ fadd x .nan = .nan ∧ fmul .nan x = .nan ∧ fmul x .nan = .nan)
  ∧ (∀ (s t : Bool) (m : Nat) (e : Int), fadd (.inf s) (.fin t m e) = .inf s ∧ fadd (.fin t m e) (.inf s) = .inf s
      ∧ fadd (.inf s) (.inf t) = (if s = t then .inf s else .nan) ∧ fmul (.inf s) (.inf t) = .inf (s != t)
      ∧ fmul (.inf s) (.fin t m e) = (if m = 0 then .nan else .inf (s != t))
      ∧ fmul (.fin t m e) (.inf s) = (if m = 0 then .nan else .inf (s != t)))
  )
  ∧ (
  (∀ e ∈ [(Instr.fadd, fun x y _ => fadd (f32 x) (f32 y)),
          (Instr.fsub, fun x y _ => fadd (f32 x) (fneg (f32 y))),
          (Instr.fmul, fun x y _ => fmul (f32 x) (f32 y)),
          (Instr.fma, fun x y z => fadd (f32 z) (fmul (f32 x) (f32 y))),
          (Instr.fnma, fun x y z => fadd (f32 z) (fmul (fneg (f32 x)) (f32 y))),
          (Instr.fmin, fun x y _ => if isNan x then f32 y else if isNan y then f32 x
            else if floatLt x y || (floatEq x y && x.getLsbD 31) then f32 x else f32 y),
          (Instr.fmax, fun (x y _ : Word) => if isNan x then f32 y else if isNan y then f32 x
            else if floatLt y x || (floatEq x y && y.getLsbD 31) then f32 x else f32 y)],
    ∀ (m : Bool) (d a b : RegNo) (s : State), Ready (e.1 m d a b) s →
      ∃ t, exec (e.1 m d a b) s = .next t
        ∧ Immediate (e.1 m d a b) s t (one d (fun l => BitVec.ofNat 32 (cvt fp32 .rne false (e.2 (reg s l a) (reg s l b) (reg s l d)))))
            (fun _ => next s))
  ∧ (∀ e ∈ [(Instr.fsgn, fun x y => if isNan x then 0x7FC00000 else (x &&& 0x7FFFFFFF) ||| (y &&& 0x80000000)),
            (Instr.feq, fun x y => if floatEq x y then 1 else 0),
            (Instr.flt, fun x y => if floatLt x y then 1 else 0),
            (Instr.fle, fun (x y : Word) => if floatLt x y || floatEq x y then 1 else 0)],
    ∀ (m : Bool) (d a b : RegNo) (s : State), Ready (e.1 m d a b) s →
      ∃ t, exec (e.1 m d a b) s = .next t
        ∧ Immediate (e.1 m d a b) s t (one d (fun l => e.2 (reg s l a) (reg s l b))) (fun _ => next s))
  ∧ (∀ e ∈ [(Instr.fabs, fun x => if isNan x then 0x7FC00000 else x &&& 0x7FFFFFFF),
            (Instr.fneg, fun x => if isNan x then 0x7FC00000 else x ^^^ 0x80000000),
            (Instr.fclass, fun (x : Word) =>
              if isNan x then (if x.getLsbD 22 then 0x200 else 0x100)
              else if x.toNat % 2 ^ 31 = 0x7F800000 then (if x.getLsbD 31 then 0x001 else 0x080)
              else if 0x00800000 ≤ x.toNat % 2 ^ 31 then (if x.getLsbD 31 then 0x002 else 0x040)
              else if x.toNat % 2 ^ 31 ≠ 0 then (if x.getLsbD 31 then 0x004 else 0x020)
              else if x.getLsbD 31 then 0x008 else 0x010)],
    ∀ (m : Bool) (d a : RegNo) (s : State), Ready (e.1 m d a) s →
      ∃ t, exec (e.1 m d a) s = .next t
        ∧ Immediate (e.1 m d a) s t (one d (fun l => e.2 (reg s l a))) (fun _ => next s))
  )
  ∧ (
  ∀ e ∈ [(Instr.badd2, fun x y _ => fadd x y), (Instr.bmul2, fun x y _ => fmul x y),
         (Instr.bfma2, fun x y z => fadd z (fmul x y)),
         (Instr.bmax2, fun (x y _ : FVal) => if x = .nan then y else if y = .nan then x else if flt y x || (feq x y && fsign y) then x else y)],
    ∀ (m : Bool) (d a b : RegNo) (s : State), Ready (e.1 m d a b) s →
      ∃ t, exec (e.1 m d a b) s = .next t ∧ ∃ f : Nat → Word, Pending (e.1 m d a b) s t (one d f)
        ∧ ∀ l h, h < 2 → (f l).toNat / 2 ^ (16 * h) % 2 ^ 16 = cvt bf16 .rne false
            (e.2 (fdecode bf16 ((reg s l a).toNat / 2 ^ (16 * h) % 2 ^ 16)) (fdecode bf16 ((reg s l b).toNat / 2 ^ (16 * h) % 2 ^ 16))
              (fdecode bf16 ((reg s l d).toNat / 2 ^ (16 * h) % 2 ^ 16)))
  )

/-- FCVT (R287, R183 to R186): the narrowing conversions by the mode in B, FTOI and FTON rounded and then clamped, and the exact widening
ones. -/
def Obligations.ConversionResults : Prop :=
  (∀ e ∈ [(Instr.itof, fun (c : BitVec 3) (x : Word) => cvt fp32 (modeOf c) (c.getLsbD 2) (.fin (x.toInt < 0) x.toInt.natAbs 0)),
          (Instr.ntof, fun c x => cvt fp32 (modeOf c) (c.getLsbD 2) (.fin false x.toNat 0)),
          (Instr.f2bf, fun c x => cvt bf16 (modeOf c) (c.getLsbD 2) (f32 x)),
          (Instr.f2h, fun c x => cvt fp16 (modeOf c) (c.getLsbD 2) (f32 x)),
          (Instr.f2e4, fun c x => cvt e4m3 (modeOf c) (c.getLsbD 2) (f32 x)),
          (Instr.f2e5, fun c x => cvt e5m2 (modeOf c) (c.getLsbD 2) (f32 x))],
    ∀ (m : Bool) (d a : RegNo) (c : BitVec 3) (s : State), Ready (e.1 m d a c) s →
      ∃ t, exec (e.1 m d a c) s = .next t
        ∧ Immediate (e.1 m d a c) s t (one d (fun l => BitVec.ofNat 32 (e.2 c (reg s l a)))) (fun _ => next s))
  ∧ (∀ e ∈ [(Instr.ftoi, (-2 ^ 31 : Int), (2 ^ 31 - 1 : Int)), (Instr.fton, (0 : Int), (2 ^ 32 - 1 : Int))],
    ∀ (m : Bool) (d a : RegNo) (c : BitVec 3) (s : State), Ready (e.1 m d a c) s →
      ∃ t, exec (e.1 m d a c) s = .next t ∧ ∃ f : Nat → Word, Immediate (e.1 m d a c) s t (one d f) (fun _ => next s)
        ∧ ∀ l, (isNan (reg s l a) = true → f l = 0)
          ∧ ((reg s l a) = 0x7F800000 → f l = BitVec.ofInt 32 e.2.2) ∧ ((reg s l a) = 0xFF800000 → f l = BitVec.ofInt 32 e.2.1)
          ∧ ∀ (sg : Bool) (n k : Nat) (g : Int), f32 (reg s l a) = .fin sg n g → roundsTo (modeOf c) sg n g k →
              f l = BitVec.ofInt 32 (max e.2.1 (min e.2.2 (if sg then -(k : Int) else k))))
  ∧ (∀ e ∈ [(Instr.bf2f, fun x => x.toNat % 2 ^ 16 * 2 ^ 16),
            (Instr.h2f, fun x => cvt fp32 .rne false (fdecode fp16 (x.toNat % 2 ^ 16))),
            (Instr.e42f, fun x => cvt fp32 .rne false (fdecode e4m3 (x.toNat % 2 ^ 8))),
            (Instr.e52f, fun (x : Word) => cvt fp32 .rne false (fdecode e5m2 (x.toNat % 2 ^ 8)))],
    ∀ (m : Bool) (d a : RegNo) (s : State), Ready (e.1 m d a) s →
      ∃ t, exec (e.1 m d a) s = .next t
        ∧ Immediate (e.1 m d a) s t (one d (fun l => BitVec.ofNat 32 (e.2 (reg s l a)))) (fun _ => next s))

/-- FSPEC (R288): a deferred result that is a function of a alone, with the special values of the rule's table for every operand of its
class: each NaN, zero, infinity and negative value; the exact results at powers of two, where they fit FP32, and of FEXP2 at integers; and
the rule's examples. How the other values are computed is the model's choice of precision (log 13, DESIGN CHOICE). -/
def Obligations.SpecialFunctionResults : Prop :=
  ∀ e ∈ [(Instr.frcp, fun (f : Word → Word) =>
            f 0xFF800000 = 0x80000000 ∧ f 0x80000000 = 0xFF800000 ∧ f 0 = 0x7F800000 ∧ f 0x7F800000 = 0 ∧ f 0x40400000 = 0x3EAAAAAB
              ∧ ∀ x sg k, isPower x sg k → if k < -127 then f x = (if sg then 0xFF800000 else 0x7F800000) else isPower (f x) sg (-k)),
         (Instr.frsq, fun f =>
            f 0xFF800000 = 0x7FC00000 ∧ f 0x80000000 = 0xFF800000 ∧ f 0 = 0x7F800000 ∧ f 0x7F800000 = 0
              ∧ (∀ x, floatLt x 0 = true → f x = 0x7FC00000) ∧ ∀ x k, isPower x false (2 * k) → isPower (f x) false (-k)),
         (Instr.fsqrt, fun f =>
            f 0xFF800000 = 0x7FC00000 ∧ f 0x80000000 = 0x80000000 ∧ f 0 = 0 ∧ f 0x7F800000 = 0x7F800000 ∧ f 0x40000000 = 0x3FB504F3
              ∧ (∀ x, floatLt x 0 = true → f x = 0x7FC00000) ∧ ∀ x k, isPower x false (2 * k) → isPower (f x) false k),
         (Instr.fexp2, fun f =>
            f 0xFF800000 = 0 ∧ f 0x80000000 = 0x3F800000 ∧ f 0 = 0x3F800000 ∧ f 0x7F800000 = 0x7F800000
              ∧ ∀ x n, isInteger x n → if n < -149 then f x = 0 else if 127 < n then f x = 0x7F800000 else isPower (f x) false n),
         (Instr.flog2, fun f =>
            f 0xFF800000 = 0x7FC00000 ∧ f 0x80000000 = 0xFF800000 ∧ f 0 = 0xFF800000 ∧ f 0x7F800000 = 0x7F800000
              ∧ (∀ x, floatLt x 0 = true → f x = 0x7FC00000) ∧ ∀ x n, isPower x false n → isInteger (f x) n ∧ (n = 0 → f x = 0))],
    ∃ f : Word → Word, (∀ x, isNan x = true → f x = 0x7FC00000) ∧ e.2 f
      ∧ ∀ (m : Bool) (d a : RegNo) (s : State), Ready (e.1 m d a) s →
          ∃ t, exec (e.1 m d a) s = .next t ∧ Pending (e.1 m d a) s t (one d (fun l => f (reg s l a)))

/-- RAND and RANDF (R352): Philox-4x32-10 of the key pair A and the counter pair B gives the quad D, or the FP32 value floor(x0 / 2^8) ×
2^−24; deferred. -/
def Obligations.RandomWordsArePhilox : Prop :=
  (∀ (m : Bool) (d a b : RegNo) (s : State), Ready (.rand m d a b) s →
    ∃ t, exec (.rand m d a b) s = .next t ∧ Pending (.rand m d a b) s t (fun l =>
      (List.range 4).map (fun n => (d.toNat + n, (philox10 (reg s l a) (wordAfter s l a) (reg s l b) (wordAfter s l b)).getD n 0))))
  ∧ (∀ (m : Bool) (d a b : RegNo) (s : State), Ready (.randf m d a b) s →
    ∃ t, exec (.randf m d a b) s = .next t ∧ ∃ f : Nat → Word, Pending (.randf m d a b) s t (one d f)
      ∧ ∀ l, ∃ n g, f32 (f l) = .fin false n g
          ∧ sameMagnitude n g (((philox10 (reg s l a) (wordAfter s l a) (reg s l b) (wordAfter s l b)).getD 0 0).toNat / 2 ^ 8) (-24))

/-- Votes, masks, reductions and scans (R291, R292, R294, R295): functions of the lanes that execute, each a deferred result. REDMIN and
REDMAX (R294): the least and the greatest value, read as i32, that an executing lane holds. -/
def Obligations.TroupeReductionResults : Prop :=
  (
  ∀ e ∈ [(fun m d a => Instr.ballot m d a, fun (s : State) (a : RegNo) (_ : Nat) => sumOf (lanes s) (fun k => if reg s k a = 0 then 0 else 2 ^ k)),
         (fun m d a => Instr.vany m d a, fun s a _ => if ∃ k ∈ lanes s, reg s k a ≠ 0 then 1 else 0),
         (fun m d a => Instr.vall m d a, fun s a _ => if ∀ k ∈ lanes s, reg s k a ≠ 0 then 1 else 0),
         (fun m d _ => Instr.lmask m d, fun s _ _ => sumOf (lanes s) (fun k => 2 ^ k)),
         (fun m d a => Instr.redadd m d a, fun s a _ => sumOf (lanes s) (fun k => (reg s k a).toNat)),
         (fun m d a => Instr.scanadd m d a, fun s a l => sumOf ((lanes s).filter (fun k => k ≤ l)) (fun k => (reg s k a).toNat)),
         (fun m d a => Instr.scanaddx m d a, fun s a l => sumOf ((lanes s).filter (fun k => k < l)) (fun k => (reg s k a).toNat)),
         (fun m d a => Instr.redfadd m d a, fun s a _ => (treeOf (fun k => if k ∈ lanes s then reg s k a else 0) 5 0).toNat)],
    ∀ (m : Bool) (d a : RegNo) (s : State), Ready (e.1 m d a) s →
      ∃ t, exec (e.1 m d a) s = .next t ∧ Pending (e.1 m d a) s t (one d (fun l => BitVec.ofNat 32 (e.2 s a l)))
  )
  ∧ (
  ∀ e ∈ [(Instr.redmin, fun (x y : Word) => x.toInt ≤ y.toInt), (Instr.redmax, fun x y => y.toInt ≤ x.toInt)],
    ∀ (m : Bool) (d a : RegNo) (s : State), Ready (e.1 m d a) s →
      ∃ t, exec (e.1 m d a) s = .next t ∧ ∃ v : Word, Pending (e.1 m d a) s t (one d (fun _ => v))
        ∧ ∀ k ∈ lanes s, e.2 v (reg s k a) ∧ ∃ j ∈ lanes s, v = reg s j a
  )

/-- Shuffles (R293, R291): each lane receives the register of its source lane, executing or not: 0 where no thread is live, and otherwise
what every earlier instruction of that thread leaves there; a lane whose source falls outside 0 to 31 keeps its own. While such a result
is still to come from a ticket, or to be written to a k or c register, the instruction is held and nothing else changes. MOVIX and MOVIXW
(R296, R134): the register whose number is a lane's own value, through its own window, as a deferred result. A lane whose number is above
127 traps WINDOW; when a lane of a MOVIXW names a k register, every lane traps WINDOW with its own number; and where the register that
each lane names is outstanding, each traps HAZARD with its number, before any other check of its own (R138, R259). -/
def Obligations.ShufflesAndIndexedMoves : Prop :=
  (
  ∀ e ∈ [(Instr.shfl, fun _ n => n), (Instr.shflx, fun l n => l ^^^ n),
         (Instr.shflup, fun l n => if n ≤ l then l - n else l), (Instr.shfldn, fun (l n : Nat) => if l + n ≤ 31 then l + n else l)],
    ∀ (m : Bool) (d a b : RegNo) (s : State), Ready (e.1 m d a b) s →
      ((∀ l ∈ lanes s, (seen s a (e.2 l ((reg s l b).toNat % 32))).isSome = true) →
        ∃ t, exec (e.1 m d a b) s = .next t
          ∧ Pending (e.1 m d a b) s t (one d (fun l => (seen s a (e.2 l ((reg s l b).toNat % 32))).getD 0)))
      ∧ ((∃ l ∈ lanes s, seen s a (e.2 l ((reg s l b).toNat % 32)) = none) →
        exec (e.1 m d a b) s = .next { s with issue := none })
  )
  ∧ (
  (∀ (m : Bool) (d a : RegNo) (s : State), Ready (.movix m d a) s →
    ∃ t, exec (.movix m d a) s = .next t
      ∧ ((∀ l ∈ lanes s, (reg s l a).toNat ≤ 127) →
          Pending (.movix m d a) s t (one d (fun l => readReg s (groupOf s) l (reg s l a).toNat)))
      ∧ ∀ l ∈ lanes s, handlerServes s l = true → 127 < (reg s l a).toNat → LaneTrapped s t l .window ((reg s l a).setWidth 64))
  ∧ (∀ (m : Bool) (d a : RegNo) (s : State), Ready (.movixw m d a) s →
    ∃ t, exec (.movixw m d a) s = .next t
      ∧ ((∀ l ∈ lanes s, ((reg s l d).toNat < 112 ∨ 119 < (reg s l d).toNat) ∧ (reg s l d).toNat ≤ 127
            ∧ ((lane s l).region = none ∨ (reg s l d).toNat < 112)) →
          Pending (.movixw m d a) s t (fun l => [((reg s l d).toNat, reg s l a)]))
      ∧ ∀ l ∈ lanes s, handlerServes s l = true →
          (127 < (reg s l d).toNat → LaneTrapped s t l .window ((reg s l d).setWidth 64))
            ∧ ((∃ k ∈ lanes s, 112 ≤ (reg s k d).toNat ∧ (reg s k d).toNat ≤ 119) → LaneTrapped s t l .window ((reg s l d).setWidth 64)))
  ∧ ∀ e ∈ [(fun m d a => Instr.movix m d a, fun (_ : RegNo) (a : RegNo) => a), (fun m d a => Instr.movixw m d a, fun d _ => d)],
    ∀ (m : Bool) (d a : RegNo) (s : State), (e.1 m d a).wellFormed = true → lanes s ≠ [] →
    (∀ l ∈ lanes s, handlerServes s l = true ∧ noHazard (lane s l) (e.1 m d a) = true ∧ (reg s l (e.2 d a)).toNat ≤ 127
      ∧ outstanding (lane s l) (reg s l (e.2 d a)).toNat = true) →
    ∃ t, exec (e.1 m d a) s = .next t ∧ Trapped s t .hazard (fun l => (reg s l (e.2 d a)).setWidth 64)
  )

/-- DXQ and DXD (R290, R190, R191): DXQ quantises the values of lanes 0 to 15 as block 0 and of lanes 16 to 31 as block 1, a lane that
does not execute giving +0: the least exponent that holds every magnitude, a micro bit for a pair whose magnitudes fit half the range, and
each magnitude over its step, rounded to nearest even and held at Mmax. Each executing lane receives its word of the layout. DXD reads the
words of lanes 0 to n − 1 and 16, and each executing lane receives its element's value. -/
def Obligations.BlockQuantisationAcrossLanes : Prop :=
  (∀ (m : Bool) (d a : RegNo) (f : BitVec 2) (s : State), Ready (.dxq m d a f) s →
    ∃ t, exec (.dxq m d a f) s = .next t ∧ ∃ b : Nat → Block,
      (∀ n, n < 2 → Quantises f.toNat (fun j => if 16 * n + j ∈ lanes s then f32 (reg s (16 * n + j) a) else .fin false 0 0) (b n))
      ∧ Pending (.dxq m d a f) s t (one d (fun l =>
          if l < planeWords f then BitVec.ofNat 32 ((planeOf f.toNat (b 0) + planeOf f.toNat (b 1) * 2 ^ (16 * planeWords f)) / 2 ^ (32 * l))
          else if l = 16 then BitVec.ofNat 32 ((b 0).exp + microByte (b 0) * 2 ^ 8 + (b 1).exp * 2 ^ 16 + microByte (b 1) * 2 ^ 24)
          else 0)))
  ∧ (∀ (m : Bool) (d a : RegNo) (f : BitVec 2) (s : State), Ready (.dxd m d a f) s →
      (∀ j, j < planeWords f ∨ j = 16 → (seen s a j).isSome = true) →
    ∃ t, exec (.dxd m d a f) s = .next t ∧ ∃ g : Nat → Word, Pending (.dxd m d a f) s t (one d g)
      ∧ ∀ l ∈ lanes s, Dequantises f.toNat
          (sumOf (List.range (planeWords f)) (fun k => ((seen s a k).getD 0).toNat * 2 ^ (32 * k)) / 2 ^ (16 * planeWords f * (l / 16))
            / 2 ^ (planeWords f * (l % 16)) % 2 ^ planeWords f)
          (((seen s a 16).getD 0).toNat / 2 ^ (16 * (l / 16)) % 2 ^ 8)
          (((seen s a 16).getD 0).toNat / 2 ^ (16 * (l / 16) + 8) / 2 ^ (l % 16 / 2) % 2) (g l))

/-! ## Memory -/

/-- LDS and STS below 0x8000_0000 (R301, R149, R299): where no byte of scratch is spoiled, a load's registers receive the bytes at its
offset, widened; after a store each byte that it covers holds the stored byte, the highest lane's where lanes overlap (R162), and every
other byte is as before. Scratch accesses past the allocation trap SCRATCH_LIMIT with the offset, and one that touches an absent line
waits for it, and nothing of its bytes moves (R149, R301). LDS and STS from 0x8000_0000 up reach the register aperture (R301, R135): a
load receives the registers named, where none is spoiled, and a store by one lane, where no region is open, writes them; an access that is
not of whole aligned registers traps ALIGN, and one that leaves the class's registers or positions traps SCRATCH_LIMIT. -/
def Obligations.ScratchAndApertureAccesses : Prop :=
  (
  (∀ (m : Bool) (d a : RegNo) (w : BitVec 3) (h : BitVec 2) (o : BitVec 6) (s : State), Ready (.lds m d a w h o) s →
    s.badScratch = [] → (∀ l ∈ lanes s, inScratch s (scratchOffset s l a w o) (accessBytes w)) →
    ∃ t, exec (.lds m d a w h o) s = .next t ∧ Pending (.lds m d a w h o) s t (fun l =>
      loadedWords w d (fun j => rd8 s.scratch (scratchKey (groupOf s).ck (scratchOffset s l a w o + j)))))
  ∧ (∀ (m : Bool) (d a : RegNo) (w : BitVec 3) (h : BitVec 2) (o : BitVec 6) (s : State), Ready (.sts m d a w h o) s →
    (∀ l ∈ lanes s, inScratch s (scratchOffset s l a w o) (accessBytes w)) →
    ∃ t, exec (.sts m d a w h o) s = .next t ∧ OnlyScratch s t
      ∧ Threads s t (fun l => completed m (next s) (recorded (.sts m d a w h o) s l))
      ∧ ∀ k, rd8 t.scratch k =
          match ((lanes s).filter (fun l => decide (scratchKey (groupOf s).ck (scratchOffset s l a w o) ≤ k)
              && decide (k < scratchKey (groupOf s).ck (scratchOffset s l a w o) + accessBytes w))).getLast? with
          | some l => storedByte s l d (k - scratchKey (groupOf s).ck (scratchOffset s l a w o))
          | none => rd8 s.scratch k)
  )
  ∧ (
  ∀ e ∈ [Instr.lds, Instr.sts], ∀ (m : Bool) (d a : RegNo) (w : BitVec 3) (h : BitVec 2) (o : BitVec 6) (s : State),
    Ready (e m d a w h o) s → ∃ t, exec (e m d a w h o) s = .next t ∧ ∀ l ∈ lanes s, scratchOffset s l a w o < 2 ^ 31 →
      ((launchOf s (groupOf s).ck).scratch < scratchOffset s l a w o + accessBytes w → handlerServes s l = true →
        tfind t.threads ((groupOf s).tk l) = some (inTrap s .scratchLimit (BitVec.ofNat 64 (scratchOffset s l a w o)) (lane s l)))
      ∧ (scratchOffset s l a w o + accessBytes w ≤ (launchOf s (groupOf s).ck).scratch →
        (∃ j, j < accessBytes w ∧ absentAt s (groupOf s).ck ((scratchOffset s l a w o + j) / 128) ≠ 0) →
        ∃ ln, Waits (.absent (groupOf s).ck ln) (lane s l) (after s t l) ∧ absentAt s (groupOf s).ck ln ≠ 0)
  )
  ∧ (
  (∀ (m : Bool) (d a : RegNo) (w : BitVec 3) (h : BitVec 2) (o : BitVec 6) (s : State), Ready (.lds m d a w h o) s →
    s.badRegs = [] → (∀ l ∈ lanes s, apertureRegs s (scratchOffset s l a w o) (accessBytes w)) →
    ∃ t, exec (.lds m d a w h o) s = .next t ∧ Pending (.lds m d a w h o) s t (fun l =>
      (List.range (accessBytes w / 4)).map (fun k => (d.toNat + k, tget 0 s.regs (apertureReg s ((scratchOffset s l a w o - 2 ^ 31) / 4 + k))))))
  ∧ (∀ (m : Bool) (d a : RegNo) (w : BitVec 3) (h : BitVec 2) (o : BitVec 6) (s : State) (l : Nat), Ready (.sts m d a w h o) s →
    lanes s = [l] → apertureRegs s (scratchOffset s l a w o) (accessBytes w) → (∀ x ∈ s.threads, x.2.region = none) →
    ∃ t, exec (.sts m d a w h o) s = .next t
      ∧ t = { s with regs := t.regs, badRegs := t.badRegs, threads := t.threads, issue := none, issueSeq := s.issueSeq + 1 }
      ∧ Threads s t (fun l => completed m (next s) (recorded (.sts m d a w h o) s l))
      ∧ (∀ k, k < accessBytes w / 4 → tget 0 t.regs (apertureReg s ((scratchOffset s l a w o - 2 ^ 31) / 4 + k)) = readReg s (groupOf s) l (d.toNat + k))
      ∧ ∀ r, (∀ k, k < accessBytes w / 4 → r ≠ apertureReg s ((scratchOffset s l a w o - 2 ^ 31) / 4 + k)) → tget 0 t.regs r = tget 0 s.regs r)
  ∧ (∀ e ∈ [Instr.lds, Instr.sts], ∀ (m : Bool) (d a : RegNo) (w : BitVec 3) (h : BitVec 2) (o : BitVec 6) (s : State),
    Ready (e m d a w h o) s → ∃ t, exec (e m d a w h o) s = .next t ∧ ∀ l ∈ lanes s, handlerServes s l = true →
      2 ^ 31 ≤ scratchOffset s l a w o →
      (scratchOffset s l a w o % 4 ≠ 0 ∨ accessBytes w < 4 →
        tfind t.threads ((groupOf s).tk l) = some (inTrap s .align (BitVec.ofNat 64 (scratchOffset s l a w o)) (lane s l)))
      ∧ (scratchOffset s l a w o % 4 = 0 → 4 ≤ accessBytes w → ¬ apertureRegs s (scratchOffset s l a w o) (accessBytes w) →
        tfind t.threads ((groupOf s).tk l) = some (inTrap s .scratchLimit (BitVec.ofNat 64 (scratchOffset s l a w o)) (lane s l))))
  )

/-- LDP and STP (R302, R150): the lanes in ascending order reach their threads' segments; the offset is exact, natural alignment is asked
up to 4 bytes, and an access past cw.plimit traps STACK_LIMIT; that ALIGN's cw.tval is the offset's 32 bits is the model's reading (log
28, DEDUCED). An aligned access within the segment, where no byte of memory is spoiled, completes: it loads or stores its words, each at
its own place: byte o of a segment lies at (floor(o / 4) × 32 + lane) × 4 + o mod 4 from its base. -/
def Obligations.PrivateSegmentAccesses : Prop :=
  (∀ (m : Bool) (d a : RegNo) (w : BitVec 3) (h : BitVec 2) (o : BitVec 6) (s : State), Ready (.ldp m d a w h o) s →
    let q := inOrder (fun s' l => ownAccess s' (groupOf s).ck (groupOf s).p l (segmentOffset s l a w o) (accessBytes w) .load) (issued s) (lanes s)
    plainAccess s (isK d) q →
    ∃ t, exec (.ldp m d a w h o) s = .next t
      ∧ Accessed (.ldp m d a w h o) s t (fun bs => loadedWords w d (fun j => bs.getD j 0)) q)
  ∧ (∀ (m : Bool) (d a : RegNo) (w : BitVec 3) (h : BitVec 2) (o : BitVec 6) (s : State), Ready (.stp m d a w h o) s →
    let q := inOrder (fun s' l => ownAccess s' (groupOf s).ck (groupOf s).p l (segmentOffset s l a w o) (accessBytes w)
      (.store (storedBytes s l d w))) (issued s) (lanes s)
    plainAccess s false q →
    ∃ t, exec (.stp m d a w h o) s = .next t ∧ Accessed (.stp m d a w h o) s t (fun _ => []) q)
  ∧ (∀ (m : Bool) (d a : RegNo) (w : BitVec 3) (h : BitVec 2) (o : BitVec 6) (s : State), Ready (.ldp m d a w h o) s → noRegion s → unspoiled s →
    (∀ l ∈ lanes s, inSegment s (groupOf s).ck (segmentOffset s l a w o) (accessBytes w)) →
    let q := inOrder (fun s' l => segmentLoad s' (groupOf s).ck (groupOf s).p l (segmentOffset s l a w o).toNat (accessBytes w)) (issued s) (lanes s)
    ∃ t, exec (.ldp m d a w h o) s = .next t ∧ Loaded (.ldp m d a w h o) s t w d q)
  ∧ (∀ (m : Bool) (d a : RegNo) (w : BitVec 3) (h : BitVec 2) (o : BitVec 6) (s : State), Ready (.stp m d a w h o) s → noRegion s →
    (∀ l ∈ lanes s, inSegment s (groupOf s).ck (segmentOffset s l a w o) (accessBytes w)) →
    ∃ t, exec (.stp m d a w h o) s = .next t ∧ Stored (.stp m d a w h o) s t
      (eachLane (fun s' l => segmentStore s' (groupOf s).ck (groupOf s).p l (segmentOffset s l a w o).toNat (storedBytes s l d w)) s))
  ∧ (∀ (s : State) (ck p l n : Nat) (o : Int) (op : AccessOp),
      (o % (min n 4 : Nat) ≠ 0 → ownAccess s ck p l o n op = (s, .trap .align ((BitVec.ofInt 32 o).setWidth 64)))
      ∧ (o % (min n 4 : Nat) = 0 → (o < 0 ∨ ((launchOf s ck).ownBytes : Int) < o + n) →
          ownAccess s ck p l o n op = (s, .trap .stackLimit ((BitVec.ofInt 32 o).setWidth 64)))
      ∧ ∀ b, (ownPlace s ck p l b).pa = tget 0 (clsAt s ck).segBase p + (b / 4 * 32 + l) * 4 + b % 4
          ∧ (ownPlace s ck p l b).host = false ∧ (ownPlace s ck p l b).mc = 0)

/-- LDG and STG (R298): the lanes in ascending order reach their addresses, which are checked for bits 63:48, then for the scratch
aperture, then translated; a load's registers receive its bytes widened by W (R299). Within a line that the core's TLB translates and
permits, where no byte of memory is spoiled, an access completes: a load is that of its line, with the tag of its class for .ro, and a
store of its line issues, for .wt to be written to the home too. A load's result, while it is pending, may yet take what memory holds
later, and a store is performed by the core's next access of its line (R167, R172; log 59, DEDUCED). A line that no cache holds, with no
write to it on its way, gives its home's bytes; after a store the issuing core's copy holds the bytes, dirty, and .wt leaves them at the
home of device memory. -/
def Obligations.GlobalLoadsAndStores : Prop :=
  (∀ (m : Bool) (d a : RegNo) (w : BitVec 3) (h : BitVec 2) (o : BitVec 6) (s : State), Ready (.ldg m d a w h o) s →
    let q := inOrder (fun s' l => globalStep s (h == 1) (globalAddress s l a w o) (accessBytes w) .load s') (issued s) (lanes s)
    plainAccess s (isK d) q →
    ∃ t late, exec (.ldg m d a w h o) s = .next t
      ∧ Accessed (.ldg m d a w h o) s { t with lateLoads := q.1.lateLoads } (fun bs => loadedWords w d (fun j => bs.getD j 0)) q
      ∧ t.lateLoads = q.1.lateLoads ++ late
      ∧ ∀ e ∈ late, e.core = coreOf s (groupOf s).ck ∧ e.seq = s.issueSeq + 1 ∧ ∃ l ∈ lanes s, e.tk = (groupOf s).tk l)
  ∧ (∀ (m : Bool) (d a : RegNo) (w : BitVec 3) (h : BitVec 2) (o : BitVec 6) (s : State), Ready (.stg m d a w h o) s →
    let q := inOrder (fun s' l => globalStep s (h == 1) (globalAddress s l a w o) (accessBytes w) (.store (storedBytes s l d w)) s')
      (issued s) (lanes s)
    plainAccess s false q →
    ∃ t, exec (.stg m d a w h o) s = .next t ∧ Accessed (.stg m d a w h o) s t (fun _ => []) q)
  ∧ (∀ (m : Bool) (d a : RegNo) (w : BitVec 3) (h : BitVec 2) (o : BitVec 6) (s : State) (pl : Nat → Place), Ready (.ldg m d a w h o) s →
    noRegion s → unspoiled s → (∀ l ∈ lanes s, Reaches s (globalAddress s l a w o) (accessBytes w) .read (pl l)) →
    let core := coreOf s (groupOf s).ck; let ro := if h = 1 then some (groupOf s).ck else none
    let q := inOrder (fun s' l => loadLine s' core (pl l) ro (accessBytes w)) (issued s) (lanes s)
    ∃ t, exec (.ldg m d a w h o) s = .next t ∧ Loaded (.ldg m d a w h o) s { t with lateLoads := q.1.lateLoads } w d q
      ∧ (d ≠ 0 → t.lateLoads = q.1.lateLoads
          ++ (lanes s).map (fun l => ⟨(groupOf s).tk l, core, s.issueSeq + 1, ro, w, d.toNat, [(pl l, accessBytes w)]⟩)))
  ∧ (∀ (m : Bool) (d a : RegNo) (w : BitVec 3) (h : BitVec 2) (o : BitVec 6) (s : State) (pl : Nat → Place), Ready (.stg m d a w h o) s →
    noRegion s → (∀ l ∈ lanes s, Reaches s (globalAddress s l a w o) (accessBytes w) .write (pl l)) →
    ∃ t, exec (.stg m d a w h o) s = .next t ∧ Stored (.stg m d a w h o) s t
      (eachLane (fun s' l => issueStore s' (coreOf s (groupOf s).ck) (pl l) (h == 1) (storedBytes s l d w)) s))
  ∧ (∀ (s : State) (c : Nat) (pl : Place) (wt : Bool) (bs : List Byte),
      (issueStore s c pl wt bs).lateStores = s.lateStores ++ [⟨c, pl, wt, bs, s.timebase⟩]
      ∧ (issueStore s c pl wt bs).l1 = s.l1 ∧ (issueStore s c pl wt bs).dmem = s.dmem ∧ (issueStore s c pl wt bs).hmem = s.hmem
      ∧ inTurn (issueStore s c pl wt bs) c pl = inTurn (storeLine s c pl wt bs) c pl)
  ∧ (∀ (s : State) (c n : Nat) (pl : Place) (ro : Option Nat), pl.pa < 2 ^ 60 → pl.pa % 128 + n ≤ 128 → holders s pl.host (pl.pa / 128) = [] →
      settledAt s c pl → tfind s.early (lineKey c pl.host (pl.pa / 128)) = none → tfind s.rdc (rdcKey (c / 64) (pl.pa / 128)) = none → s.passing = [] →
      (loadLine s c pl ro n).2 = (List.range n).map (fun j => rd8 (if pl.host then s.hmem else s.dmem) (pl.pa + j)))
  ∧ (∀ (s : State) (c : Nat) (pl : Place) (wt : Bool) (bs : List Byte), pl.pa < 2 ^ 60 → pl.pa % 128 + bs.length ≤ 128 → goodLines s = true →
      pl.mc ≤ 2 → (pl.host = true ↔ pl.mc = 2) → (pl.host = true → linksUp s = true) → settledAt s c pl →
      ∃ ln, tfind (storeLine s c pl wt bs).l1 (lineKey c pl.host (pl.pa / 128)) = some ln
        ∧ (∀ j, j < bs.length → ln.bytes.getD (pl.pa % 128 + j) 0 = bs.getD j 0)
        ∧ (if wt = true ∧ pl.host = false then ln.dirty = List.replicate 128 false
              ∧ ∀ j, j < bs.length → rd8 (storeLine s c pl wt bs).dmem (pl.pa + j) = bs.getD j 0
           else ∀ j, j < bs.length → ln.dirty.getD (pl.pa % 128 + j) false = true))

/-- A core reads its own unreleased stores (R155): after a store within one line, a load of the same bytes by the same core gives them,
and every other byte of the line reads as it did; so does every byte once the line is made ready to be written, with no write on its way
and no copy in the die's remote-data cache but of a PHASED line. A store to a COHERENT or HOST line, once performed, is seen by every core
at once (R158, R159, R160): with no write to the line under way, a core that holds no copy read ahead of it, and has no store of its own
to it to perform, loads the stored bytes, whichever core stored them, whether that core already held the line for writing, alone, or not. -/
def Obligations.StoreThenLoadOnOneCore : Prop :=
  (
  (∀ (s : State) (c : Nat) (pl : Place) (wt : Bool) (ro : Option Nat) (bs : List Byte), pl.pa < 2 ^ 60 → pl.pa % 128 + bs.length ≤ 128 → bs ≠ [] →
    goodLines s = true → pl.mc ≤ 2 → (pl.host = true ↔ pl.mc = 2) → (wt = true → linksUp s = true) → settledAt s c pl →
    (loadLine (storeLine s c pl wt bs) c pl ro bs.length).2 = bs
      ∧ ∀ a, a / 128 = pl.pa / 128 → (a < pl.pa ∨ pl.pa + bs.length ≤ a) →
          (loadLine (storeLine s c pl wt bs) c { pl with pa := a } none 1).2
            = (loadLine (readyToWrite (inTurn s c pl) c pl) c { pl with pa := a } none 1).2)
  ∧ ∀ (s : State) (c a : Nat) (pl : Place), pl.pa < 2 ^ 60 → a / 128 = pl.pa / 128 → goodLines s = true → pl.mc ≤ 2 → (pl.host = true ↔ pl.mc = 2) →
    s.passing = [] → (pl.mc = 0 ∨ tfind s.rdc (rdcKey (c / 64) (pl.pa / 128)) = none) → settledAt s c pl →
    (loadNow (readyToWrite (inTurn s c pl) c pl) c { pl with pa := a } none 1).2 = (loadNow s c { pl with pa := a } none 1).2
  )
  ∧ (
  ∀ (s : State) (c k : Nat) (pl : Place) (bs : List Byte), pl.mc = 1 ∨ pl.mc = 2 → (pl.host = true ↔ pl.mc = 2) → pl.pa < 2 ^ 60 →
    pl.pa % 128 + bs.length ≤ 128 → bs ≠ [] → goodLines s = true → linksUp s = true → s.passing = [] → (holdsToken s c pl = true → soleCopy s c pl) →
    tfind s.early (lineKey k pl.host (pl.pa / 128)) = none → settledAt s c pl → settledAt s k pl →
    (loadLine (storeLine s c pl false bs) k pl none bs.length).2 = bs
  )

/-- A store released at a scope by one core is read by another that acquires after it (R155, R168): the litmus of message passing on a
PHASED line, at every scope from .cluster up for cores of one die and from .die up, for the acquire, for others. The other core holds no
dirty byte of the line, neither its copy nor its die's carries the tag that its phase takes next, which the sweep sees to (R156), no other
die has a write to the line on its way (log 6, DESIGN CHOICE, for when one arrives), and neither core has another store to it to perform.
The actions of a release and of an acquire by scope (R155, R127, R167, R168): at .lane neither does anything; from .troupe up a release
performs what the core has issued, and an acquire ends what the core has read ahead, for the whole core (log 59, DEDUCED); from .cluster
up a release leaves no dirty PHASED byte in the core and no write of its die on its way, and touches no other core's L1 further; an
acquire advances the core's phase, and from .die up that of its die's remote-data cache, and empties the core's instruction cache. -/
def Obligations.ReleaseAcquirePassesMessages : Prop :=
  (
  ∀ (s : State) (c k rel acq : Nat) (pl : Place) (bs : List Byte), c ≠ k → 3 ≤ rel → 3 ≤ acq → (c / 64 = k / 64 ∨ 4 ≤ acq) →
    pl.host = false → pl.mc = 0 → pl.pa < 2 ^ 60 → pl.pa % 128 + bs.length ≤ 128 → bs ≠ [] →
    goodLines s = true → canonicalKeys s.l1 = true → canonicalKeys s.rdc = true →
    (∀ ln, tfind s.l1 (lineKey k false (pl.pa / 128)) = some ln →
      ln.mc = 0 ∧ ln.dirty = List.replicate 128 false ∧ ln.tag ≠ (corePhaseAt s k).p + 1) →
    (c / 64 ≠ k / 64 → ∀ r, tfind s.rdc (rdcKey (k / 64) (pl.pa / 128)) = some r → r.tag ≠ (rdcPhaseAt s (k / 64)).p + 1) →
    (∀ ln, tfind s.l1 (lineKey c false (pl.pa / 128)) = some ln → ln.mc = 0) →
    (∀ w ∈ s.passing, w.line = pl.pa / 128 → w.die = c / 64) → settledAt s c pl → settledAt s k pl →
    (∀ e ∈ s.lateStores, e.pl.pa < 2 ^ 60) →
    (loadLine (acquireAt (releaseAt (storeLine s c pl false bs) c rel) k acq) k pl none bs.length).2 = bs
  )
  ∧ (
  ∀ (s : State) (c scope : Nat), let u := settleCore s c
    (∀ e, e ∈ u.lateStores ↔ e ∈ s.lateStores ∧ e.core ≠ c) ∧ (∀ e ∈ u.lateLoads, e.core ≠ c)
    ∧ (scope = 0 → releaseAt s c scope = s) ∧ (scope = 1 ∨ scope = 2 → releaseAt s c scope = u)
    ∧ (3 ≤ scope → canonicalKeys u.l1 = true → (∀ x ∈ u.l1, x.2.mc = 0 → hostOfLine x.1 = false) →
        (∀ x ∈ (releaseAt s c scope).l1, coreOfLine x.1 = c → x.2.mc = 0 → ∀ j, x.2.dirty.getD j false = false)
        ∧ (∀ w ∈ (releaseAt s c scope).passing, w.die ≠ c / 64)
        ∧ (releaseAt s c scope).lateStores = u.lateStores
        ∧ ∀ x, coreOfLine x ≠ c → tfind (releaseAt s c scope).l1 x = tfind u.l1 x)
    ∧ (let t := acquireAt s c scope
       t = { s with early := t.early, corePhase := t.corePhase, rdcPhase := t.rdcPhase, icache := t.icache }
       ∧ (∀ x, tfind t.early x = if 1 ≤ scope ∧ coreOfLine x = c then none else tfind s.early x)
       ∧ (∀ x, corePhaseAt t x = if 3 ≤ scope ∧ x = c then ⟨(corePhaseAt s c).p + 1, true⟩ else corePhaseAt s x)
       ∧ (∀ x, rdcPhaseAt t x = if 4 ≤ scope ∧ x = c / 64 then ⟨(rdcPhaseAt s (c / 64)).p + 1, true⟩ else rdcPhaseAt s x)
       ∧ ∀ x, tfind t.icache x = if 4 ≤ scope ∧ x / 2 ^ 60 = c then none else tfind s.icache x)
  )

/-- Cache control (R304): CWB leaves the line's dirty bytes at the home and the copy clean; CINV drops a line that has no dirty byte and
keeps the dirty bytes of one that has; CFLUSH does what CWB does and drops the line; PF fills the line. Wherever every lane's address is
translated by the core's TLB, the four complete, with each lane's effect in ascending order; PF completes in every case, and an address in
the scratch aperture has no effect. What cache control does to a line (R304, R148, R153), with no write on its way and no store of the
core to it to perform: dirty bytes of a PHASED or COHERENT line of device memory, and while the links are up of a HOST line, reach the
home byte by byte, and no other byte of memory changes; the remote-data copy of its die takes them, or is dropped by CINV and CFLUSH; a
clean HOST line is dropped by CINV, and one in M left; PF leaves the line present; every other line of the core, and every copy of another
core, is as before, but for the clean copies that a coherent fill leaves (R158). -/
def Obligations.CacheControlEffects : Prop :=
  (
  (∀ e ∈ [(Instr.cwb, cwbLine), (Instr.cinv, cinvLine), (Instr.cflush, cflushLine), (Instr.pf, fun s c pl => fillLine s c pl none)],
    ∀ (m : Bool) (a : RegNo) (s : State), Ready (e.1 m a) s →
      (∀ pl : Nat → Place, (∀ l ∈ lanes s, Reaches s (pair s l a).toNat 1 .read (pl l)) →
        ∃ t, exec (e.1 m a) s = .next t
          ∧ Stored (e.1 m a) s t (eachLane (fun s' l => e.2 s' (coreOf s (groupOf s).ck) (pl l)) s))
      ∧ ((∀ l ∈ lanes s, 0xFE0000000000 ≤ (pair s l a).toNat ∧ (pair s l a).toNat < 0xFE0000000000 + 2 ^ 32) →
        ∃ t, exec (e.1 m a) s = .next t ∧ Immediate (e.1 m a) s t nothing (fun _ => next s)))
  ∧ (∀ (m : Bool) (a : RegNo) (s : State), Ready (.pf m a) s →
      ∃ t, exec (.pf m a) s = .next t ∧ Threads s t (fun l => completed m (next s) (recorded (.pf m a) s l)))
  )
  ∧ (
  (∀ (s : State) (c : Nat) (pl : Place) (ln : L1Line), tfind s.l1 (lineKey c pl.host (pl.pa / 128)) = some ln →
    ln.bytes.length = 128 → ln.dirty.length = 128 → pl.pa < 2 ^ 60 → s.passing = [] → settledAt s c pl → (pl.host = true → linksUp s = true) →
    let home (t : State) : Memory := if pl.host then t.hmem else t.dmem
    (∀ f ∈ [cwbLine, cflushLine], ∀ x, rd8 (home (f s c pl)) x =
        if x / 128 = pl.pa / 128 ∧ ln.dirty.getD (x % 128) false = true then ln.bytes.getD (x % 128) 0 else rd8 (home s) x)
      ∧ (∀ f ∈ [cwbLine, cinvLine, cflushLine], if pl.host then (f s c pl).dmem = s.dmem else (f s c pl).hmem = s.hmem)
      ∧ (∀ x, rd8 (home (cinvLine s c pl)) x = rd8 (home s) x)
      ∧ (∃ n, tfind (cwbLine s c pl).l1 (lineKey c pl.host (pl.pa / 128)) = some n ∧ n.bytes = ln.bytes ∧ n.dirty = List.replicate 128 false)
      ∧ tfind (cflushLine s c pl).l1 (lineKey c pl.host (pl.pa / 128)) = none
      ∧ (if ln.dirty = List.replicate 128 false then tfind (cinvLine s c pl).l1 (lineKey c pl.host (pl.pa / 128)) = none
         else if pl.host then (cinvLine s c pl).l1 = s.l1
         else ∃ n, tfind (cinvLine s c pl).l1 (lineKey c false (pl.pa / 128)) = some n ∧ n.bytes = ln.bytes ∧ n.dirty = ln.dirty ∧ n.valid = false)
      ∧ (pl.host = false →
          (∀ r, tfind s.rdc (rdcKey (c / 64) (pl.pa / 128)) = some r → r.bytes.length = 128 →
            ∃ u, tfind (cwbLine s c pl).rdc (rdcKey (c / 64) (pl.pa / 128)) = some u
              ∧ ∀ j, j < 128 → u.bytes.getD j 0 = if ln.dirty.getD j false then ln.bytes.getD j 0 else r.bytes.getD j 0)
          ∧ ∀ f ∈ [cinvLine, cflushLine], tfind (f s c pl).rdc (rdcKey (c / 64) (pl.pa / 128)) = none))
  ∧ (∀ (s : State) (c : Nat) (pl : Place) (x : Nat), x ≠ lineKey c pl.host (pl.pa / 128) → settledAt s c pl →
      ∀ f ∈ [cwbLine, cinvLine, cflushLine], tfind (f s c pl).l1 x = tfind s.l1 x)
  ∧ (∀ (s : State) (c : Nat) (pl : Place), pl.pa < 2 ^ 60 → unspoiled s →
      (∃ ln, tfind (fillLine s c pl none).l1 (lineKey c pl.host (pl.pa / 128)) = some ln ∧ lineHits (fillLine s c pl none) c none ln = true)
      ∧ ∀ x, x ≠ lineKey c pl.host (pl.pa / 128) → (pl.mc = 0 ∨ hostOfLine x ≠ pl.host ∨ lineOfKey x ≠ pl.pa / 128) →
          tfind (fillLine s c pl none).l1 x = tfind s.l1 x)
  )

/-- Atomics (R305, R306, R308): the lanes in ascending order, each applied to the value that the one before left; each receives the old
value, unless D names pair 0, and the location takes the operation's value. The 26 operations in order. On aligned locations that the
core's TLB translates and permits, with no byte of memory spoiled, and on aligned locations of the class's scratch, each completes in
every lane. Where an atomic runs (R163, R307): on scratch in the unified store; in memory near, in the issuing core's L1, whose copy then
holds the new value, or far, at the home slice. A PHASED location's is near at .core and far at wider scopes, a HOST location's near, and
a COHERENT location's near where its region's counter is 0 or 1, as its request's first lane finds it; how the counter then moves, once
for a request, is the model's reading (log 20, DEDUCED). Either gives the location's old value, and its new one is the operation's. -/
def Obligations.AtomicsReturnOldAndUpdate : Prop :=
  (
  (∀ e ∈ [Instr.aadd, Instr.aand, Instr.aor, Instr.axor, Instr.amin, Instr.amax, Instr.aminn, Instr.amaxn, Instr.aswap,
          Instr.acas, Instr.acasgt, Instr.acasgtn].zip (atomics 32),
    ∀ (m : Bool) (d a b : BitVec 6) (c : BitVec 3) (s : State), Ready (e.1 m d a b c) s → AtomicDone (e.1 m d a b c) s m e.2 false d a b c
      ∧ AtomicInMemory (e.1 m d a b c) s e.2 false d a b c ∧ AtomicInScratch (e.1 m d a b c) s e.2 false d a b)
  ∧ (∀ e ∈ [Instr.aaddD, Instr.aandD, Instr.aorD, Instr.axorD, Instr.aminD, Instr.amaxD, Instr.aminnD, Instr.amaxnD, Instr.aswapD,
          Instr.acasD, Instr.acasgtD, Instr.acasgtnD, Instr.acasver, Instr.acastag].zip (atomics 64),
    ∀ (m : Bool) (d a b : BitVec 6) (c : BitVec 3) (s : State), Ready (e.1 m d a b c) s → AtomicDone (e.1 m d a b c) s m e.2 true d a b c
      ∧ AtomicInMemory (e.1 m d a b c) s e.2 true d a b c ∧ AtomicInScratch (e.1 m d a b c) s e.2 true d a b)
  )
  ∧ (
  (∀ (s : State) (ck o n : Nat) (f : DWord → DWord), o < 2 ^ 31 → o + n ≤ (launchOf s ck).scratch → (n = 4 ∨ n = 8) → o % n = 0 →
    absentAt s ck (o / 128) = 0 → badScratchAt s ck o n = false →
    ∃ t v, scratchAtomic s ck o n f = (t, .inr v) ∧ v.toNat = littleEndian n (fun j => rd8 s.scratch (scratchKey ck (o + j)))
      ∧ t = { s with scratch := t.scratch }
      ∧ (∀ j, j < n → rd8 t.scratch (scratchKey ck (o + j)) = (f v).extractLsb' (8 * j) 8)
      ∧ ∀ k, (k < scratchKey ck o ∨ scratchKey ck o + n ≤ k) → rd8 t.scratch k = rd8 s.scratch k)
  ∧ (∀ (s : State) (ck o n : Nat) (f : DWord → DWord), 2 ^ 31 ≤ o →
      scratchAtomic s ck o n f = (s, .inl (.trap .scratchLimit (BitVec.ofNat 64 o))))
  ∧ (∀ (s : State) (c : Nat) (pl : Place) (n : Nat) (f : DWord → DWord), (n = 4 ∨ n = 8) → pl.pa % n = 0 → pl.pa < 2 ^ 60 →
      goodLines s = true → settledAt s c pl → ∃ t v, atomFar s c pl n f = (t, v)
        ∧ (holders s false (pl.pa / 128) = [] → s.passing = [] → v.toNat = littleEndian n (fun j => rd8 s.dmem (pl.pa + j)))
        ∧ (∀ j, j < n → rd8 t.dmem (pl.pa + j) = (f v).extractLsb' (8 * j) 8)
        ∧ ∀ x, x / 128 ≠ pl.pa / 128 → pl.host = false → rd8 t.dmem x = rd8 s.dmem x)
  ∧ (∀ (s : State) (c : Nat) (pl : Place) (f : DWord → DWord) (n : Nat), (n = 4 ∨ n = 8) → pl.pa % n = 0 → pl.pa < 2 ^ 60 → pl.mc ≤ 2 →
      (pl.host = true ↔ pl.mc = 2) → goodLines s = true → ∃ t v, atomNear s c pl n f = (t, v)
        ∧ (loadNow (if pl.mc = 0 then s else readyToWrite s c pl) c pl none n).2 = (List.range n).map (fun j => v.extractLsb' (8 * j) 8)
        ∧ (loadLine t c pl none n).2 = (List.range n).map (fun j => (f v).extractLsb' (8 * j) 8))
  ∧ (∀ (s : State) (c scope n : Nat) (pl : Place) (first : Bool) (f : DWord → DWord),
      (pl.mc = 0 → performAtomic s c pl scope n first f = if scope = 2 then atomNear s c pl n f else atomFar s c pl n f)
      ∧ (pl.mc = 2 → pl.host = true → performAtomic s c pl scope n first f = atomNear s c pl n f)
      ∧ (pl.mc = 1 → pl.host = false →
          (first = true → ∃ p, performAtomic s c pl scope n true f
              = (if tget 0 s.dirPred (pl.pa / 512) ≤ 1 then atomNear else atomFar) { s with dirPred := p } c pl n f
            ∧ ∀ x, tget 0 p x = if x = pl.pa / 512 then counterAfter s c pl else tget 0 s.dirPred x)
          ∧ (first = false → performAtomic s c pl scope n false f = (if holdsToken s c pl then atomNear else atomFar) s c pl n f)))
  )

/-! ## Fences, barriers, waits, queues and regions -/

/-- Fences (R309, R168): a release fence makes the release action of its scope; an acquire fence makes the acquire action once, or waits
while the sweep of the last phase advance is owed (R156); FENCE.AR makes the one, then the other. The lanes of one instruction make one
acquire between them (log 30, DEDUCED). A fence waits for the thread's pending results: an acquire fence for those of its loads and
atomics, every fence, from .core up for a release, for a c register's (R168, R133). -/
def Obligations.FencesReleaseAndAcquire : Prop :=
  ∀ (m : Bool) (c : BitVec 3) (s : State), lanes s ≠ [] →
    (Ready (.fenceRel m c) s → ∃ t, exec (.fenceRel m c) s = .next t
      ∧ t = { (lanes s).foldl (fun s' _ => releaseAt s' (coreOf s (groupOf s).ck) c.toNat) (issued s) with threads := t.threads }
      ∧ Threads s t (fun l => completed m (next s) (recorded (.fenceRel m c) s l)))
    ∧ (Ready (.fenceAcq m c) s → sweepOwed s (coreOf s (groupOf s).ck) c.toNat = false → ∃ t, exec (.fenceAcq m c) s = .next t
      ∧ t = { acquireAt (issued s) (coreOf s (groupOf s).ck) c.toNat with threads := t.threads }
      ∧ Threads s t (fun l => completed m (next s) (recorded (.fenceAcq m c) s l)))
    ∧ (Ready (.fenceAr m c) s → sweepOwed s (coreOf s (groupOf s).ck) c.toNat = false →
      let core := coreOf s (groupOf s).ck
      let both (u : State) : State := let r := releaseAt u core c.toNat; if sweepOwed r core c.toNat then r else acquireAt r core c.toNat
      ∃ t, exec (.fenceAr m c) s = .next t
        ∧ t = { (lanes s).foldl (fun s' _ => both s') (issued s) with threads := t.threads }
        ∧ (3 ≤ c.toNat → corePhaseAt t core = ⟨(corePhaseAt s core).p + 1, true⟩)
        ∧ Threads s t (fun l => completed m (next s) (recorded (.fenceAr m c) s l)))
    ∧ (∀ e ∈ [(Instr.fenceRel, false), (Instr.fenceAcq, true), (Instr.fenceAr, true)], (e.1 m c).wellFormed = true → noRegion s →
      (if e.2 then 1 else 2) ≤ c.toNat →
      (e.2 = true → sweepOwed s (coreOf s (groupOf s).ck) c.toNat = false) →
      (∀ l ∈ lanes s, (lane s l).pend.any (fun d => d.ws.any (fun w => match w.1 with | .creg _ => true | _ => false)
        || (e.2 && d.waits.isNone)) = true) →
      ∃ t, exec (e.1 m c) s = .next t ∧ OnlyThreads s t ∧ ∀ l ∈ lanes s, Waits (.fence e.2) (lane s l) (after s t l))
    ∧ ∀ e ∈ [Instr.fenceAcq, Instr.fenceAr], Ready (e m c) s → sweepOwed s (coreOf s (groupOf s).ck) c.toNat = true →
      ∃ t, exec (e m c) s = .next t ∧ OnlyThreads s t ∧ ∀ l ∈ lanes s, Waits .sweep (lane s l) (after s t l)

/-- Barriers (R310 to R314): each lane in ascending order releases, then arrives at its object, and receives the token of the phase that
it joined; BARSYNC and PHASE then wait for that phase; BARWAIT passes once the phase of its token is complete, its lanes making one
acquire (log 30, DEDUCED); BARINIT sets an object up. Where a barrier instruction finds no object in place (R310, R312): an unaligned
offset traps ALIGN, one past the allocation traps SCRATCH_LIMIT, and BARARV, BARSYNC, BARWAIT or PHASE at an offset that has no slot traps
ILLEGAL with the word. -/
def Obligations.BarrierPhases : Prop :=
  (
  (∀ (m : Bool) (d a : RegNo) (c : BitVec 1) (s : State), let ck := barrierClass s (c == 1); let core := coreOf s (groupOf s).ck
    let sc := if c = 1 then 3 else 2
    (∀ l ∈ lanes s, barrierStands s ck (reg s l a).toNat) →
    (Ready (.bararv m d a c) s → Performs (.bararv m d a c) s (isK d) (fun s' l => let s' := releaseAt s' core sc
      match arrival (barrierIn s' ck (reg s l a).toNat) (reg s l d) with
      | none => (s', .park (.arrival ck (reg s l a).toNat (barrierIn s' ck (reg s l a).toNat).gen))
      | some (b, j) => (withBarrier s' ck (reg s l a).toNat b, .defer [(d.toNat, tokenFor j)])))
    ∧ (Ready (.barsync m d a c) s → Performs (.barsync m d a c) s (isK d) (fun s' l => let s' := releaseAt s' core sc
      match arrival (barrierIn s' ck (reg s l a).toNat) (reg s l d) with
      | none => (s', .park (.arrival ck (reg s l a).toNat (barrierIn s' ck (reg s l a).toNat).gen))
      | some (b, j) => (withBarrier s' ck (reg s l a).toNat b, .deferPark [(d.toNat, tokenFor j)] (.barWait ck (reg s l a).toNat j sc))))
    ∧ (Ready (.barwait m d a c) s → sweepOwed s core sc = false → Performs (.barwait m d a c) s false (fun s' l =>
      if !(reg s l d).getLsbD 16 || phasePast (barrierIn s' ck (reg s l a).toNat) (reg s l d) then
        (if sweepOwed s' core sc then s' else acquireAt s' core sc, .done [] (next s))
      else (s', .park (.barWait ck (reg s l a).toNat ((reg s l d).toNat % 2 ^ 16) sc)))))
  ∧ (∀ (m : Bool) (c : BitVec 3) (a : RegNo) (s : State), let ck := barrierClass s (c == 3); let core := coreOf s (groupOf s).ck
    (∀ l ∈ lanes s, barrierStands s ck (reg s l a).toNat) → Ready (.phase m c a) s →
    Performs (.phase m c a) s false (fun s' l => let s' := releaseAt s' core c.toNat
      match arrival (barrierIn s' ck (reg s l a).toNat) 0 with
      | none => (s', .park (.arrival ck (reg s l a).toNat (barrierIn s' ck (reg s l a).toNat).gen))
      | some (b, j) => (withBarrier s' ck (reg s l a).toNat b, .park (.barWait ck (reg s l a).toNat j c.toNat))))
  ∧ (∀ (m : Bool) (d a : RegNo) (c : BitVec 1) (s : State), let ck := barrierClass s (c == 1); Ready (.barinit m d a c) s →
    (∀ l ∈ lanes s, (reg s l a).toNat % 8 = 0 ∧ (reg s l a).toNat + 8 ≤ (launchOf s ck).scratch ∧ absentAt s ck ((reg s l a).toNat / 128) = 0) →
    Performs (.barinit m d a c) s false (fun s' l =>
      if reg s l d = 0 ∨ 32767 < (reg s l d).toNat
          ∨ ((reg s l a).toNat ∉ (clsAt s' ck).barSlots ∧ (launchOf s' ck).barriers ≤ (clsAt s' ck).barSlots.length) then
        (s', .trap .illegal (BitVec.ofNat 64 (encode (.barinit m d a c))))
      else (withBarrier (if (reg s l a).toNat ∈ (clsAt s' ck).barSlots then s'
        else { s' with classes := tupd s'.classes ck (fun k => { k with barSlots := k.barSlots ++ [(reg s l a).toNat] }) })
          ck (reg s l a).toNat ⟨0, 0, 0, (reg s l d).toNat⟩, .done [] (next s))))
  )
  ∧ (
  ∀ (i : Instr) (a : RegNo) (cl : Bool) (s : State),
    ((∃ m d c, cl = (c == 1) ∧ (i = .bararv m d a c ∨ i = .barsync m d a c
        ∨ (i = .barwait m d a c ∧ sweepOwed s (coreOf s (groupOf s).ck) (if c = 1 then 3 else 2) = false)))
      ∨ ∃ m c, cl = (c == 3) ∧ i = .phase m c a) → Ready i s →
    ∃ t, exec i s = .next t ∧ ∀ l ∈ lanes s, handlerServes s l = true → ∀ v,
      barrierTrap s i (barrierClass s cl) (reg s l a).toNat = some v →
      tfind t.threads ((groupOf s).tk l) = some (inTrap s v.1 v.2 (lane s l))
  )

/-- WAITEQ, WAITNE and WAITGE (R316): a lane whose word meets the condition receives it, and another waits; a word of scratch is read in
the unified store, one of device memory at its coherence point: at its home, where no other core holds the line, under the core's own
dirty bytes, and no older copy is left to the core or its die (R167, R170); one of host memory is read through the core's copy. TICKWAIT,
TLWAIT and TLREAD (R281, R317): TICKWAIT parks every lane until the next tick boundary; TLWAIT lets a lane on once the visible count of
its timeline is at least n, with an acquire at class scope, and parks another; TLREAD gives the visible count. TICKWAIT (R281): every lane
waits for its context's next tick boundary, and nothing else changes. -/
def Obligations.MonitorsAndCountsAreAwaited : Prop :=
  (
  (∀ (s : State) (c : Nat) (pl : Place), pl.host = false → pl.pa < 2 ^ 60 → pl.pa % 128 + 4 ≤ 128 → goodLines s = true → s.passing = [] →
    (pl.mc = 0 ∨ ∀ k ∈ holders s false (pl.pa / 128), k = lineKey c false (pl.pa / 128)) → settledAt s c pl →
    (∀ j, j < 4 → (pointRead s c pl 4).2.getD j 0 = match tfind s.l1 (lineKey c false (pl.pa / 128)) with
        | some ln => if ln.dirty.getD (pl.pa % 128 + j) false then ln.bytes.getD (pl.pa % 128 + j) 0 else rd8 s.dmem (pl.pa + j)
        | none => rd8 s.dmem (pl.pa + j))
    ∧ tfind (pointRead s c pl 4).1.early (lineKey c false (pl.pa / 128)) = none
    ∧ (pl.mc = 0 → tfind (pointRead s c pl 4).1.rdc (rdcKey (c / 64) (pl.pa / 128)) = none
      ∧ ∀ ln, tfind (pointRead s c pl 4).1.l1 (lineKey c false (pl.pa / 128)) = some ln → ln.valid = false))
  ∧ ∀ e ∈ [(Instr.waiteq, fun v b : Word => v == b), (Instr.waitne, fun v b : Word => v != b),
         (Instr.waitge, fun v b : Word => decide ((v.toNat + 2 ^ 32 - b.toNat) % 2 ^ 32 < 2 ^ 31))],
    ∀ (m : Bool) (d a b : RegNo) (s : State), let ck := (groupOf s).ck; Ready (e.1 m d a b) s →
      ((∀ l ∈ lanes s, 0xFE0000000000 ≤ (pair s l a).toNat ∧ (pair s l a).toNat % 4 = 0 ∧ inScratch s ((pair s l a).toNat - 0xFE0000000000) 4) →
        Performs (e.1 m d a b) s (isK d) (fun s' l =>
          let v := BitVec.ofNat 32 (littleEndian 4 (fun j => rd8 s.scratch (scratchKey ck ((pair s l a).toNat - 0xFE0000000000 + j))))
          (s', if e.2 v (reg s l b) then .defer [(d.toNat, v)] else .park (.monitor (pair s l a)))))
      ∧ (∀ l pl, lanes s = [l] → (pair s l a).toNat % 4 = 0 → Reaches s (pair s l a).toNat 4 .read pl → noRegion s → unspoiled s →
          let q := pointRead (issued s) (coreOf s ck) pl 4
          let v := BitVec.ofNat 32 (littleEndian 4 (fun j => q.2.getD j 0))
          ∃ t, exec (e.1 m d a b) s = .next t ∧ t = { q.1 with threads := t.threads }
            ∧ (if e.2 v (reg s l b) then Threads s t (fun l => completed m (next s) none ∘ holding (s.issueSeq + 1)
                (deferredOf s (one d (fun _ => v)) l)) else Waits (.monitor (pair s l a)) (lane s l) (after s t l)))
      ∧ ∃ t, exec (e.1 m d a b) s = .next t ∧ ∀ l ∈ lanes s, handlerServes s l = true →
          (2 ^ 48 ≤ (pair s l a).toNat → tfind t.threads ((groupOf s).tk l) = some (inTrap s .access (pair s l a) (lane s l)))
          ∧ ((pair s l a).toNat < 2 ^ 48 → (pair s l a).toNat % 4 ≠ 0 →
              tfind t.threads ((groupOf s).tk l) = some (inTrap s .align (pair s l a) (lane s l)))
  )
  ∧ (
  (∀ (m : Bool) (s : State), Ready (.tickwait m) s →
    ∃ t, exec (.tickwait m) s = .next t ∧ OnlyThreads s t ∧ (∀ l ∈ lanes s, Waits .tick (lane s l) (after s t l))
      ∧ ∀ k, (∀ l ∈ lanes s, k ≠ (groupOf s).tk l) → tfind t.threads k = tfind s.threads k)
  ∧ (∀ (m : Bool) (a : RegNo) (n : BitVec 3) (s : State), Ready (.tlwait m a n) s →
    ∃ t, exec (.tlwait m a n) s = .next t
      ∧ t = { (if ∃ l ∈ lanes s, (pair s l a).toNat ≤ visibleCount (timelineAt s (groupOf s).ck n.toNat)
               then acquireAt (issued s) (coreOf s (groupOf s).ck) 2 else issued s) with threads := t.threads }
      ∧ (∀ l ∈ lanes s, if (pair s l a).toNat ≤ visibleCount (timelineAt s (groupOf s).ck n.toNat) then
          tfind t.threads ((groupOf s).tk l) = some (completed m (next s) (recorded (.tlwait m a n) s l) (lane s l))
        else Waits (.timeline n.toNat (pair s l a)) (lane s l) (after s t l))
      ∧ ∀ k, (∀ l ∈ lanes s, k ≠ (groupOf s).tk l) → tfind t.threads k = tfind s.threads k)
  ∧ (∀ (m : Bool) (d : RegNo) (n : BitVec 3) (s : State), Ready (.tlread m d n) s →
    ∃ t, exec (.tlread m d n) s = .next t ∧ Pending (.tlread m d n) s t
      (two d (fun _ => BitVec.ofNat 64 (visibleCount (timelineAt s (groupOf s).ck n.toNat)))))
  )
  ∧ (
  ∀ (m : Bool) (s : State), Ready (.tickwait m) s →
    ∃ t, exec (.tickwait m) s = .next t ∧ OnlyThreads s t
      ∧ (∀ l ∈ lanes s, (tfind t.threads ((groupOf s).tk l)).isSome = true ∧ Waits .tick (lane s l) (after s t l))
      ∧ ∀ k, (∀ l ∈ lanes s, k ≠ (groupOf s).tk l) → tfind t.threads k = tfind s.threads k
  )

/-- Note queues (R318 to R320): QPUSH adds its lanes' handles behind those held, in ascending lane order, as many as there is room for;
QPOP gives its lanes the oldest in that order, as many as there are; the lanes above those, and every lane of a full or an empty queue,
wait; a queue with CAP 0 traps ILLEGAL. The lanes make one acquire (log 30, DEDUCED), and no lane of the troupe finds a thread that waited
before it, by issue number (log 51, DEDUCED). -/
def Obligations.NoteQueuesAreFifo : Prop :=
  (∀ (m : Bool) (a : RegNo) (n : BitVec 4) (s : State), let ck := (groupOf s).ck; let q := noteDecl s ck n.toNat; Ready (.qpush m a n) s →
    lanes s ≠ [] → q.cap ≠ 0 → q.cap < 2 ^ 32 → (∀ l ∈ lanes s, earlierWaiter s ck n.toNat (waitSeq s (groupOf s) l) true = false) →
    let room := q.cap - (handlesIn s ck n.toNat).length
    let go := (lanes s).take room
    ringTurns s ck n.toNat go.length →
    ∃ t, exec (.qpush m a n) s = .next t
      ∧ handlesIn t ck n.toNat = handlesIn s ck n.toNat ++ go.map (fun l => reg s l a)
      ∧ t = { releaseAt (issued s) (coreOf s ck) (noteScope q) with scratch := t.scratch, badScratch := t.badScratch, noteQueues := t.noteQueues, threads := t.threads }
      ∧ (∀ l ∈ go, tfind t.threads ((groupOf s).tk l) = some (completed m (next s) (recorded (.qpush m a n) s l) (lane s l)))
      ∧ (∀ l ∈ (lanes s).drop room, Waits (.notePush n.toNat) (lane s l) (after s t l))
      ∧ ∀ k, (∀ l ∈ lanes s, k ≠ (groupOf s).tk l) → tfind t.threads k = tfind s.threads k)
  ∧ (∀ (m : Bool) (d : RegNo) (n : BitVec 4) (s : State), let ck := (groupOf s).ck; let q := noteDecl s ck n.toNat; Ready (.qpop m d n) s →
    lanes s ≠ [] → q.cap ≠ 0 → sweepOwed s (coreOf s ck) (noteScope q) = false →
    (∀ l ∈ lanes s, earlierWaiter s ck n.toNat (waitSeq s (groupOf s) l) false = false) →
    let held := handlesIn s ck n.toNat
    let go := (lanes s).take held.length
    ∃ t, exec (.qpop m d n) s = .next t ∧ handlesIn t ck n.toNat = held.drop go.length
      ∧ t = { (if go = [] then issued s else acquireAt (issued s) (coreOf s ck) (noteScope q)) with
                scratch := t.scratch, badScratch := t.badScratch, noteQueues := t.noteQueues, threads := t.threads }
      ∧ (∀ l ∈ go, tfind t.threads ((groupOf s).tk l) = some (completed m (next s) (recorded (.qpop m d n) s l) (holding (s.issueSeq + 1)
          (deferredOf s (fun l => [(d.toNat, held.getD ((lanes s).takeWhile (· != l)).length 0)]) l) (lane s l))))
      ∧ (∀ l ∈ (lanes s).drop held.length, Waits (.notePop n.toNat) (lane s l) (after s t l))
      ∧ ∀ k, (∀ l ∈ lanes s, k ≠ (groupOf s).tk l) → tfind t.threads k = tfind s.threads k)
  ∧ ∀ (i : Instr) (n : BitVec 4) (s : State), ((∃ m a, i = .qpush m a n) ∨ ∃ m d, i = .qpop m d n) → Ready i s →
    (noteDecl s (groupOf s).ck n.toNat).cap = 0 → (∀ l ∈ lanes s, handlerServes s l = true) →
    ∃ t, exec i s = .next t ∧ ∀ l ∈ lanes s, tfind t.threads ((groupOf s).tk l) = some (inTrap s .illegal (BitVec.ofNat 64 (encode i)) (lane s l))

/-- QTAKE by one lane (R321, R115): the next item index of an armed queue of the context goes to the pair, HEAD counts on and reaches the
head mirror after a release at the producer's scope, and the acquire of that scope is made; the tail is TICKTAIL of a tick-aligned queue,
else the tail word at its coherence point; an empty queue, or one that is held, parks the lane; an index of 2^20 or above, another
context's block, and a tail out of range trap QUEUE with the index; a block that is not there, or not armed, parks the lane. -/
def Obligations.QueueItemsAreClaimedOnce : Prop :=
  ∀ (m : Bool) (d a : RegNo) (s : State), let ck := (groupOf s).ck; let core := coreOf s ck; Ready (.qtake m d a) s →
    (∀ l cb tail mirror, lanes s = [l] → tfind s.cbs (reg s l a).toNat = some cb → (reg s l a).toNat < 2 ^ 20 → cb.armed = true →
      cb.ctx = (clsAt s ck).ctx → sweepOwed s core (if cb.qflags / 2 % 2 = 1 then 6 else 5) = false → unspoiled s → noRegion s →
      Reaches s cb.tailVa 8 .read tail → Reaches s (cb.tailVa + 8) 8 .write mirror →
      let q := pointRead (issued s) core tail 8
      let u := if cb.qflags % 2 = 1 then issued s else q.1
      let vis := if cb.qflags % 2 = 1 then cb.tickTail else littleEndian 8 (fun j => q.2.getD j 0)
      let sc := if cb.qflags / 2 % 2 = 1 then 6 else 5
      let avail := ((vis : Int) - cb.head).bmod (2 ^ 64)
      (0 < avail → avail ≤ 2 ^ cb.log2Items → cb.held = false →
        ∃ t, exec (.qtake m d a) s = .next t ∧ tfind t.cbs (reg s l a).toNat = some { cb with head := (cb.head + 1) % 2 ^ 64 }
          ∧ (∀ k, k ≠ (reg s l a).toNat → tfind t.cbs k = tfind s.cbs k)
          ∧ t = { acquireAt (dropCopies (homeWrite (releaseAt { u with cbs := t.cbs } core sc) mirror
                    ((List.range 8).map (fun j => BitVec.ofNat 8 ((cb.head + 1) % 2 ^ 64 / 2 ^ (8 * j))))) core mirror 8) core sc
                  with threads := t.threads }
          ∧ Threads s t (fun l => completed m (next s) (recorded (.qtake m d a) s l)
              ∘ holding (s.issueSeq + 1) (deferredOf s (two d (fun _ => BitVec.ofNat 64 cb.head)) l)))
      ∧ (avail < 0 ∨ (2 ^ cb.log2Items : Int) < avail → handlerServes s l = true → ∃ t, exec (.qtake m d a) s = .next t
          ∧ t.cbs = s.cbs ∧ tfind t.threads ((groupOf s).tk l) = some (inTrap s .queue (BitVec.ofNat 64 (reg s l a).toNat) (lane s l)))
      ∧ (0 ≤ avail → avail ≤ 2 ^ cb.log2Items → avail = 0 ∨ cb.held = true → ∃ t, exec (.qtake m d a) s = .next t
          ∧ t.cbs = s.cbs ∧ Waits (.queue (reg s l a).toNat) (lane s l) (after s t l)))
    ∧ ∃ t, exec (.qtake m d a) s = .next t ∧ ∀ l ∈ lanes s,
        (handlerServes s l = true → 2 ^ 20 ≤ (reg s l a).toNat →
          tfind t.threads ((groupOf s).tk l) = some (inTrap s .queue (BitVec.ofNat 64 (reg s l a).toNat) (lane s l)))
        ∧ (handlerServes s l = true → (reg s l a).toNat < 2 ^ 20 → ∀ cb, tfind s.cbs (reg s l a).toNat = some cb → cb.armed = true →
          cb.ctx ≠ (clsAt s ck).ctx → tfind t.threads ((groupOf s).tk l) = some (inTrap s .queue (BitVec.ofNat 64 (reg s l a).toNat) (lane s l)))
        ∧ ((reg s l a).toNat < 2 ^ 20 → (∀ cb, tfind s.cbs (reg s l a).toNat = some cb → cb.armed = false) →
          Waits (.queue (reg s l a).toNat) (lane s l) (after s t l))

/-- ATBEG opens a region in every lane that has no result left, with its checkpoint, and writes 0 to the status register (R212, R214);
ATABORT abandons it: the registers and the window are those of the checkpoint, nothing stored in it reaches memory, the status word says
code 0x14, and the lane is at its fallback (R221); ATSTAT reads the region's counts (R222). Inside a region (R213, R215), on a COHERENT or
HOST page that the core's TLB translates: a store goes to the region and to no memory; a load of bytes that the region stored gives them;
a region's first load gives memory's bytes, and the region keeps the line as it was read, with the value as input 0 and its tag on the
destination. -/
def Obligations.RegionsOpenAbortAndBuffer : Prop :=
  (
  (∀ (m : Bool) (d : RegNo) (o : BitVec 11) (s : State), Ready (.atbeg m d o) s → (∀ l ∈ lanes s, (lane s l).pend = []) →
    regionsOpen s (coreOf s (groupOf s).ck) + (lanes s).length ≤ 64 →
    ∃ t, exec (.atbeg m d o) s = .next t ∧ OnlyLanes s t ∧ Wrote s t (one d (fun _ => 0))
      ∧ Threads s t (fun l u =>
          { u with pc := next s, parkSeq := 0, out := 0, region := some (openedRegion s l d ((groupOf s).pc + BitVec.ofInt 64 (o.toInt * 4))) }))
  ∧ (∀ (m : Bool) (d : RegNo) (o : BitVec 11) (s : State) (l : Nat), Ready (.atbeg m d o) s → l ∈ lanes s → (lane s l).pend ≠ [] →
    ∃ t, exec (.atbeg m d o) s = .next t ∧ Waits .results (lane s l) (after s t l))
  ∧ (∀ (m : Bool) (c : BitVec 7) (s : State) (r : Nat → Region), Ready (.atabort m c) s → (∀ l ∈ lanes s, (lane s l).region = some (r l)) →
    (∀ l ∈ lanes s, (r l).status.toNat < 112 ∧ (r l).ckWb.toNat + 112 ≤ 1024 ∧ ∀ e ∈ (r l).ckRegs, e.1 < 1024) →
    ∃ t, exec (.atabort m c) s = .next t
      ∧ t = { s with regs := t.regs, badRegs := t.badRegs, threads := t.threads, issue := none, issueSeq := s.issueSeq + 1 }
      ∧ Threads s t (fun l => abandoned (r l))
      ∧ (∀ k, (∀ l ∈ lanes s, ∀ a, a < 1024 → k ≠ regKey (groupOf s).ck (groupOf s).p a l) → tget 0 t.regs k = tget 0 s.regs k)
      ∧ ∀ l ∈ lanes s, ∀ a, a < 1024 → tget 0 t.regs (regKey (groupOf s).ck (groupOf s).p a l) =
          if 0 < (r l).status.toNat ∧ a = (r l).ckWb.toNat + (r l).status.toNat then BitVec.ofNat 32 (0x14 + 256 * c.toNat)
          else checkpointed (r l) a)
  ∧ (∀ (m : Bool) (d : RegNo) (s : State), Ready (.atstat m d) s →
    ∃ t, exec (.atstat m d) s = .next t ∧ Pending (.atstat m d) s t (one d (fun l => match (lane s l).region with
      | none => 0
      | some r => BitVec.ofNat 32 (2 ^ 31 + (if r.rigid then 2 ^ 30 else 0) + r.constraints.length * 2 ^ 19 + r.stores.length * 2 ^ 15
          + ((r.stores.map (fun b => (b.host, b.pa / 128))).eraseDups).length * 2 ^ 11 + r.reads.length * 2 ^ 7 + r.inputs.length * 2 ^ 3))))
  )
  ∧ (
  (∀ (m : Bool) (d a : RegNo) (w : BitVec 3) (h : BitVec 2) (o : BitVec 6) (s : State) (l : Nat) (r : Region) (pl : Place),
    Ready (.stg m d a w h o) s → lanes s = [l] → (lane s l).region = some r → globalAddress s l a w o % accessBytes w = 0 →
    ReachesBy true s (globalAddress s l a w o) (accessBytes w) .write pl → pl.mc = 1 ∨ pl.mc = 2 →
    r.stores.length + 2 ≤ 8 → r.inputs.length ≤ 8 → r.reads.length ≤ 8 → r.constraints.length ≤ 16 →
    ∃ t r', exec (.stg m d a w h o) s = .next t ∧ t = { issued s with threads := t.threads } ∧ (after s t l).region = some r'
      ∧ (after s t l).pc = next s ∧ r'.stores.length = r.stores.length + (if accessBytes w = 16 then 2 else 1)
      ∧ (r'.stores.drop r.stores.length).flatMap (·.data) = storedBytes s l d w ∧ (r'.stores.drop r.stores.length).head?.map (·.pa) = some pl.pa)
  ∧ (∀ (m : Bool) (d a : RegNo) (w : BitVec 3) (h : BitVec 2) (o : BitVec 6) (s : State) (l : Nat) (r : Region) (pl : Place) (b : BufStore),
    Ready (.ldg m d a w h o) s → lanes s = [l] → (lane s l).region = some r → globalAddress s l a w o % accessBytes w = 0 →
    ReachesBy true s (globalAddress s l a w o) (accessBytes w) .read pl → pl.mc = 1 ∨ pl.mc = 2 →
    r.stores.getLast? = some b → b.host = pl.host → b.pa = pl.pa → b.size = accessBytes w → b.data.length = b.size →
    ∃ t r', exec (.ldg m d a w h o) s = .next t ∧ t = { issued s with threads := t.threads }
      ∧ tfind t.threads ((groupOf s).tk l) = some (completed m (next s) (some r')
          (holding (s.issueSeq + 1) (deferredOf s (fun _ => loadedWords w d (fun j => b.data.getD j 0)) l) (lane s l))))
  ∧ (∀ (m : Bool) (d a : RegNo) (w : BitVec 3) (h : BitVec 2) (o : BitVec 6) (s : State) (l : Nat) (r : Region) (pl : Place),
    Ready (.ldg m d a w h o) s → lanes s = [l] → (lane s l).region = some r → globalAddress s l a w o % accessBytes w = 0 →
    ReachesBy true s (globalAddress s l a w o) (accessBytes w) .read pl → pl.mc = 1 ∨ pl.mc = 2 → unspoiled s →
    accessBytes w = 4 ∨ accessBytes w = 8 → r.stores = [] → r.inputs = [] → r.reads = [] → r.tags = [] → r.constraints.length ≤ 16 →
    0 < d.toNat → d.toNat < 111 →
    let q := loadNow (issued s) (coreOf s (groupOf s).ck) { pl with pa := pl.pa / 128 * 128 } none 128
    ∃ t r', exec (.ldg m d a w h o) s = .next t ∧ t = { q.1 with threads := t.threads }
      ∧ tfind t.threads ((groupOf s).tk l) = some (completed m (next s) (some r')
          (holding (s.issueSeq + 1) (deferredOf s (fun _ => loadedWords w d (fun j => q.2.getD (pl.pa % 128 + j) 0)) l) (lane s l)))
      ∧ r'.reads = [⟨globalAddress s l a w o, pl.host, pl.pa / 128, q.2⟩]
      ∧ r'.inputs = [⟨globalAddress s l a w o, pl.host, pl.pa, accessBytes w == 8⟩]
      ∧ tfind r'.tags d.toNat = some ⟨0, 0, accessBytes w == 8⟩)
  )

/-- ATEND by one lane (R220), no byte of memory being spoiled and the links up: with the tokens of the region's lines held, it commits
where no line that the region read has changed, its stores made in program order and status code 0x01; where lines have changed, a rigid
region aborts with code 0x11, one with constraints that the fresh inputs break, whose relation no longer has the outcome that the region
saw, aborts with code 0x10 and the number of the first, and any other is repaired, its stores and its tagged registers taking their values
from the fresh inputs, with code 0x02 and the count of changed lines. -/
def Obligations.RegionsCommitRepairOrAbort : Prop :=
  ∀ (m : Bool) (s : State) (l : Nat) (r : Region), let core := coreOf s (groupOf s).ck; let ctx := (clsAt s (groupOf s).ck).ctx
    Ready (.atend m) s → lanes s = [l] → (lane s l).pend = [] → (lane s l).region = some r → r.status.toNat < 112 →
    unspoiled s → linksUp s = true → ∀ s1 stores, storePagesOf (issued s) core ctx r.stores = (s1, .inr stores) →
    let p := placesNow s1 core ctx (r.reads.map (fun x => (x.va, x.host, x.line * 128)))
    let q := placesNow p.1 core ctx (r.inputs.map (fun x => (x.va, x.host, x.pa)))
    let lines := (p.2 ++ stores.map (·.1)).foldr insertLine []
    let s2 := takeTokens q.1 core lines
    let changed := ((p.2.zip r.reads).filter (fun x => lineBytes s2 core ({ x.1 with pa := x.1.pa / 128 * 128 } : Place) 128 != x.2.snap)).length
    let fresh := (q.2.zip r.inputs).map (fun x => BitVec.ofNat 64 (wordOfBytes (lineBytes s2 core x.1 (if x.2.wide then 8 else 4))))
    let ends (u : State) (st : Nat) (t : State) : Prop :=
      t = { u with threads := t.threads, regs := t.regs, badRegs := t.badRegs }
        ∧ tfind t.threads ((groupOf s).tk l) = some ({ completed m (next s) none (lane s l) with out := 0 } : Thread)
        ∧ (r.status ≠ 0 → reg { t with issue := s.issue } l r.status = BitVec.ofNat 32 st)
    let stored (v : BufStore → List Byte) : State := giveTokens (stores.foldl (fun u x => storeLine u core x.1 false (v x.2)) s2) core lines
    (∀ n, (firstBroken fresh r.constraints = some n ↔ (∃ x, r.constraints[n]? = some x ∧ ¬ keeps fresh x)
          ∧ ∀ j x, j < n → r.constraints[j]? = some x → keeps fresh x)
        ∧ (firstBroken fresh r.constraints = none ↔ ∀ x ∈ r.constraints, keeps fresh x))
    ∧ (changed = 0 → ∃ t, exec (.atend m) s = .next t ∧ ends (stored (·.data)) 1 t)
    ∧ (changed ≠ 0 → r.rigid = true → ∃ t, exec (.atend m) s = .next t ∧ t = { s2 with threads := t.threads, regs := t.regs, badRegs := t.badRegs }
        ∧ Threads s t (fun _ => abandoned r) ∧ (r.status ≠ 0 → reg ({ t with issue := s.issue } : State) l r.status = 0x11))
    ∧ (changed ≠ 0 → r.rigid = false → ∀ n, firstBroken fresh r.constraints = some n → n < 256 →
        ∃ t, exec (.atend m) s = .next t ∧ t = { s2 with threads := t.threads, regs := t.regs, badRegs := t.badRegs }
          ∧ Threads s t (fun _ => abandoned r) ∧ (r.status ≠ 0 → reg { t with issue := s.issue } l r.status = BitVec.ofNat 32 (0x10 + 256 * n)))
    ∧ (changed ≠ 0 → r.rigid = false → firstBroken fresh r.constraints = none → changed < 2 ^ 16 →
        ∃ t, exec (.atend m) s = .next t
          ∧ ends (stored (fun b => match b.tag with
              | some g => bytesOfNat b.size (fresh.getD g.k 0 + g.c).toNat
              | none => b.data)) (2 + 65536 * changed) t
          ∧ ∀ n g, canonicalKeys r.tags = true → tfind r.tags n = some g → 0 < n → n < 112 → n ≠ r.status.toNat →
              readReg { t with issue := s.issue } (groupOf s) l n = (fresh.getD g.k 0 + g.c).extractLsb' (if g.wide ∧ n % 2 = 1 then 32 else 0) 32)

/-! ## Engines, fabric and the matrix unit -/

/-- COPY, COPYG and PREFA by one lane whose block passes the checks (R339), with room in the queue: what the core has issued is performed
first (R175, the release of core scope; log 59, DEDUCED, that it is the whole core's), and the request is numbered on its timeline (R176),
joins the engine queue with the block read at issue, holds its scratch lines absent (R149), and gives its number to the pair D unless D is
0 (R336); with 64 queued the lane waits. An offset that is no multiple of 8 traps ALIGN, and one past the allocation SCRATCH_LIMIT. -/
def Obligations.CopyRequestsAreNumberedAndQueued : Prop :=
  ∀ e ∈ [(Instr.copy, 1), (Instr.copyg, 2), (Instr.prefa, 3)], ∀ (m : Bool) (d a : RegNo) (s : State) (l : Nat),
    let ck := (groupOf s).ck; let core := coreOf s ck
    Ready (e.1 m d a) s → lanes s = [l] →
    (copyCheck s (e.1 m d a) (groupOf s) e.2 a l = none →
      let b := effectiveBlock (copyBlockOf (rdBytes s.scratch (scratchKey ck (reg s l a).toNat) 64))
      let n := (timelineAt s ck b.tl).issued + b.inc
      (queueLen s core < 64 → (b.dest = 2 → retainedFor s ck b.fifo < 4) → ∃ t rq, exec (e.1 m d a) s = .next t
        ∧ t = { settleCore (issued s) core with reqs := tput s.reqs s.nextReq rq, nextReq := s.nextReq + 1, timelines := t.timelines, absent := t.absent, threads := t.threads }
        ∧ rq.core = core ∧ rq.lrFirst = (lane s l).lrFirst.toNat % 65536 ∧ rq.lrLast = (lane s l).lrLast.toNat % 65536 ∧ rq.ck = ck ∧ rq.blk = b ∧ rq.num = n ∧ rq.begun = false ∧ rq.moved = false ∧ rq.completed = false ∧ rq.rows = 0
        ∧ (timelineAt t ck b.tl).issued = n
        ∧ (timelineAt t ck b.tl).ops = (timelineAt s ck b.tl).ops
            ++ (if b.inc ≠ 0 ∨ visibleCount (timelineAt s ck b.tl) < n then [n] else [])
        ∧ (∀ ln, ln ∈ linesOf b rq.lrFirst rq.lrLast → absentAt t ck ln ≠ 0)
        ∧ Threads s t (fun l => completed m (next s) (recorded (e.1 m d a) s l)
            ∘ holding (s.issueSeq + 1) (deferredOf s (if d = 0 then nothing else two d (fun _ => BitVec.ofNat 64 n)) l)))
      ∧ (64 ≤ queueLen s core → ∃ t, exec (e.1 m d a) s = .next t ∧ OnlyThreads s t ∧ Waits .engine (lane s l) (after s t l)))
    ∧ (handlerServes s l = true → (reg s l a).toNat % 8 ≠ 0 → ∃ t, exec (e.1 m d a) s = .next t
        ∧ Trapped s t .align (fun l => BitVec.ofNat 64 (reg s l a).toNat))
    ∧ (handlerServes s l = true → (reg s l a).toNat % 8 = 0 → (launchOf s ck).scratch < (reg s l a).toNat + 64 →
        ∃ t, exec (e.1 m d a) s = .next t ∧ Trapped s t .scratchLimit (fun l => BitVec.ofNat 64 (reg s l a).toNat))

/-- PUT, PUTS and GET by one lane whose block and window pass the checks (R344): what the core has issued is performed first (R175; log
59, DEDUCED, for the whole core), and the operation is numbered on its timeline and, one up, on its window, and gives the window's number
to the pair D unless D is 0. FETCHW queues a withdrawal for each lane (R342); scratch is as before unless a mailbox still waits for an
earlier answer, whose content is then open (R113; log 23, DESIGN CHOICE). WINCNT gives the counter that its selector names of a CONVERGED
window of the context, the one that the lowest lane names as it issues, or the one on which lanes that waited were parked, or, with GE,
waits until it is at least the value of the pair D (R346). -/
def Obligations.FabricOperationsAndCounters : Prop :=
  (∀ e ∈ [(Instr.put, 1), (Instr.puts, 2), (Instr.get, 3)], ∀ (m : Bool) (d a : RegNo) (s : State) (l : Nat) (s1 : State) (w : Nat) (x : Window),
    let ck := (groupOf s).ck; let core := coreOf s ck
    let b := fabBlockOf (rdBytes s.scratch (scratchKey ck (reg s l a).toNat) 64)
    Ready (e.1 m d a) s → lanes s = [l] → fabCheck s (e.1 m d a) (groupOf s) e.2 a l = none → queueLen s core < 64 →
    fabWindow (issued s) core (clsAt s ck).ctx b = (s1, .inr w) → tfind s.windows w = some x →
    ∃ t op, exec (e.1 m d a) s = .next t
      ∧ t = { settleCore s1 core with fabOps := tput s.fabOps s.nextReq op, nextReq := s.nextReq + 1, windows := t.windows, timelines := t.timelines, absent := t.absent, threads := t.threads }
      ∧ op.blk = b ∧ op.win = w ∧ op.num = x.issued + 1 ∧ op.tlNum = (timelineAt s ck b.tl).issued + b.inc ∧ op.phase = .queued
      ∧ tfind t.windows w = some { x with issued := x.issued + 1 } ∧ (timelineAt t ck b.tl).issued = op.tlNum
      ∧ Threads s t (fun l => completed m (next s) (recorded (e.1 m d a) s l)
          ∘ holding (s.issueSeq + 1) (deferredOf s (if d = 0 then nothing else two d (fun _ => BitVec.ofNat 64 (x.issued + 1))) l)))
  ∧ (∀ (m : Bool) (a b : RegNo) (s : State), let ck := (groupOf s).ck; Ready (.fetchw m a b) s →
    (∀ l ∈ lanes s, (reg s l b).toNat % 32 = 0 ∧ (reg s l b).toNat + 32 ≤ (launchOf s ck).scratch) →
    queueLen s (coreOf s ck) + (lanes s).length ≤ 64 →
    ∃ t, exec (.fetchw m a b) s = .next t
      ∧ t = { issued s with ushers := t.ushers, scratch := t.scratch, badScratch := t.badScratch, free := t.free, threads := t.threads }
      ∧ ((∀ l ∈ lanes s, mailboxBusy s ck (reg s l b).toNat = false) → (lanes s).Pairwise (fun k l => reg s k b ≠ reg s l b) →
          t.scratch = s.scratch ∧ t.badScratch = s.badScratch ∧ t.free = s.free)
      ∧ (let u := usherAt s (clsAt s ck).die
         usherAt t (clsAt s ck).die = { u with fetches := u.fetches ++ (lanes s).map (fun l => ⟨coreOf s ck, ck, (reg s l a).toNat, (reg s l b).toNat⟩) })
      ∧ Threads s t (fun l => completed m (next s) (recorded (.fetchw m a b) s l)))
  ∧ (∀ (m : Bool) (d a : RegNo) (ge : Bool) (x : BitVec 2) (s : State) (l0 : Nat) (r : List Nat) (n : Nat) (w : Window) (c : Nat),
    Ready (.wincnt m d a ge x) s → lanes s = l0 :: r →
    (n = (reg s l0 a).toNat ∧ (∀ l ∈ lanes s, (lane s l).parkSeq = 0)
      ∨ ∀ l ∈ lanes s, (lane s l).parkSeq ≠ 0 ∧ ∃ v, (lane s l).was = some (.wincnt n x.toNat v)) →
    tfind s.windows n = some w → converged s w.rid = true →
    w.ctx = (clsAt s (groupOf s).ck).ctx → ((x = 0 ∧ w.peer = true ∧ c = w.issue) ∨ (x = 1 ∧ w.peer = false ∧ c = w.arrival)
      ∨ (x = 2 ∧ w.peer = true ∧ c = w.refused)) →
    (isK d = true → ∀ l ∈ lanes s, ge = true → (pair s l d).toNat ≤ c) →
    ∃ t, exec (.wincnt m d a ge x) s = .next t ∧ OnlyThreads s t ∧ ∀ l ∈ lanes s,
      if ge = true ∧ c < (pair s l d).toNat then Waits (.wincnt n x.toNat (pair s l d)) (lane s l) (after s t l)
      else tfind t.threads ((groupOf s).tk l) = some (completed m (next s) (recorded (.wincnt m d a ge x) s l)
        (holding (s.issueSeq + 1) (deferredOf s (fun l => if ge = true ∧ c < (pair s l d).toNat then [] else two d (fun _ => BitVec.ofNat 64 c) l) l)
          (lane s l))))

/-- MLOOP (R197): lanes that agree on a valid format word have one loop accepted, for the lowest lane's count, with the next ticket and a
number with INC 1 on its timeline; with four loops accepted they wait; a class without MATRIX traps ILLEGAL, lanes that differ trap
FORMAT_DIVERGENCE, an invalid word traps FORMAT, and in a handler a slate that it may not name (R146) is SLATE_OWNER, and so NESTED. -/
def Obligations.MatrixLoopsAreAccepted : Prop :=
  ∀ (m : Bool) (n : BitVec 3) (x y : BitVec 2) (a b : RegNo) (s : State) (l : Nat) (r : List Nat),
    let i : Instr := .mloop m n x y a b; let ck := (groupOf s).ck; let u := matrixAt s (coreOf s ck); let w := reg s l a
    Ready i s → lanes s = l :: r →
    ((launchOf s ck).matrix = false → (∀ k ∈ lanes s, handlerServes s k = true) →
      ∃ t, exec i s = .next t ∧ Trapped s t .illegal (fun _ => BitVec.ofNat 64 (encode i)))
    ∧ ((launchOf s ck).matrix = true →
    ((∀ k ∈ lanes s, reg s k a = w ∧ ownerOk s (groupOf s) k n.toNat = true) → fwOk w = true →
      (u.loops.length < 4 → ∃ t lp, exec i s = .next t
        ∧ t = { s with mats := t.mats, timelines := t.timelines, threads := t.threads, issue := none, issueSeq := s.issueSeq + 1 }
        ∧ matrixAt t (coreOf s ck) = { u with ticket := (u.ticket + 1) % 2 ^ 32, loops := u.loops ++ [lp] }
        ∧ lp.ticket = (u.ticket + 1) % 2 ^ 32 ∧ lp.slate = n.toNat ∧ lp.fa = x.toNat ∧ lp.fb = y.toNat ∧ lp.fmt = w
        ∧ lp.remaining = (reg s l b).toNat ∧ lp.applied = 0 ∧ lp.tl = w.toNat / 2 ^ 12 % 8
        ∧ lp.num = (timelineAt s ck lp.tl).issued + 1 ∧ (timelineAt t ck lp.tl).issued = lp.num
        ∧ (timelineAt t ck lp.tl).ops = (timelineAt s ck lp.tl).ops ++ [lp.num]
        ∧ Threads s t (fun l => completed m (next s) (recorded i s l)))
      ∧ (4 ≤ u.loops.length → ∃ t, exec i s = .next t ∧ OnlyThreads s t ∧ ∀ k ∈ lanes s, Waits .loops (lane s k) (after s t k)))
    ∧ ((∀ k ∈ lanes s, handlerServes s k = true) → (∃ k ∈ lanes s, reg s k a ≠ w) →
        ∃ t, exec i s = .next t ∧ Trapped s t .formatDivergence (fun k => (reg s k a).setWidth 64))
    ∧ ((∀ k ∈ lanes s, handlerServes s k = true) → (∀ k ∈ lanes s, reg s k a = w) → fwOk w = false →
        ∃ t, exec i s = .next t ∧ Trapped s t .format (fun _ => w.setWidth 64))
    ∧ (InHandlers s → (∀ k ∈ lanes s, reg s k a = w) → fwOk w = true → slateClosed s n.toNat →
        ∃ t, exec i s = .next t ∧ NestedTrap s t 0x0E))

/-- The SLATE instructions (R198, R202 to R206, R349): SLCLR, SLRD, SLWR, SLSTAT and FIFOCLR take the next ticket once for their lanes,
and act when it is their turn; the results of SLRD and SLSTAT are deferred, and wait for the ticket; SLEVT takes the oldest entry of the
event log at once, and an empty log clears LOST and LOSTCOUNT. A class without MATRIX traps ILLEGAL, and in a handler a slate that it may
not name, and FIFOCLR, is SLATE_OWNER, and so NESTED (R146). -/
def Obligations.SlateInstructionsTakeTickets : Prop :=
  let row (s : State) (a : RegNo) (ls : List Nat) : Nat := (ls.head?.map (fun l => (reg s l a).toNat % 32)).getD 0
  (∀ (m : Bool) (d a : RegNo) (c : BitVec 2) (n : BitVec 3) (s : State),
      let ck := (groupOf s).ck; let u := matrixAt s (coreOf s ck); let tk := (u.ticket + 1) % 2 ^ 32
      (∀ e ∈ [(Instr.slclr m n, ActKind.clear, []),
              (Instr.slrd m d a c n, ActKind.read (row s a (lanes s)) c.toNat, [d.toNat]),
              (Instr.slstat m d a n, ActKind.stat (row s a (lanes s)), [d.toNat, d.toNat + 1]),
              (Instr.slwr m d a n, ActKind.write (row s a (lanes s)) ((lanes s).foldl (fun t l => tset 0 t l (reg s l d)) []), [])],
        Ready e.1 s → lanes s ≠ [] → (launchOf s ck).matrix = true → (∀ l ∈ lanes s, ownerOk s (groupOf s) l n.toNat = true) →
        ∃ t, exec e.1 s = .next t ∧ t = { s with mats := t.mats, threads := t.threads, issue := none, issueSeq := s.issueSeq + 1 }
          ∧ matrixAt t (coreOf s ck) = { u with ticket := tk, acts := u.acts ++ [⟨tk, n.toNat, e.2.1, (lanes s).map (groupOf s).tk, (lanes s).any (fun l => !(lane s l).inHandler)⟩] }
          ∧ Threads s t (fun l v => completed e.1.marker (next s) (recorded e.1 s l)
              (let w : List (Dest × Word) := e.2.2.map (fun n => ((destOf v n).getD .zero, 0))
               if w.all (fun x => x.1 == .zero) then v else { v with pend := v.pend ++ [⟨w, some tk, s.issueSeq + 1⟩], out := outAdd v.out (w.map (·.1)) }))))
  ∧ (∀ (m : Bool) (f : BitVec 2) (s : State), let ck := (groupOf s).ck; let u := matrixAt s (coreOf s ck); let tk := (u.ticket + 1) % 2 ^ 32
      Ready (.fifoclr m f) s → lanes s ≠ [] → (launchOf s ck).matrix = true → (∀ l ∈ lanes s, (lane s l).inHandler = false) →
      ∃ t, exec (.fifoclr m f) s = .next t ∧ t = { s with mats := t.mats, threads := t.threads, issue := none, issueSeq := s.issueSeq + 1 }
        ∧ matrixAt t (coreOf s ck) = { u with ticket := tk, acts := u.acts ++ [⟨tk, 0, .fifoClear f.toNat s.nextReq, (lanes s).map (groupOf s).tk, true⟩] }
        ∧ Threads s t (fun l => completed m (next s) (recorded (.fifoclr m f) s l)))
  ∧ (∀ (m : Bool) (d : RegNo) (s : State), let ck := (groupOf s).ck; let u := matrixAt s (coreOf s ck)
      let lost := if u.lost then 2 ^ 9 else 0
      let quad : List Word := match u.log with
        | e :: _ => [BitVec.ofNat 32 (e.shift % 65536 * 65536 + lost + 2 ^ 8 + e.row % 32 * 8 + e.slate % 8),
            BitVec.ofNat 32 (u.lostCount % 65536 * 65536 + (BitVec.ofInt 16 e.newE).toNat), BitVec.ofNat 32 e.step, BitVec.ofNat 32 e.ticket]
        | [] => [BitVec.ofNat 32 lost, BitVec.ofNat 32 (u.lostCount % 65536 * 65536), 0, 0]
      Ready (.slevt m d) s → lanes s ≠ [] → (launchOf s ck).matrix = true →
      ∃ t, exec (.slevt m d) s = .next t ∧ t = { s with mats := t.mats, threads := t.threads, issue := none, issueSeq := s.issueSeq + 1 }
        ∧ matrixAt t (coreOf s ck) = (match u.log with
            | _ :: r => { u with log := r }
            | [] => { u with lost := false, lostCount := 0 })
        ∧ Threads s t (fun l => completed m (next s) (recorded (.slevt m d) s l)
            ∘ holding (s.issueSeq + 1) (deferredOf s (fun _ => (List.range 4).map (fun k => (d.toNat + k, quad.getD k 0))) l)))
  ∧ ∀ (m : Bool) (d a : RegNo) (c : BitVec 2) (n : BitVec 3) (f : BitVec 2) (s : State), lanes s ≠ [] →
      (∀ i ∈ [Instr.slclr m n, .slrd m d a c n, .slstat m d a n, .slwr m d a n, .fifoclr m f, .slevt m d],
        Ready i s → (launchOf s (groupOf s).ck).matrix = false → (∀ k ∈ lanes s, handlerServes s k = true) →
          ∃ t, exec i s = .next t ∧ Trapped s t .illegal (fun _ => BitVec.ofNat 64 (encode i)))
      ∧ (∀ i ∈ [Instr.slclr m n, .slrd m d a c n, .slstat m d a n, .slwr m d a n],
        Ready i s → (launchOf s (groupOf s).ck).matrix = true → InHandlers s → slateClosed s n.toNat → ∃ t, exec i s = .next t ∧ NestedTrap s t 0x0E)
      ∧ (Ready (.fifoclr m f) s → (launchOf s (groupOf s).ck).matrix = true → InHandlers s → ∃ t, exec (.fifoclr m f) s = .next t ∧ NestedTrap s t 0x0E)

/-! ## The step, the encodings and the invariants -/

/-- A step of a module that runs, with an instruction at issue, runs the instruction that the fetched word decodes to, and a word that
decodes to none as ILLEGAL_WORD; a fetch at an aligned address that translates for EXEC takes the word at the address within its line,
from the core's instruction cache or, where that misses, no L1 holds the line and no byte is spoiled, from the line's home (R127, R257). -/
def Obligations.StepRunsTheDecodedInstruction : Prop :=
  (∀ (s : State) (g : Group) (s1 : State) (w : Word), s.issue = some g → runs s → fetchWord s g = (s1, .word w) →
    (∀ i, decode w.toNat = .instr i → step s = exec i s1) ∧ (∀ r, decode w.toNat = .reject r → step s = exec (.illegalWord w) s1))
  ∧ (∀ (s : State) (i : Instr) (s1 : State), (s.issue = none ∨ ¬ runs s) → nextEvent s = (s1, some i) → step s = exec i s1)
  ∧ ∀ (s : State) (g : Group) (s1 : State) (e lv x : Nat), g.pc.toNat % 4 = 0 → g.pc.toNat < 2 ^ 48 →
    ¬ (0xFE0000000000 ≤ g.pc.toNat ∧ g.pc.toNat < 0xFE0000000000 + 2 ^ 32) →
    translate s (coreOf s g.ck) (clsAt s g.ck).ctx g.pc.toNat .exec false = (s1, .leaf e lv x) →
    let pl := placeOf e lv g.pc.toNat
    linkDenied s1 pl = false →
    (∀ bs, tfind s1.icache (icacheKey (coreOf s g.ck) pl.host (pl.pa / 128)) = some bs → bs.length = 128 →
      fetchWord s g = (s1, .word (BitVec.ofNat 32 (littleEndian 4 (fun j => bs.getD (g.pc.toNat % 128 + j) 0)))))
    ∧ (tfind s1.icache (icacheKey (coreOf s g.ck) pl.host (pl.pa / 128)) = none → s1.l1 = [] → unspoiled s1 → pl.pa % 128 = g.pc.toNat % 128 →
      ∃ t, fetchWord s g = (t, .word (BitVec.ofNat 32 (littleEndian 4 (fun j => rd8 (if pl.host then s1.hmem else s1.dmem) (pl.pa + j)))))
        ∧ t = { s1 with icache := t.icache, biasHolders := t.biasHolders })

/-- Decoding of an instruction's word gives it back, for every well-formed instruction, and a 32-bit word that decodes is the word of the
instruction that it decodes to (R249 to R257). -/
def Obligations.DecodeAndEncodeAgree : Prop :=
  (∀ i, event i = false → i.wellFormed = true → encode i < 2 ^ 32 ∧ decode (encode i) = .instr i)
  ∧ ∀ w i, w < 2 ^ 32 → decode w = .instr i → event i = false ∧ i.wellFormed = true ∧ encode i = w

/-- Words written out from the encodings decode to their instructions, and words with an unassigned major or minor opcode, a field that
must be zero, or an operand that the field does not admit, to none (R249 to R257). -/
def Obligations.SampleWordsDecode : Prop :=
  decode 0x5A010000 = .instr (.fenceRel false 4) ∧ decode 0x5A218000 = .instr (.fenceAcq false 6) ∧ decode 0x5A608500 = .instr (.phase false 2 10)
  ∧ decode 0x5C050600 = .instr (.bararv false 20 12 0) ∧ decode 0x5C450601 = .instr (.barsync false 20 12 1)
  ∧ decode 0x5E014406 = .instr (.waiteq false 5 8 6) ∧ decode 0x5E600502 = .instr (.tlwait false 10 2)
  ∧ decode 0x5EE28200 = .instr (.qtake false 10 4) ∧ decode (0x5EE28200 + 2 ^ 31) = .instr (.qtake true 10 4)
  ∧ (∃ r, decode (63 * 2 ^ 25) = .reject r) ∧ (∃ r, decode 0x5A010001 = .reject r) ∧ (∃ r, decode 0x5EE2C200 = .reject r)

/-- The machine right after reset: the DVSEC's fields are at their reset values (R27), no playbill is latched, no context, program, class,
thread or cached line exists, the clocks run at 1,900 MHz, no instruction is at issue, and the invariants hold; memory lists nothing (log
1, 2, DESIGN CHOICE: the model's choice). -/
def Obligations.ResetState : Prop :=
  State.reset.dvsec.pben = false ∧ State.reset.dvsec.pblive = false ∧ State.reset.dvsec.pberr = false ∧ State.reset.dvsec.count = 0
  ∧ State.reset.playbill = none ∧ State.reset.ctxs = [] ∧ State.reset.maps = [] ∧ State.reset.residents = [] ∧ State.reset.classes = []
  ∧ State.reset.threads = [] ∧ State.reset.l1 = [] ∧ State.reset.rdc = [] ∧ State.reset.icache = [] ∧ State.reset.mainMHz = 1900
  ∧ runs State.reset ∧ State.reset.issue = none ∧ memoryWf State.reset = true ∧ goodLines State.reset = true
  ∧ State.reset.dmem = [] ∧ State.reset.hmem = [] ∧ State.reset.scratch = []

/-- Every step keeps the canonical form of device memory, host memory and scratch. -/
def Obligations.MemoryStaysCanonical : Prop := ∀ s t, memoryWf s = true → step s = .next t → memoryWf t = true

/-- Every step keeps each cached line whole: 128 bytes in every L1 and remote-data cache, with a dirty mark for each byte in an L1 (R148). -/
def Obligations.CachedLinesStayWhole : Prop := ∀ s t, goodLines s = true → step s = .next t → goodLines t = true

/-- A frozen module stands still (R18): whatever comes from outside, short of a reset that acts on it, nothing changes but the freeze
input, the links and ports, what has left the module, the causes that hold it and the model's own schedule. -/
def Obligations.FrozenModuleStandsStill : Prop := ∀ r s t, Frozen r s → step s = .next t → Frozen r t

/-- The checks that come before an instruction's own (R259): with a register that it reads or writes outstanding in every lane, it traps
HAZARD in each with a register's number (R138; of several, one that a free choice names: log 24, DESIGN CHOICE), and so do MOVIX and
MOVIXW where the register named by number is (R259, R291); one that writes a k register under a partial mask, with no register
outstanding, traps UNIFORM_SPLIT with the mask (R132; that HAZARD comes before it is the model's reading, log 19, DEDUCED); ATEND and
ATABORT outside a region trap REGION with the word (R217). -/
def Obligations.ChecksBeforeTheEffect : Prop :=
  (∀ (i : Instr) (s : State), event i = false → i.wellFormed = true → lanes s ≠ [] →
    (∀ l ∈ lanes s, handlerServes s l = true ∧ noHazard (lane s l) i = false) →
    ∃ t, ∃ n : Nat → Nat, exec i s = .next t ∧ Trapped s t .hazard (fun l => BitVec.ofNat 64 (n l))
      ∧ ∀ l ∈ lanes s, ∃ r ∈ readsOf i ++ writesOf i, (∃ f ∈ fieldsOf r, outstanding (lane s l) f = true)
          ∧ if r.2 = 2 then n l = r.1 else n l ∈ fieldsOf r ∧ outstanding (lane s l) (n l) = true)
  ∧ (∀ (i : Instr) (s : State), event i = false → i.wellFormed = true → lanes s ≠ [] → writesK i = true →
    (groupOf s).mask ≠ (troupeAt s (groupOf s).ck (groupOf s).p).lmask →
    (∀ l ∈ lanes s, handlerServes s l = true ∧ noHazard (lane s l) i = true
      ∧ (indirectReg s (groupOf s) i l).all (fun r => !outstanding (lane s l) r.1) = true) →
    ∃ t, exec i s = .next t ∧ Trapped s t .uniformSplit (fun _ => (groupOf s).mask.setWidth 64))
  ∧ (∀ (m : Bool) (d a : RegNo) (s : State), (∀ l ∈ lanes s, handlerServes s l = true) →
    (∀ n : Nat → Nat, (Instr.movix m d a).wellFormed = true → (∀ l ∈ lanes s, noHazard (lane s l) (.movix m d a) = true
        ∧ (reg s l a).toNat = n l ∧ n l ≤ 127 ∧ outstanding (lane s l) (n l) = true) →
      ∃ t, exec (.movix m d a) s = .next t ∧ Trapped s t .hazard (fun l => BitVec.ofNat 64 (n l)))
    ∧ ∀ n : Nat → Nat, (Instr.movixw m d a).wellFormed = true → (∀ l ∈ lanes s, noHazard (lane s l) (.movixw m d a) = true
        ∧ (reg s l d).toNat = n l ∧ n l ≤ 127 ∧ outstanding (lane s l) (n l) = true) →
      ∃ t, exec (.movixw m d a) s = .next t ∧ Trapped s t .hazard (fun l => BitVec.ofNat 64 (n l)))
  ∧ (∀ (m : Bool) (c : BitVec 7) (s : State), (∀ l ∈ lanes s, handlerServes s l = true) →
    (∃ t, exec (.atend m) s = .next t ∧ Trapped s t .region (fun _ => BitVec.ofNat 64 (encode (.atend m))))
    ∧ ∃ t, exec (.atabort m c) s = .next t ∧ Trapped s t .region (fun _ => BitVec.ofNat 64 (encode (.atabort m c))))
  ∧ ∀ (w : Word) (s : State), (∀ l ∈ lanes s, handlerServes s l = true) →
    ∃ t, exec (.illegalWord w) s = .next t ∧ Trapped s t .illegal (fun _ => w.setWidth 64)

/-! ## Events -/

/-- Resets and holds (R20, R15, R17, R18; log 18, DESIGN CHOICE for what survives): POWER_ON and I3C_RESET in every state, PERST and
CXL_RESET in a module neither frozen nor held for power or temperature, and HOLD_END in one so held, leave the reset state, in which
unwritten memory reads as the model has it (log 1, DESIGN CHOICE), port 0 is up, port 1 not in use and every Gratric port untrained (log
10, DESIGN CHOICE), the timebase is 0 (log 11, DESIGN CHOICE) and the link of a module that stays frozen or held is down (log 53,
DEDUCED); a frozen module does not act on PERST or CXL_RESET. A power fault, a thermal trip and a freeze take the links and ports down,
and a power fault alone is reported on the sideband (log 53, DEDUCED); a release of the freeze input resumes nothing. The clock moves by
50 MHz at a time between 950 and 1,900 MHz (R13, R14); scan shifts the state of a frozen module whose image enables it, and else gives no
state (R19; log 53, DEDUCED); telemetry gives the readings, the clock and the error counts (R19, R84), in an order of words that is the
model's (log 17, DESIGN CHOICE); a corrected error is counted and changes nothing else (R84, R165). -/
def Obligations.ResetsClocksAndTelemetry : Prop :=
  (
  ∀ s : State,
    (∃ t, exec .powerOn s = .next t ∧ AfterReset s t (imageHold s))
    ∧ (∃ t, exec .i3cReset s = .next t ∧ AfterReset s t (if s.hold = some .power ∨ s.hold = some .thermal then s.hold else imageHold s))
    ∧ (∀ e ∈ [Instr.perst, Instr.cxlReset],
        (s.frozen = false → s.hold ≠ some .power → s.hold ≠ some .thermal → ∃ t, exec e s = .next t ∧ AfterReset s t (imageHold s))
        ∧ (s.frozen = true → exec e s = .next s))
    ∧ (s.hold = some .power ∨ s.hold = some .thermal → ∃ t, exec .holdEnd s = .next t ∧ AfterReset s t (imageHold s))
    ∧ exec .powerFault s = .next { unlinked s with hold := some .power, i3c := s.i3c ++ [.powerFault] }
    ∧ exec .thermalTrip s = .next { unlinked s with hold := if s.hold = some .power then some .power else some .thermal }
    ∧ exec .freeze s = .next { unlinked s with frozen := true, freezePin := true }
    ∧ exec .freezeRelease s = .next { s with freezePin := false }
  )
  ∧ (
  ∀ s : State,
    (runs s → exec .clockThrottle s = .next { s with mainMHz := if s.mainMHz < 1000 then 950 else s.mainMHz - 50 }
      ∧ exec .clockRestore s = .next { s with mainMHz := if 1850 < s.mainMHz then 1900 else s.mainMHz + 50 })
    ∧ exec .scanShift s = .next { s with hostOut := s.hostOut ++ [.scan (if s.frozen = true ∧ s.cfg.scan = true then some s.toModule else none)] }
    ∧ (∃ t ws, exec .telemetryRead s = .next t ∧ t = { s with free := t.free, i3c := s.i3c ++ [.telemetry ws] } ∧ ws.length = 2100
        ∧ ws.getD 51 0 = s.mainMHz ∧ ∀ k, k < 1024 → ws.getD (52 + k) 0 = tget 0 s.errCorrected k ∧ ws.getD (1076 + k) 0 = tget 0 s.errUncorrected k)
    ∧ ∀ unit, runs s → unit < 1024 → ∃ t, exec (.correctedError unit) s = .next t ∧ t = { s with errCorrected := t.errCorrected }
        ∧ ∀ k, tget 0 t.errCorrected k = tget 0 s.errCorrected k + (if k = unit then 1 else 0)
  )

/-- The DVSEC (R20, R24, R27, R28, R30, R83), while port 0 is up: PBEN latches a playbill whose range is allowed, which is then read
whole, and else sets PBERR, and is ignored while it reads 1 and while a port in use is down (port 1 is in use from its first training: log
10, DESIGN CHOICE); clearing it keeps the converged state; the base and the count hold while PBEN is 1. The mailbox's framing, its
interrupt and the Discovery object's layout are the family's (log 14, PRESUMED): it takes dwords, moves on, and ends an exchange; a
Discovery object is answered, and an SPDM one by the responder as one on the sideband is: GET_CERTIFICATE with the part of the chain asked
for, which ends in the certificate of the key pair derived from the unit secret, and GET_MEASUREMENTS with the measurement asked for (log
15, DESIGN CHOICE; log 62, PRESUMED, for the formats). A function-level reset leaves the RW fields' reset values, and keeps the mailbox's
contents and status (log 18, DESIGN CHOICE). The header names the DVSEC. The links (R23, R24, R26, R370): a link in use that drops, once
the stores that need it and have issued are performed (log 59, DEDUCED), lets the playbill go and leaves everything else; a port that
trains is up, and port 1 is then in use (log 10, DESIGN CHOICE); the reset of port 1 drops its link (log 53, DEDUCED, for its FLR); a
BISnp without an answer, which a mapping in use may meet (log 50, DESIGN CHOICE), is a link failure, and leaves the mapping FAULTED with
LINK; in a flip of step 0x04 it ends the step there, and a flip to device bias ends with LINK at its first page while the link is down. -/
def Obligations.LinksDvsecAndMailbox : Prop :=
  (
  ∀ s : State, runs s → s.linkUp0 = true →
    (s.dvsec.pben = false →
      let b := s.dvsec.baseHi.toNat * 2 ^ 32 + s.dvsec.baseLo.toNat * 2 ^ 12; let n := s.dvsec.count.toNat
      (linksUp s = true → latchable s b n → exec .pbenSet s = .next { s with playbill := some (b, n), fullRead := true, wake := true, dvsec := { s.dvsec with pben := true, pblive := true, pberr := false } })
      ∧ (linksUp s = true → ¬ latchable s b n → exec .pbenSet s = .next { s with dvsec := { s.dvsec with pberr := true } })
      ∧ (linksUp s = false → exec .pbenSet s = .next s))
    ∧ (s.dvsec.pben = true → exec .pbenSet s = .next s)
    ∧ (∃ t, exec .pbenClear s = .next t ∧ Unlatched s t false)
    ∧ exec .functionLevelReset s = .next
        { s with playbill := none, fullRead := false, flags := [], watch := [],
                 dvsec := { Dvsec.reset with pberr := s.dvsec.pberr && !s.dvsec.pben, mbstat := s.dvsec.mbstat, mbwr := s.dvsec.mbwr } }
    ∧ (∀ v : Word, s.dvsec.pben = false →
        exec (.dvsecRegisterWrite 0 0x10 v) s = .next { s with dvsec := { s.dvsec with baseLo := v.extractLsb' 12 20 } }
        ∧ exec (.dvsecRegisterWrite 0 0x14 v) s = .next { s with dvsec := { s.dvsec with baseHi := v.extractLsb' 0 20 } }
        ∧ exec (.dvsecRegisterWrite 0 0x18 v) s = .next { s with dvsec := { s.dvsec with count := v.extractLsb' 0 21 } })
    ∧ (∀ v : Word, s.dvsec.pben = true → ∀ o ∈ [0x10, 0x14, 0x18], exec (.dvsecRegisterWrite 0 o v) s = .next s)
    ∧ (∀ v : Word, exec (.dvsecRegisterWrite 0 0x24 v) s = .next { s with dvsec := { s.dvsec with mkien := v.getLsbD 15, mkvec := v.extractLsb' 0 11 } }
        ∧ exec (.dvsecRegisterWrite 0 0x28 v) s = .next { s with dvsec := { s.dvsec with mbctl := if v.getLsbD 1 then 2 else 0 } }
        ∧ exec (.dvsecRegisterWrite 1 0x24 v) s = .next s)
    ∧ (∀ port, (dvsecWord s port 0).toNat % 2 ^ 20 = 0x10023 ∧ (dvsecWord s port 4).toNat / 2 ^ 20 = 0x3C ∧ dvsecWord s port 8 = 1
        ∧ dvsecWord s port 0x38 = 0x100 ∧ (dvsecWord s port 0xC).getLsbD 0 = s.dvsec.pben ∧ (dvsecWord s port 0xC).getLsbD 1 = s.dvsec.pblive
        ∧ (dvsecWord s port 0xC).getLsbD 2 = s.dvsec.pberr)
    ∧ (∀ v : Word, exec (.mbwrWrite v) s = .next { s with dvsec := { s.dvsec with mbwr := s.dvsec.mbwr ++ [v] } })
    ∧ (∀ v : Word, ∃ t, exec (.mbrdWrite v) s = .next t ∧ t = { s with dvsec := t.dvsec } ∧ t.dvsec.mbrd = s.dvsec.mbrd.drop 1)
    ∧ exec .doeAbort s = .next { s with dvsec := { s.dvsec with mbwr := [], mbrd := [], mbstat := 0 } }
    ∧ (∀ h l x : Word, s.dvsec.mbwr = [h, l, x] → h.toNat % 2 ^ 24 = 1 → l.toNat % 2 ^ 18 = 3 → x.toNat % 256 ≤ 1 →
        ∃ t, exec .doeDiscovery s = .next t ∧ t = { s with dvsec := t.dvsec, irqs := t.irqs } ∧ t.dvsec.mbwr = []
          ∧ t.irqs = s.irqs ++ (if s.dvsec.mbctl.getLsbD 1 then [Config.mailboxVector.toNat] else [])
          ∧ t.dvsec.mbrd = [1, 3, if x.toNat % 256 = 0 then 0x01000001 else 0x00010001])
    ∧ (∀ h l : Word, ∀ r, s.dvsec.mbwr = h :: l :: r → h.toNat % 2 ^ 24 = 0x010001 → l.toNat % 2 ^ 18 = r.length + 2 →
        ∃ t k, exec .spdmDoeRequest s = .next t ∧ t = { s with free := t.free, dvsec := t.dvsec, irqs := t.irqs } ∧ t.dvsec.mbwr = []
          ∧ t.irqs = s.irqs ++ (if s.dvsec.mbctl.getLsbD 1 then [Config.mailboxVector.toNat] else [])
          ∧ (let a := spdmReply s k (r.flatMap (fun w => (List.range 4).map (fun j => w.extractLsb' (8 * j) 8)))
             t.dvsec.mbrd = 0x00010001 :: BitVec.ofNat 32 ((a.length + 3) / 4 + 2)
               :: (List.range ((a.length + 3) / 4)).map (fun k => BitVec.ofNat 32 (littleEndian 4 (fun j => a.getD (4 * k + j) 0)))))
    ∧ (∀ msg, ∃ t k, exec (.spdmMctpRequest msg) s = .next t ∧ t = { s with free := t.free, i3c := s.i3c ++ [.spdm (spdmReply s k msg)] })
    ∧ (∃ top, certChain s = top ++ Config.deviceCert (Config.deviceKeys (Config.unitSecret s.cfg.bytes)).1)
    ∧ measurements s = [(List.range 8).flatMap (fun d => numberBytes 4 (tget 0 s.fwVersion d)),
        (List.range 8).flatMap (fun d => numberBytes 4 (tget 0 s.walkVersion d)), sha384 s.cfg.bytes, numberBytes 2 s.cfg.device.toNat]
    ∧ (∀ (k : Nat) (a b c : Byte) (r : List Byte), let o := littleEndian 2 (fun j => r.getD j 0); let n := littleEndian 2 (fun j => r.getD (2 + j) 0)
        4 ≤ r.length → b.toNat % 16 = 0 → o < (certChain s).length →
        (spdmReply s k (a :: 0x82 :: b :: c :: r)).drop 8 = ((certChain s).drop o).take n)
    ∧ ∀ (k i : Nat) (a b : Byte) (r : List Byte) (v : List Byte), 1 ≤ i → (measurements s)[i - 1]? = some v →
        ((spdmReply s k (a :: 0xE0 :: b :: BitVec.ofNat 8 i :: r)).drop 15).take v.length = v
  )
  ∧ (
  (∀ s : State, runs s →
    (∃ t, exec (.linkDown 0) s = .next t ∧ Unlatched { linkSettled s with linkUp0 := false } t s.dvsec.pberr)
    ∧ (s.port1Used = true → ∀ e ∈ [Instr.linkDown 1, Instr.port1Reset],
        ∃ t, exec e s = .next t ∧ Unlatched { linkSettled s with linkUp1 := false } t s.dvsec.pberr)
    ∧ (s.port1Used = false → exec (.linkDown 1) s = .next { s with linkUp1 := false })
    ∧ exec (.linkRetrain 0) s = .next { s with linkUp0 := true }
    ∧ exec (.linkRetrain 1) s = .next { s with linkUp1 := true, port1Used := true }
    ∧ ∀ rid m, linksUp s = true → tfind s.maps rid = some m → recKind (builtOf s rid) = 2 → snoopsHost s m = true →
        strickenPass s (.bisnp rid 0) = none → ∃ t, exec (.bisnpTimeout rid 0) s = .next t ∧ t.linkUp0 = false ∧ t.playbill = none
          ∧ (entryAt t rid).stand.state = .faulted ∧ (entryAt t rid).stand.reason = 0x0302)
  ∧ ∀ (s : State) (rid : Nat) (m : Map) (v : Nat) (vs : List Nat), flipping s m false = v :: vs →
      (linksUp s = true → s.mishap = some (.bisnp rid 0) →
        ∃ t k, biasStep s rid m false = (t, some (0x0302, k)) ∧ t.linkUp0 = false ∧ t.mishap = none ∧ ∃ w ∈ v :: vs, k = w - m.va / 4096)
      ∧ (linksUp s = false → ∃ t, biasStep s rid m false = (t, some (0x0302, v - m.va / 4096)))
  )

/-- The host's accesses (R25, R59, R60, R160, R325, R370): a read of exported memory gives what the home has, with the bytes first that a
core holds dirty of a COHERENT page, and has no answer where one of its bytes is spoiled (log 40, DESIGN CHOICE); a write clear of the
marks table stores its bytes, leaves no copy of a COHERENT line it touches, and changes no other byte but by what such a copy held dirty;
an access past the exported part ends in the fault hostOutsideHdm (log 60, DESIGN CHOICE); a host request while a link is down has no
answer; a snooped write of host memory leaves no copy of its lines in the device. A write flags the records of the playbill lines that it
touches: all of them in device memory, in host memory those that a filter holds, which then holds them no longer; a write of a queue's
tail word wakes the threads that wait on it. -/
def Obligations.HostAccesses : Prop :=
  ∀ s : State,
    (∀ off n bs, (s.cfg.hdmSize < off + n → exec (.hostMemRead off n) s = .fault (.hostOutsideHdm off))
      ∧ (s.cfg.hdmSize < off + bs.length → exec (.hostMemWrite off bs) s = .fault (.hostOutsideHdm off))
      ∧ (¬ (runs s ∧ linksUp s = true) →
          (off + n ≤ s.cfg.hdmSize → exec (.hostMemRead off n) s = .next { s with hostOut := s.hostOut ++ [.noAnswer] })
          ∧ (off + bs.length ≤ s.cfg.hdmSize → exec (.hostMemWrite off bs) s = .next { s with hostOut := s.hostOut ++ [.noAnswer] })))
    ∧ (runs s → linksUp s = true →
      (∀ off n, off + n ≤ s.cfg.hdmSize → goodLines s = true → dirtyOnce s → s.passing = [] →
        (s.badDev = [] → ∃ t bs, exec (.hostMemRead off n) s = .next t ∧ bs.length = n ∧ (∀ j, j < n → hostReads s (off + j) (bs.getD j 0))
          ∧ t = { s with hostOut := s.hostOut ++ [.data bs], biasHolders := t.biasHolders, l1 := t.l1, rdc := t.rdc, dmem := t.dmem }
          ∧ ∀ x, rd8 t.dmem x = rd8 s.dmem x ∨ dirtyAs s x (rd8 t.dmem x))
        ∧ ∀ x ∈ s.badDev, off ≤ x → x < off + n → holders s false (x / 128) = [] →
            ∃ t, exec (.hostMemRead off n) s = .next t ∧ t.hostOut = s.hostOut ++ [.noAnswer])
      ∧ (∀ off bs, off + bs.length ≤ s.cfg.hdmSize → goodLines s = true → s.passing = [] → (off + bs.length ≤ s.cfg.mkoff ∨ s.cfg.mkoff + 2 ^ 25 ≤ off) →
        ∃ t, exec (.hostMemWrite off bs) s = .next t
          ∧ t = { s with dmem := t.dmem, l1 := t.l1, rdc := t.rdc, badDev := t.badDev, biasHolders := t.biasHolders, flags := t.flags, watch := t.watch, wake := t.wake }
          ∧ (∀ j, j < bs.length → rd8 t.dmem (off + j) = bs.getD j 0
              ∧ (pageClass s ((off + j) / 4096) ≠ 0 → holders t false ((off + j) / 128) = []))
          ∧ (∀ x, x < off ∨ off + bs.length ≤ x → rd8 t.dmem x = rd8 s.dmem x ∨ dirtyAs s x (rd8 t.dmem x))
          ∧ Watched s t (s.hdmBase + off) bs.length)
      ∧ (∀ addr bs, (addr < s.hdmBase ∨ s.hdmBase + s.cfg.hdmSize ≤ addr) → bs ≠ [] → ∃ t, exec (.hostSnoop addr bs) s = .next t
          ∧ t = { s with hmem := t.hmem, badHost := t.badHost, dmem := t.dmem, badDev := t.badDev, passing := t.passing, l1 := t.l1, flags := t.flags,
                         watch := t.watch, wake := t.wake, biasHolders := t.biasHolders }
          ∧ (∀ j, j < bs.length → rd8 t.hmem (addr + j) = bs.getD j 0 ∧ holders t true ((addr + j) / 128) = [])
          ∧ Watched s t addr bs.length)
      ∧ (∀ b k off bs, s.playbill = some (b, k) → off + bs.length ≤ 128 * k →
          ∃ t, exec (.playbillWriteSnoop off bs) s = .next t ∧ Watched s t (b + off) bs.length ∧ t.playbill = s.playbill)
      ∧ ∀ q cb, tfind s.cbs q = some cb → cb.armed = true → ∃ t, exec (.queueTailWrite q) s = .next t ∧ ThreadsOnly s t
          ∧ ∀ k u, tfind s.threads k = some u → u.park = some (.queue q) →
              tfind t.threads k = some { u with park := none, readySince := cycleOf s k })

/-- Issue (R125): a section with a free slot puts the group that it chooses at issue: the ready lanes of one troupe at one program
counter, its counts of waiting afresh. Of its ready troupes it chooses the starved one with the lowest seat, else the one that issued in
the cycle before, else the oldest: by its class's placement, the class's own before spawned ones, then by number; the program counter is
that of the lowest starved lane, else of the lowest ready one. A ready thread that has not issued for 256 cycles is starved, and nothing
else changes. -/
def Obligations.IssueChoosesReadyLanes : Prop :=
  (∀ (s : State) (core sec : Nat) (g : Group), slotFree s core sec = true → chooseGroup s core sec = some g →
    ∃ t, exec (.issueSelect core sec) s = .next t ∧ t.issue = some g ∧ t.regs = s.regs ∧ t.troupes = s.troupes ∧ t.classes = s.classes
      ∧ g.p % 4 = sec ∧ coreOf s g.ck = core
      ∧ (∀ l, l < 32 → inMask g.mask l = true → ∃ u, tfind s.threads (tkey g.ck g.p l) = some u ∧ ready u = true ∧ u.pc = g.pc
          ∧ tfind t.threads (tkey g.ck g.p l) = some { u with starved := false, readySince := coreCycle s core + 1 })
      ∧ ∀ l u, l < 32 → tfind s.threads (tkey g.ck g.p l) = some u → ready u = true → deliverable u = false → u.pc = g.pc → inMask g.mask l = true)
  ∧ (∀ (s : State) (core sec : Nat) (g : Group), chooseGroup s core sec = some g → (∀ e ∈ s.troupes, e.2.order < 2 ^ 127) →
    let k := pkey g.ck g.p; let c := tget CoreState.blank s.cores core
    MayIssue s core sec k
      ∧ (∀ j, MayIssue s core sec j → (∃ l, Starved s core j l) → (∃ l, Starved s core k l) ∧ k % 64 / 4 ≤ j % 64 / 4)
      ∧ (∀ j, MayIssue s core sec j → (∀ i l, MayIssue s core sec i → ¬ Starved s core i l) → tfind c.lastTroupe sec = some j → tget 0 c.lastCycle sec + 1 = c.cycle → k = j)
      ∧ (∀ j, MayIssue s core sec j → (∀ i l, MayIssue s core sec i → ¬ Starved s core i l) →
          (∀ i, tfind c.lastTroupe sec = some i → MayIssue s core sec i → tget 0 c.lastCycle sec + 1 ≠ c.cycle) → ¬ older s j k)
      ∧ ∃ l u, tfind s.threads (k * 32 + l) = some u ∧ g.pc = u.pc
          ∧ ((Starved s core k l ∧ ∀ i, i < l → ¬ Starved s core k i) ∨ ((∀ i, ¬ Starved s core k i) ∧ ReadyLane s k l ∧ ∀ i, i < l → ¬ ReadyLane s k i)))
  ∧ ∀ (s : State) (tk : Nat) (u : Thread), runs s → tfind s.threads tk = some u → ready u = true → active s (ckOfT tk) = true →
    u.readySince + 256 ≤ cycleOf s tk → ∃ t, exec (.threadStarved tk) s = .next t ∧ ThreadsOnly s t ∧ ThreadIs s t tk { u with starved := true }

/-- Deferred results, the marker, and the end of a park (R124, R132, R133, R136, R137): the results of one instruction that no ticket
supplies are written to their registers, a k register the lowest lane's and a c register the highest lane's, unless a later instruction,
or a higher section in this cycle, wrote it, and leave the pending ones; a marker's wait ends once none is pending, in the lanes that wait
beside each other at once (that lanes are served together is the model's reading, log 55, DEDUCED); a lane's wait that R124's table has
ended, or a monitor that fires, makes the lanes whose waits are over at that instruction ready again, together, with those held behind
such a lane alone (log 29, DEDUCED); a barrier's wait ends with one acquire once a phase is complete, in the lanes there whose phases are
(log 30, DEDUCED); a trap's wait for results ends in its handler (R142). -/
def Obligations.ResultsAreWrittenAndParksEnd : Prop :=
  (∀ (s : State) (tk n q : Nat) (u : Thread) (W : Nat → List (Dest × Word)), runs s → tfind s.threads tk = some u →
    (u.pend[n]?).map (fun d => (d.waits, d.seq)) = some (none, q) → (∀ l, l < 32 → ((W l).map (·.1)).Nodup) →
    (∀ l, l < 32 → ((tfind s.threads (tkey (ckOfT tk) (posOfT tk) l)).map (·.pend.filter (·.seq == q))).getD [] = if W l = [] then [] else [⟨W l, none, q⟩]) →
    ∃ t, exec (.deferredResultWrite tk n) s = .next t
      ∧ t = { s with regs := t.regs, badRegs := t.badRegs, troupes := t.troupes, cregs := t.cregs, cregSeq := t.cregSeq, cregLast := t.cregLast,
                     threads := t.threads }
      ∧ (∀ k, tfind t.threads k = (tfind s.threads k).map (fun w => if k / 32 = tk / 32 then { w with pend := w.pend.filter (·.seq != q) } else w))
      ∧ (∀ l a v, l < 32 → (.alloc a, v) ∈ W l → tget 0 t.regs (regKey (ckOfT tk) (posOfT tk) a l) = v)
      ∧ (∀ k, (∀ l a v, l < 32 → (.alloc a, v) ∈ W l → k ≠ regKey (ckOfT tk) (posOfT tk) a l) → tget 0 t.regs k = tget 0 s.regs k)
      ∧ (∀ r, tfind s.troupes (tk / 32) = some r → ∃ r', tfind t.troupes (tk / 32) = some r' ∧ r' = { r with kregs := r'.kregs, kseq := r'.kseq }
          ∧ (∀ m, (∀ l v, l < 32 → (.kreg m, v) ∉ W l) → tget 0 r'.kregs m = tget 0 r.kregs m)
          ∧ ∀ m l v, l < 32 → (.kreg m, v) ∈ W l → (∀ j, j < l → W j = []) →
              tget 0 r'.kregs m = if tget 0 r.kseq m < q then v else tget 0 r.kregs m)
      ∧ (∀ k, k ≠ tk / 32 → tfind t.troupes k = tfind s.troupes k)
      ∧ (∀ k, (∀ l m v, l < 32 → (.creg m, v) ∈ W l → k ≠ ckOfT tk * 8 + m) → tget 0 t.cregs k = tget 0 s.cregs k)
      ∧ ∀ m l v, l < 32 → (.creg m, v) ∈ W l → (∀ j, l < j → j < 32 → W j = []) →
          tget 0 t.cregs (ckOfT tk * 8 + m)
            = if tget 0 s.cregSeq ((ckOfT tk * 8 + m) * 4 + posOfT tk % 4) ≤ q
                ∧ tget 0 s.cregLast (ckOfT tk * 8 + m) ≤ cregStamp s (ckOfT tk) (posOfT tk) then v else tget 0 s.cregs (ckOfT tk * 8 + m))
  ∧ (∀ (s : State) (tk : Nat) (u : Thread), mayWake s tk = true → tfind s.threads tk = some u → u.markWait = true → u.pend = [] →
    ∃ t, exec (.laneWake tk) s = .next t ∧ ThreadsOnly s t
      ∧ ∀ k, tfind t.threads k = (tfind s.threads k).map (fun w =>
          if k / 32 = tk / 32 ∧ w.pc = u.pc ∧ w.markWait = true ∧ w.pend = [] then { w with markWait := false, out := 0, readySince := cycleOf s tk } else w))
  ∧ (∀ (s : State) (tk : Nat) (u : Thread), mayWake s tk = true → tfind s.threads tk = some u → u.markWait = false → deliverable u = false →
    ∀ e ∈ [(Instr.laneWake tk, WaitOver s), (Instr.monitorFire tk, fun _ w => ∃ va, w.park = some (.monitor va))],
      e.2 tk u ∨ (e.1 = .laneWake tk ∧ HeldBehind s tk u (fun _ => False)) →
      ∃ (t : State) (W : Nat → Prop), exec e.1 s = .next t ∧ ThreadsOnly s t
        ∧ (∀ k, W k ↔ ∃ w, tfind s.threads k = some w ∧ k / 32 = tk / 32 ∧ w.pc = u.pc ∧ w.park ≠ none ∧ w.markWait = false ∧ deliverable w = false
            ∧ (e.2 k w ∨ HeldBehind s k w W))
        ∧ ∀ k, (W k → tfind t.threads k = (tfind s.threads k).map (fun w => { w with park := none, was := waitedFor w, readySince := cycleOf s tk }))
            ∧ (¬ W k → tfind t.threads k = tfind s.threads k))
  ∧ (∀ (s : State) (tk : Nat) (u : Thread) (ck o j sc : Nat), mayWake s tk = true → tfind s.threads tk = some u → u.markWait = false →
    u.park = some (.barWait ck o j sc) → sweepOwed s (coreOf s (ckOfT tk)) sc = false →
    phasePast (barrierIn s ck o) (BitVec.ofNat 32 j) = true →
    ∃ t, exec (.laneWake tk) s = .next t ∧ t = { acquireAt s (coreOf s (ckOfT tk)) sc with threads := t.threads }
      ∧ ∀ k, tfind t.threads k = (tfind s.threads k).map (fun w => if k / 32 = tk / 32 ∧ w.pc = u.pc ∧ phaseOver s w = true
          then { w with park := none, parkSeq := 0, pc := w.pc + 4, readySince := cycleOf s tk } else w))
  ∧ ∀ (s : State) (tk : Nat) (u : Thread) (c : Cause) (v epc : DWord), mayWake s tk = true → tfind s.threads tk = some u → u.markWait = false →
    u.park = some (.trapEntry c v epc false) → u.pend = [] → u.inHandler = false → (launchOf s (ckOfT tk)).trapVec ≠ 0xFFFFFFFF →
    ∃ t, exec (.laneWake tk) s = .next t
      ∧ tfind t.threads tk = some { u with
          park := none, parkSeq := 0, out := 0, cause := BitVec.ofNat 8 c.code, tval := v, epc := epc, inHandler := true, pc := vectorOf s (ckOfT tk), readySince := cycleOf s tk }

/-- SIGNAL is taken at an instruction boundary by a thread outside its handler, with the held value (R145); a translation that nothing
will resolve traps ACCESS with the address in a thread that its handler serves (R93); a sweep drops what is clean of the PHASED lines of
two phases ago, in an L1 and in a remote-data cache, keeps their dirty bytes with the present phase, and is no longer owed (R156); a line
tagged read-only, which hits whatever the phase is, is kept (R157); a page walk that finds a permitted leaf fills the die's TLB, and sets
A, and D for a write, in the entry alone (R91, R92, R94). A tick boundary (R116, R117) counts one tick, makes the next one period on, lets
every TICKWAIT of the context go on, and samples into TICKTAIL the tail word of each armed tick-aligned queue of the context, where it
translates, in PHASED memory; a bin that is full, or whose timer has expired, starts its threads in the lowest free reserved seat of its
section, each at the entry with its arguments from register 1 (R110, R111). -/
def Obligations.SignalsSweepsWalksAndTicks : Prop :=
  (
  (∀ (s : State) (tk : Nat) (u : Thread) (v : BitVec 12), mayWake s tk = true → tfind s.threads tk = some u → deliverable u = true → u.held = some v →
    u.pend = [] → (∀ j, u.park ≠ some (.jwait j)) → (launchOf s (ckOfT tk)).trapVec ≠ 0xFFFFFFFF →
    ∃ t, exec (.signalDelivery tk) s = .next t ∧ ThreadsOnly s t
      ∧ ThreadIs s t tk { u with held := none, park := none, parkSeq := 0, out := 0, cause := 0x20, tval := v.setWidth 64, epc := u.pc, inHandler := true, pc := vectorOf s (ckOfT tk), readySince := cycleOf s tk })
  ∧ (∀ (s : State) (tk : Nat) (u : Thread) (va : DWord) (k : Kind), mayWake s tk = true → tfind s.threads tk = some u → u.markWait = false →
    u.park = some (.translation va k) → k ≠ .exec → u.inHandler = false → u.pend = [] → u.region = none →
    (launchOf s (ckOfT tk)).trapVec ≠ 0xFFFFFFFF → peekWalk s (clsAt s (ckOfT tk)).ctx va.toNat k = .miss →
    willBeMapped s (clsAt s (ckOfT tk)).ctx va.toNat = false →
    ∃ t, exec (.translationFaultResolve tk) s = .next t ∧ ThreadsOnly s t
      ∧ ThreadIs s t tk { u with park := none, parkSeq := 0, out := 0, cause := 0x04, tval := va, epc := u.pc, inHandler := true, pc := vectorOf s (ckOfT tk), readySince := cycleOf s tk })
  ∧ (∀ (s : State) (c : Nat), runs s → c < 512 → (corePhaseAt s c).owed = true →
    let p := (corePhaseAt s c).p
    ∃ t, exec (.phaseSweep c) s = .next t ∧ t = { s with l1 := t.l1, corePhase := t.corePhase }
      ∧ (∀ i, corePhaseAt t i = if i = c then ⟨p, false⟩ else corePhaseAt s i)
      ∧ (canonicalKeys s.l1 = true → ∀ k, tfind t.l1 k = (tfind s.l1 k).bind (fun e =>
          if coreOfLine k = c ∧ e.mc = 0 ∧ e.tag = p - 2
          then (if e.ro ≠ [] then some { e with tag := p - 1 } else if e.dirty.any id = true then some { e with tag := p, valid := false } else none)
          else some e)))
  ∧ (∀ (s : State) (d : Nat), runs s → d < 8 → (rdcPhaseAt s d).owed = true →
    let p := (rdcPhaseAt s d).p
    ∃ t, exec (.phaseSweep (512 + d)) s = .next t ∧ t = { s with rdc := t.rdc, rdcPhase := t.rdcPhase }
      ∧ (∀ i, rdcPhaseAt t i = if i = d then ⟨p, false⟩ else rdcPhaseAt s i)
      ∧ ∀ k ln, (k, ln) ∈ t.rdc ↔ (k, ln) ∈ s.rdc ∧ ¬ (k / 2 ^ 60 = d ∧ ln.tag = p - 2))
  ∧ ∀ (s : State) (die ctx va kc root e lv x : Nat), runs s → va < 2 ^ 48 → walkWanted s die ctx va (kindOf kc) = true → rootOf s ctx = some root →
    walkAt s.dmem va (kindOf kc) false 4 root = .leaf e lv x →
    ∃ t, exec (.pageWalk die ctx va kc) s = .next t ∧ t = { s with dmem := t.dmem, dieTlb := t.dieTlb } ∧ rdNat t.dmem x 8 = e % 2 ^ 64
      ∧ eBit e 4 = true ∧ (kindOf kc = .write → eD e = true) ∧ (∀ y, (y < x ∨ x + 8 ≤ y) → rd8 t.dmem y = rd8 s.dmem y)
      ∧ (e < 2 ^ 64 → (tget [] t.dieTlb die).any (tlbServes ctx va (kindOf kc) false) = true)
  )
  ∧ (
  (∀ (s : State) (ctx : Nat) (c : Ctx), runs s → tfind s.ctxs ctx = some c → c.tickOn = true → c.nextAt ≤ s.timebase →
    ∃ t, exec (.tickBoundary ctx) s = .next t
      ∧ tfind t.ctxs ctx = some { c with ticks := c.ticks + 1, period := c.nextPeriod, nextAt := c.nextAt + c.nextPeriod * 100 }
      ∧ ∀ k u, tfind s.threads k = some u → (clsAt s (ckOfT k)).ctx = ctx → u.park = some .tick →
          tfind t.threads k = some { u with park := none, parkSeq := 0, pc := u.pc + 4, readySince := cycleOf s k }
      ∧ (let samples (cb : ControlBlock) : Prop := cb.ctx = ctx ∧ cb.armed = true ∧ cb.qflags % 2 = 1
         canonicalKeys s.cbs = true →
         (∀ q cb, tfind s.cbs q = some cb → samples cb → cb.tailVa < 2 ^ 48 ∧ ∀ e lv a, peekWalk s ctx cb.tailVa .read = .leaf e lv a →
           rdNat s.dmem a 8 = e ∧ eMC e = 0 ∧ linkDenied s (placeOf e lv cb.tailVa) = false) →
         ∀ q cb, tfind s.cbs q = some cb →
           (samples cb → tfind t.cbs q = some { cb with tickTail := (match peekWalk s ctx cb.tailVa .read with
             | .leaf e lv _ => littleEndian 8 (fun j => rd8 s.dmem ((placeOf e lv cb.tailVa).pa + j))
             | _ => cb.tickTail) })
           ∧ (¬ samples cb → tfind t.cbs q = some cb)))
  ∧ ∀ (s : State) (b : Nat) (x : Bin) (p : Nat), runs s → tfind s.bins b = some x → issuing s x.ck = true → freeSeat s x.ck (b % 4) = some p →
    x.slots.length ≤ 32 → (∀ sl ∈ x.slots, sl.args.length ≤ 8) → p < 64 →
    ∀ e ∈ [Instr.binLaunch b, Instr.binTimerExpire b], (e = .binLaunch b → x.slots.length = 32 ∨ x.expired = true) →
      (e = .binTimerExpire b → x.expired = false ∧ x.until_ ≤ coreCycle s (coreOf s x.ck)) →
      ∃ t, exec e s = .next t ∧ tfind t.bins b = none
        ∧ ∀ l sl, x.slots[l]? = some sl → ∃ u, tfind t.threads (tkey x.ck p l) = some u ∧ u.pc = x.entry ∧ u.inHandler = false ∧ u.wb = 0
          ∧ (∀ n, n < sl.args.length → tget 0 t.regs (regKey x.ck p (n + 1) l) = sl.args.getD n 0)
          ∧ ∀ n, sl.args.length < n → n < 1024 → tget 0 t.regs (regKey x.ck p n l) = 0
  )

/-- Placement, stealing and ends (R104 to R109): an usher places its next unit on the first core from its round-robin position on which it
fits, with its threads at the image's entry and cw.restart as the class's relaunches make it, and its position moves to the core after; an
empty usher takes a unit from the first die that gives one, and stops asking when none does; a class that has ended leaves, and the last
of its program leaves a ONCE program COMPLETE and has any other handed to the ushers again with cw.restart one up, but for POLICY 2, where
the class itself starts again with its cw.restart one up. A pre-empted class that can stop leaves its core (R118 to R120) with its
registers, which a model without the bytes of a save area keeps in State's tables (log 8, DESIGN CHOICE), and its waits, its block in the
room set aside, or else in room to be had (log 49, DESIGN CHOICE), on its owner's resume list. -/
def Obligations.ClassesArePlacedMovedAndEnded : Prop :=
  (∀ (s : State) (die rid i : Nat) (pos : List Nat × List Nat), let u := usherAt s die; let l := (residentAt s rid).launch
    let fits (j : Nat) := fitNew s rid (die * 64 + (u.rr + j) % 64) (!(clsAt s (ckOf rid i)).segBase.isEmpty)
    runs s → die < 8 → i < 2 ^ 48 → headOf s u = some (.unit ⟨rid, [i]⟩) → levelsOf l 3 = [] → extentOf l 0 ≤ 32 →
    ∀ j, j < 64 → (∀ m, m < j → fits m = none) → fits j = some pos →
    ∃ t, exec (.classPlace die) s = .next t
      ∧ (let k := clsAt t (ckOf rid i)
         k.placed = true ∧ k.die = die ∧ k.core = (u.rr + j) % 64 ∧ k.rid = rid ∧ k.idx = i ∧ k.troupePos = pos.1 ∧ k.spawnPos = pos.2
           ∧ k.restart = restartOf s rid i)
      ∧ usherAt t die = { u with queue := u.queue.erase ⟨rid, [i]⟩, rr := (u.rr + j + 1) % 64, hand := none }
      ∧ ∀ (n p lane : Nat), (pos.1)[n]? = some p → lane < extentOf l 0 → ∃ v, tfind t.threads (tkey (ckOf rid i) p lane) = some v
          ∧ v.pc = BitVec.ofNat 64 ((residentAt s rid).imageVa + (residentAt s rid).entry) ∧ v.inHandler = false ∧ v.pend = [] ∧ v.park = none)
  ∧ (∀ (s : State) (die : Nat), let u := usherAt s die; runs s → die < 8 → u.resume = [] → u.queue = [] → u.idle = false →
    (∀ v x, askAround s die (fun x => binds s x.rid die) = some (v, x) → ∃ t, exec (.steal die) s = .next t ∧ t = { s with ushers := t.ushers }
        ∧ (usherAt t die).queue = [x] ∧ (usherAt t v).queue = (usherAt s v).queue.erase x)
    ∧ (askAround s die (fun x => binds s x.rid die) = none → ∃ t, exec (.steal die) s = .next t ∧ t = { s with ushers := t.ushers }
        ∧ usherAt t die = { u with idle := true }))
  ∧ (∀ (s : State) (ck : Nat) (r : Resident), let c := clsAt s ck; runs s → classDone s ck = true → tfind s.residents c.rid = some r →
    ∃ t, exec (.classEnd ck) s = .next t ∧ (∀ e ∈ t.threads, ckOfT e.1 ≠ ck)
      ∧ (r.policy ≠ 2 → tfind t.classes ck = none)
      ∧ (r.policy = 0 ∨ r.ended + 1 < r.n → r.policy ≠ 2 → (residentAt t c.rid).ended = r.ended + 1)
      ∧ (r.policy = 0 → r.n ≤ r.ended + 1 → let m := (entryAt t c.rid).stand; m.state = .complete ∧ m.step = 3 ∧ m.done = 0 ∧ m.total = 0)
      ∧ (r.policy ≠ 0 → r.policy ≠ 2 → r.n ≤ r.ended + 1 →
          (residentAt t c.rid).restart = r.restart + 1 ∧ (residentAt t c.rid).ended = 0 ∧ (residentAt t c.rid).placedOnce = []
            ∧ ∀ d ∈ boundDies r.launch, (usherAt t d).idle = false ∧ (levelsOf r.launch 3 = [] → (usherAt t d).queue = (usherAt s d).queue
                ++ ((List.range (classCount r.launch)).filter (fun i => ownerDie r.launch i == d)).map (fun i => ⟨c.rid, [i]⟩)))
      ∧ (r.policy = 2 → (clsAt t ck).placed = false ∧ restartOf t c.rid c.idx = restartOf s c.rid c.idx + 1
          ∧ (usherAt t (ownerDie r.launch c.idx)).resume.getLast? = some ⟨ck, true, none⟩))
  ∧ ∀ (s : State) (ck o : Nat), let c := clsAt s ck; runs s → c.placed = true → c.stopping = true → c.quiesced = false → canStop s ck = true →
    (c.save.map (·.1)).or (saveFit s c.ctx (saveBytes s ck)) = some o →
    ∃ t, exec (.preempt ck) s = .next t ∧ (clsAt t ck).placed = false ∧ (clsAt t ck).stopping = false ∧ ((clsAt t ck).save.map (·.1)) = some o
      ∧ (usherAt t (ownerDie (launchOf s ck) c.idx)).resume.getLast? = some ⟨ck, false, none⟩
      ∧ ((∀ e ∈ s.threads, ckOfT e.1 = ck → e.2.region = none) → t.regs = s.regs ∧ ∀ tk v, ckOfT tk = ck → tfind s.threads tk = some v →
          v.pend = [] → (∀ a, v.park ≠ some (.monitor a)) → tfind t.threads tk = some v)

/-- Kills and withdrawals (R109, R113, R144, R210, R211, R373): a RESIDENT to be killed leaves with every class, and its mark is FAULTED
with the reason, in step 0x02 with the DONE of its last mark of that step and the TOTAL of all its classes where some never were placed
(log 47, DEDUCED); that DONE is the sixteenth part that the placements had reached, where the record is not QUIET. A FIFO-bound request at
an address that no entry will serve, that the entry found does not permit, or that needs a link that is down (log 32, DEDUCED), has its
program killed with 0x0404; one that the reconciler resolves has its class taken off, its cw.restart one up, to join its owner's resume
list once the entry is written; at the third such kill, or where the program is not RESTARTABLE, the program is killed with
RELAUNCH_LIMIT. A FETCHW answers 3 for a program that cannot be fetched from, 2 where no class is left on this die or for it to steal,
units of other programs left alone (log 23, DESIGN CHOICE), and 1 with the coordinates of the class that it withdraws, which counts as
placed and ended. -/
def Obligations.KillsRelaunchesAndWithdrawals : Prop :=
  (∀ (s : State) (rid reason : Nat) (r : Resident), runs s → tfind s.residents rid = some r → r.killPending = some (BitVec.ofNat 16 reason) →
    reason < 2 ^ 16 → ∃ t, exec (.residentKill rid) s = .next t ∧ tfind t.residents rid = none ∧ (∀ e ∈ t.classes, e.2.rid ≠ rid)
      ∧ (∀ d u, tfind t.ushers d = some u → ∀ x ∈ u.queue, x.rid ≠ rid)
      ∧ (let m := (entryAt t rid).stand
         m.state = .faulted ∧ m.reason = reason ∧ (r.placedOnce.length < r.n → m.step = 2 ∧ m.done = r.marked ∧ m.total = r.n)
           ∧ (r.n ≤ r.placedOnce.length → m.step = 3 ∧ m.done = 0 ∧ m.total = 0)))
  ∧ (∀ (s : State) (rid i : Nat) (r : Resident), let d := r.placedOnce.length + 1; let t := countPlaced s rid i
    tfind s.residents rid = some r → i ∉ r.placedOnce → (entryAt s rid).stand.state = .converging → (entryAt s rid).stand.step = 2 → d < r.n →
    tfind t.residents rid = some { r with placedOnce := r.placedOnce ++ [i], marked := (residentAt t rid).marked }
      ∧ (recQuiet (wantOf s rid) = false ∧ (∃ k, 1 ≤ k ∧ k ≤ 15 ∧ d = (k * r.n + 15) / 16) →
          (residentAt t rid).marked = d ∧ (entryAt t rid).stand.done = d ∧ (entryAt t rid).stand.total = r.n)
      ∧ (¬ (recQuiet (wantOf s rid) = false ∧ ∃ k, 1 ≤ k ∧ k ≤ 15 ∧ d = (k * r.n + 15) / 16) →
          (residentAt t rid).marked = r.marked ∧ (entryAt t rid).stand = (entryAt s rid).stand))
  ∧ (∀ (s : State) (req : Nat) (r : Request) (va : DWord) (k : Kind) (rs : Resident),
    let c := clsAt s r.ck; let w := peekWalk s c.ctx va.toNat .read
    let condemned (reason : BitVec 16) : Prop := ∃ t, exec (.fifoFeedFault req) s = .next t ∧ t = { s with residents := t.residents }
      ∧ tfind t.residents c.rid = some { rs with killPending := some (rs.killPending.getD reason) }
    let served : Prop := inAperture va.toNat = false
      ∧ (w = .migrating ∨ (w = .miss ∧ willBeMapped s c.ctx va.toNat = true) ∨ ∃ e lv a, w = .leaf e lv a ∧ linkDenied s (placeOf e lv va.toNat) = false)
    runs s → tfind s.reqs req = some r → r.waits = some (va, k) → r.blk.dest = 2 → active s r.ck = true → tfind s.residents c.rid = some rs →
    (inAperture va.toNat = true ∨ w = .perm ∨ w = .bad ∨ (w = .miss ∧ willBeMapped s c.ctx va.toNat = false)
        ∨ (∃ e lv a, w = .leaf e lv a ∧ linkDenied s (placeOf e lv va.toNat) = true) → condemned 0x0404)
    ∧ (served → rs.launch.restartable = false ∨ 2 ≤ tget 0 rs.kills c.idx → condemned 0x0304)
    ∧ (served → rs.launch.restartable = true → tget 0 rs.kills c.idx < 2 → ∃ t, exec (.fifoFeedFault req) s = .next t
        ∧ (clsAt t r.ck).placed = false ∧ restartOf t c.rid c.idx = restartOf s c.rid c.idx + 1
        ∧ tget 0 (residentAt t c.rid).kills c.idx = tget 0 rs.kills c.idx + 1 ∧ (∀ e ∈ t.threads, ckOfT e.1 ≠ r.ck) ∧ (∀ e ∈ t.l1, r.ck ∉ e.2.ro)
        ∧ (let d := ownerDie rs.launch c.idx
           (usherAt t d).killed = (usherAt s d).killed ++ [⟨r.ck, true, some va⟩] ∧ (usherAt t d).resume = (usherAt s d).resume)))
  ∧ ∀ (s : State) (die : Nat) (f : Fetch) (rest : List Fetch), let u := usherAt s die
    let mail (t : State) (ws : List Nat) : Prop :=
      (∀ j, j < 8 → littleEndian 4 (fun i => rd8 t.scratch (scratchKey f.ck (f.mailbox + 4 * j + i))) = ws.getD j 0 % 2 ^ 32)
        ∧ ∀ x, (x < scratchKey f.ck f.mailbox ∨ scratchKey f.ck f.mailbox + 32 ≤ x) → rd8 t.scratch x = rd8 s.scratch x
    runs s → u.fetches = f :: rest → (∀ g ∈ rest, g.ck ≠ f.ck ∨ g.mailbox ≠ f.mailbox) →
    (fetchable s f.rid = false ∨ (residentAt s f.rid).ctx ≠ (clsAt s f.ck).ctx → ∃ t, exec (.fetchwAnswer die) s = .next t ∧ mail t [3]
      ∧ t = { s with ushers := t.ushers, scratch := t.scratch, badScratch := t.badScratch } ∧ usherAt t die = { u with fetches := rest })
    ∧ (fetchable s f.rid = true → (residentAt s f.rid).ctx = (clsAt s f.ck).ctx → die < 8 →
      (withdraw f.rid u.queue = none → askAround s die (fun x => x.rid == f.rid && binds s x.rid die) = none →
        ∃ t, exec (.fetchwAnswer die) s = .next t ∧ mail t [2]
          ∧ t = { s with ushers := t.ushers, scratch := t.scratch, badScratch := t.badScratch } ∧ usherAt t die = { u with fetches := rest })
      ∧ ∀ i q (r : Resident), withdraw f.rid u.queue = some (i, q) → tfind s.residents f.rid = some r → i ∉ r.placedOnce →
        (∀ d ∈ [2, 3, 4], (levelsOf r.launch d).length ≤ 1) → (∀ v ∈ r.launch.levels, v.domain ≤ 5) →
        r.policy = 0 ∨ r.policy = 2 ∨ r.ended + 1 < r.n → ∃ t, exec (.fetchwAnswer die) s = .next t ∧ mail t ([1, 0] ++ mailWords r.launch i)
          ∧ usherAt t die = { u with queue := q, fetches := rest } ∧ (residentAt t f.rid).placedOnce = r.placedOnce ++ [i]
          ∧ (r.policy ≠ 2 → (residentAt t f.rid).ended = r.ended + 1))

/-- Copy requests (R340, R341, R176, R149, R193): byte o of the row of layer j, c2, c1 and group g lies at the source and the destination
that R340 gives. A request starts once, with its pointer table read, and a FIFO's next byte its first. A piece, up to the end of the row
and of a 128-byte line and leaving no aligned word of eight half written, moves the source's bytes to memory, to scratch or to the FIFO as
far as it has room, or warms a cache alone; a request goes on from where a piece leaves it, and with its last piece moved it has moved
whole. One that reads spoiled data, or meets an access that is not permitted, has its program killed, where a PREFETCH passes the piece
over; one that must wait records for what; a request that has moved completes, its operation leaves its timeline, and its lines are absent
no longer on its account. -/
def Obligations.CopyRequestsMoveAndComplete : Prop :=
  (∀ (r : Request) (j c2 c1 g o : Nat), let b := r.blk; let n1 := if 1 ≤ b.dims then b.count1 else 1; let n2 := if b.dims = 2 then b.count2 else 1
    let gs := if b.kind = 2 then b.groups else 1; let x := (((j * n2 + c2) * n1 + c1) * gs + g) * b.size0 + o
    let base : Int := if b.kind = 2 then (r.bases.getD g 0 : Nat) else (b.src : Int) + (if b.layers then (r.lrFirst + j : Nat) else 0) * b.lstride
    c2 < n2 → c1 < n1 → g < gs → o < b.size0 → (b.layers = false → j = 0) →
    (srcOf r x : Int) = (base + c2 * b.sstride2 + c1 * b.sstride1 + o) % 2 ^ 64
      ∧ (dstOf r x : Int) = (b.dst + j * b.lstride + c2 * b.dstride2 + c1 * b.dstride1 + g * b.size0 + o) % 2 ^ 64)
  ∧ (∀ (s : State) (r : Request) (n : Nat) (s1 : State) (bs : List Nat), readTable s r n = (s1, bs, none) → bs.length = n
      ∧ ∀ k, k < n → ∃ s2, readTable s r k = (s2, bs.take k, none)
        ∧ ∀ s3 pl, engineMeets s2 (coreOfReq s2 r / 64) r.ck (r.blk.ptab + 8 * k) 8 .read = (s3, .place pl) → pl.mc = 0 →
            bs.getD k 0 = littleEndian 8 (fun j => rd8 (homeMem s3 pl.host) (pl.pa + j)))
  ∧ (∀ (s : State) (r : Request), let core := coreOfReq s r; let b := r.blk; let x := r.rows; let src := srcOf r x; let dst := dstOf r x
    let n0 := min (b.size0 - x % b.size0) (128 - src % 128); let n1 := min n0 (128 - dst % 128)
    let whole : Prop := totalOf r ≤ x + n1 ∨ dstOf r (x + n1) ≠ dst + n1 ∨ dstOf r (x + n1) % 8 = 0
    (∀ n, (whole ∧ n = n1) ∨ (¬ whole ∧ dstOf r (x + n1) % 8 < n1 ∧ n = n1 - dstOf r (x + n1) % 8) →
      ∀ s1 pl, engineMeets s (core / 64) r.ck src n .read = (s1, .place pl) → pl.mc = 0 → pl.host = false →
        (b.dest = 1 →
          (spoiledAt s1 false pl.pa n = false → movePiece s r = (writeScratch (recallHost s1 pl n) r.ck dst (rdBytes s1.dmem pl.pa n), .moved n))
          ∧ (spoiledAt s1 false pl.pa n = true → movePiece s r = (recallHost s1 pl n, .spoiled)))
        ∧ (b.dest = 0 → ∀ s2 pd, engineMeets s1 (core / 64) r.ck dst n .write = (s2, .place pd) → pd.mc = 0 → pd.host = false →
          (spoiledAt s2 false pl.pa n = true → movePiece s r = (recallHost s2 pl n, .spoiled))
          ∧ (spoiledAt s2 false pl.pa n = false → ∃ t, movePiece s r = (t, .moved n)
            ∧ t = { s2 with dmem := t.dmem, badDev := t.badDev, biasHolders := t.biasHolders, l1 := t.l1, rdc := t.rdc }
            ∧ ∀ y, rd8 t.dmem y = if pd.pa ≤ y ∧ y < pd.pa + n then rd8 s2.dmem (pl.pa + (y - pd.pa)) else rd8 s2.dmem y)))
    ∧ (b.dest = 2 → let room := 65536 - (fifoAt (matrixAt s core) b.fifo).bytes.length
      (room = 0 → movePiece s r = (s, .held))
      ∧ ∀ s1 pl, 0 < room → x % b.size0 < b.size0 → engineMeets s (core / 64) r.ck src (min n0 room) .read = (s1, .place pl) → pl.mc = 0 → pl.host = false →
        (spoiledAt s1 false pl.pa (min n0 room) = true → movePiece s r = (recallHost s1 pl (min n0 room), .spoiled))
        ∧ (spoiledAt s1 false pl.pa (min n0 room) = false → ∃ t, movePiece s r = (t, .moved (min n0 room))
          ∧ t = { s1 with mats := t.mats, biasHolders := t.biasHolders }
          ∧ fifoAt (matrixAt t core) b.fifo = ⟨(fifoAt (matrixAt s1 core) b.fifo).bytes ++ rdBytes s1.dmem pl.pa (min n0 room),
              (fifoAt (matrixAt s1 core) b.fifo).pos⟩))
    ∧ (3 ≤ b.dest → x % b.size0 < b.size0 → ∀ s1 pl, engineMeets s (core / 64) r.ck src n0 .read = (s1, .place pl) → pl.mc = 0 → pl.host = false →
      s1.passing = [] → ∃ t, movePiece s r = (t, .moved n0) ∧ t = { s1 with rdc := t.rdc, biasHolders := t.biasHolders }))
  ∧ (∀ (s : State) (req : Nat) (r : Request), runs s → tfind s.reqs req = some r → r.moved = false →
    (r.blk.dest = 2 → active s r.ck = true ∧ r.waits = none ∧ (matrixAt s (coreOf s r.ck)).acts = []
      ∧ ∀ i q, (i, q) ∈ s.reqs → i < req → q.ck = r.ck → q.blk.dest = 2 → q.blk.fifo = r.blk.fifo → q.moved = true) →
    let at_ (u : State) (q : Request) : State := { u with reqs := tput u.reqs req q }
    let goesOn (u : State) (q : Request) : Prop := exec (.copyRequestStart req) s = exec (.copyRequestStart req) (at_ u q)
    (r.begun = false → ∀ s1 bs, readTable s r (if r.blk.kind = 2 then r.blk.groups else 0) = (s1, bs, none) → tfind s1.reqs req = some r →
      let f := fifoAt (matrixAt s1 (coreOfReq s1 r)) r.blk.fifo
      goesOn s1 { r with begun := true, bases := bs, start := f.pos + f.bytes.length - r.rows, waits := none })
    ∧ ∀ s2 p, r.begun = true → r.rows < totalOf r → movePiece (at_ s { r with waits := none }) { r with waits := none } = (s2, p) →
      let r' : Request := { r with waits := none }
      let condemned (reason : BitVec 16) : Prop := ∃ t, exec (.copyRequestStart req) s = .next t ∧ t = { s2 with residents := t.residents }
        ∧ ∀ rs, tfind s2.residents (ridOf r.ck) = some rs → tfind t.residents (ridOf r.ck) = some { rs with killPending := some (rs.killPending.getD reason) }
      (∀ n, p = .moved n → r.rows + n = totalOf r → ∃ t, exec (.copyRequestStart req) s = .next t ∧ t = { s2 with reqs := t.reqs }
        ∧ (tfind s2.reqs req = some r' → tfind t.reqs req = some { r' with rows := totalOf r, moved := true }))
      ∧ (∀ n, p = .moved n → tfind s2.reqs req = some r' → goesOn s2 { r' with rows := r.rows + n })
      ∧ (p = .held → exec (.copyRequestStart req) s = .next s2)
      ∧ (p = .spoiled → condemned 0x040F)
      ∧ (∀ va k, p = .fail va k → r.blk.dest ≤ 2 → condemned 0x0404)
      ∧ (∀ va k, p = .wait va k → r.blk.dest ≤ 2 → ∃ t, exec (.copyRequestStart req) s = .next t ∧ t = { s2 with reqs := t.reqs }
        ∧ (tfind s2.reqs req = some r' → tfind t.reqs req = some { r with waits := some (BitVec.ofNat 64 va, k) }))
      ∧ ∀ va k, p = .wait va k ∨ p = .fail va k → 3 ≤ r.blk.dest → tfind s2.reqs req = some r' →
        goesOn s2 { r' with rows := r.rows + min (r.blk.size0 - r.rows % r.blk.size0) (128 - srcOf r r.rows % 128) })
  ∧ ∀ (s : State) (req : Nat) (r : Request), runs s → tfind s.reqs req = some r → r.moved = true → r.completed = false →
    ∃ t, exec (.copyComplete req) s = .next t ∧ t = { s with reqs := t.reqs, timelines := t.timelines, absent := t.absent }
      ∧ (timelineAt t r.ck r.blk.tl).ops = (if r.holds then (timelineAt s r.ck r.blk.tl).ops.erase r.num else (timelineAt s r.ck r.blk.tl).ops)
      ∧ ∀ ln, ln < 2 ^ 25 → (linesOf r.blk r.lrFirst r.lrLast).Nodup → (∀ x ∈ linesOf r.blk r.lrFirst r.lrLast, x < 2 ^ 25) →
          absentAt t r.ck ln = absentAt s r.ck ln - (if ln ∈ linesOf r.blk r.lrFirst r.lrLast then 1 else 0)

/-- The matrix unit (R195 to R203, R205, R206): a loop with no step left ends, its slate's loop status and its timeline say so; a loop
with steps left and its chunks in its FIFOs applies one: every row of its slate takes the products of that row, its renormalisations
joining the log in row order, in MODE 1 only if no row would be renormalised, where the loop ends instead, stopped; the products of a row
are those of its elements, column by column; a row makes room for them by whole bytes, an empty row taking its exponent from them, sets O
where its exponent would pass 32,767, takes the floor of each product at its exponent, is shifted by 8 where a sum does not fit, takes N
from a factor that is not finite, and stands still but for N while O is set. A ticketed SLCLR clears its slate, SLWR writes its row from
the lanes' values, SLRD and SLSTAT fill the results that wait for them, and FIFOCLR empties its FIFO and releases the requests before it. -/
def Obligations.MatrixUnitSteps : Prop :=
  (∀ (s : State) (core ticket ck : Nat) (lp : Loop), let u := matrixAt s core; runs s → u.loops.find? (fun x => x.ticket == ticket) = some lp →
    matrixClass s core = some ck → loopHeld u lp = false →
    let ended (stopped : Bool) : Prop := ∃ t, exec (.matrixStep core ticket) s = .next t ∧ t = { s with mats := t.mats, timelines := t.timelines, reqs := t.reqs }
      ∧ (let v := matrixAt t core
         v = { u with loops := u.loops.filter (fun x => x.ticket != ticket), slates := v.slates, log := v.log, staged := v.staged, lost := v.lost, lostCount := v.lostCount }
           ∧ slateAt v lp.slate = { slateAt u lp.slate with stopped := stopped, steps := BitVec.ofNat 32 lp.applied }
           ∧ ∀ n, n ≠ lp.slate → slateAt v n = slateAt u n)
      ∧ (timelineAt t ck lp.tl).ops = (timelineAt s ck lp.tl).ops.erase lp.num
    (lp.remaining = 0 → ended false)
    ∧ ∀ c, 0 < lp.remaining → nextChunks u lp = some c →
      let ps (i : Nat) := (stepProducts lp.fmt c.1 c.2.1).getD i ([], false)
      let shifts : Prop := fwMode lp.fmt = 1 ∧ ∃ i, i < 32 ∧ wouldShift (rowAt (slateAt u lp.slate) i) (ps i).1 = true
      (shifts → ended true)
      ∧ (¬ shifts → ∃ t, exec (.matrixStep core ticket) s = .next t ∧ t = { s with mats := t.mats, timelines := t.timelines, reqs := t.reqs }
        ∧ (∀ i, i < 32 → rowAt (slateAt (matrixAt t core) lp.slate) i = (stepRow (rowAt (slateAt u lp.slate) i) (ps i).1 (ps i).2).1)
        ∧ (∀ n, n ≠ lp.slate → slateAt (matrixAt t core) n = slateAt u n)
        ∧ (let ev := (List.range 32).flatMap (fun i => (stepRow (rowAt (slateAt u lp.slate) i) (ps i).1 (ps i).2).2.map (fun e =>
             (⟨lp.slate, i, e.1.toNat, e.2, lp.applied, ticket⟩ : LogEntry)))
           u.staged = [] → (∀ x ∈ u.loops, x.ticket = ticket) → u.log.length + ev.length ≤ 64 →
             (matrixAt t core).log = u.log ++ ev ∧ (matrixAt t core).staged = [])
        ∧ (∀ f, let n := (if f = lp.fa then c.2.2.1 else 0) + (if f = lp.fb then c.2.2.2 else 0)
            fifoAt (matrixAt t core) f = ⟨(fifoAt u f).bytes.drop n, (fifoAt u f).pos + n⟩)
        ∧ (1 < lp.remaining → (matrixAt t core).loops.find? (fun x => x.ticket == ticket)
            = some { lp with remaining := lp.remaining - 1, applied := lp.applied + 1 })
        ∧ (lp.remaining = 1 → (∀ x ∈ (matrixAt t core).loops, x.ticket ≠ ticket) ∧ (timelineAt t ck lp.tl).ops = (timelineAt s ck lp.tl).ops.erase lp.num
            ∧ (slateAt (matrixAt t core) lp.slate).stopped = false ∧ (slateAt (matrixAt t core) lp.slate).steps = BitVec.ofNat 32 (lp.applied + 1))))
  ∧ (∀ (a : List (Option (Int × Int))) (b : List (List (Option (Int × Int)))) (j : Nat) (q e : Int), (j, q, e) ∈ (rowProducts a b).1 ↔
    j < 32 ∧ ∃ k x y, k < 32 ∧ a.getD k none = some x ∧ (b.getD j []).getD k none = some y ∧ x.1 * y.1 ≠ 0 ∧ q = x.1 * y.1 ∧ e = x.2 + y.2)
  ∧ (∀ (r : Row) (ps : Products) (nf : Bool), let r1 := { r with n := r.n || nf }
    (r.o = true ∨ ps = [] → stepRow r ps nf = (r1, []))
    ∧ ∀ g, r.o = false → isTop g ps → r.m.length = 32 → -32768 ≤ r.e →
      let r2 := if r.z = true then { r1 with e := max (g - 40) (-32768), z := false } else r1
      ∃ ev r3, MakesRoom g r2 ev r3
        ∧ (r3.o = true → stepRow r ps nf = (r3, ev))
        ∧ (let sum (j : Nat) : Int := (r3.m.getD j 0).toInt + ((ps.filter (fun p => p.1 == j)).map (fun p => floorOf p.2.1 (p.2.2 - r3.e))).sum
           let fit : Prop := ∀ j, j < 32 → -(2 ^ 47 : Int) ≤ sum j ∧ sum j < 2 ^ 47
           r3.o = false →
           (fit → stepRow r ps nf = ({ r3 with m := (List.range 32).map (fun j => BitVec.ofInt 48 (sum j)) }, ev))
           ∧ (¬ fit → 32767 < r3.e + 8 → stepRow r ps nf = ({ r3 with o := true, e := 32767 }, ev))
           ∧ (¬ fit → r3.e + 8 ≤ 32767 → stepRow r ps nf
              = ({ r3 with m := (List.range 32).map (fun j => BitVec.ofInt 48 (nearestEven (sum j) 8)), e := r3.e + 8 }, ev ++ [(8, r3.e + 8)]))))
  ∧ (∀ (s : State) (core ticket ck : Nat) (a : Act), let u := matrixAt s core; runs s → u.acts.find? (fun x => x.ticket == ticket) = some a →
    matrixClass s core = some ck → actHeld u a = false →
    (a.kind = .clear → ∃ t, exec (.ticketedSlateAct core ticket) s = .next t ∧ t = { s with mats := t.mats, reqs := t.reqs }
      ∧ slateAt (matrixAt t core) a.slate = Slate.blank ∧ (matrixAt t core).acts = u.acts.filter (fun x => x.ticket != ticket))
    ∧ (∀ row vals, a.kind = .write row vals → ∃ t, exec (.ticketedSlateAct core ticket) s = .next t ∧ t = { s with mats := t.mats, reqs := t.reqs }
      ∧ (matrixAt t core).acts = u.acts.filter (fun x => x.ticket != ticket) ∧ (∀ n, n ≠ a.slate → slateAt (matrixAt t core) n = slateAt u n)
      ∧ (slateAt (matrixAt t core) a.slate).stopped = (slateAt u a.slate).stopped ∧ (slateAt (matrixAt t core) a.slate).steps = (slateAt u a.slate).steps
      ∧ (∀ i, i ≠ row → rowAt (slateAt (matrixAt t core) a.slate) i = rowAt (slateAt u a.slate) i)
      ∧ (let r := rowAt (slateAt (matrixAt t core) a.slate) row
         let value (j : Nat) : Int × Int := match f32 (tget 0 vals j) with | .fin sg m e => (if sg then -(m : Int) else m, e) | _ => (0, 0)
         let ps : Products := ((List.range 32).map (fun j => (j, value j))).filter (fun p => p.2.1 != 0)
         (r.n = true ↔ ∃ j, j < 32 ∧ ∀ sg m e, f32 (tget 0 vals j) ≠ .fin sg m e) ∧ r.o = false
           ∧ (ps = [] → r.z = true ∧ r.e = 0 ∧ ∀ j, r.m.getD j 0 = 0)
           ∧ ∀ g, isTop g ps → r.z = false ∧ r.e = max (g - 40) (-32768)
               ∧ ∀ j, j < 32 → (r.m.getD j 0).toInt = floorOf (value j).1 ((value j).2 - r.e)))
    ∧ (∀ row conv tk v d q, a.kind = .read row conv → a.lanes = [tk] → tfind s.threads tk = some v → v.pend = [⟨[(.alloc d, 0)], some ticket, q⟩] →
      ∃ t, exec (.ticketedSlateAct core ticket) s = .next t ∧ t = { s with mats := t.mats, reqs := t.reqs, threads := t.threads }
        ∧ matrixAt t core = { u with acts := u.acts.filter (fun x => x.ticket != ticket) }
        ∧ ThreadIs s t tk { v with pend := [⟨[(.alloc d, elementRead (rowAt (slateAt u a.slate) row) conv (laneOfT tk))], none, q⟩] })
    ∧ (∀ row tk v d d' q, a.kind = .stat row → a.lanes = [tk] → tfind s.threads tk = some v →
      v.pend = [⟨[(.alloc d, 0), (.alloc d', 0)], some ticket, q⟩] →
      ∃ t, exec (.ticketedSlateAct core ticket) s = .next t ∧ t = { s with mats := t.mats, reqs := t.reqs, threads := t.threads }
        ∧ matrixAt t core = { u with acts := u.acts.filter (fun x => x.ticket != ticket) }
        ∧ (let sl := slateAt u a.slate; let r := rowAt sl row
           ThreadIs s t tk { v with pend := [⟨[(.alloc d, BitVec.ofNat 32 (sl.stopped.toNat * 2 ^ 31 + r.o.toNat * 2 ^ 18 + r.n.toNat * 2 ^ 17
             + r.z.toNat * 2 ^ 16 + (r.e % 2 ^ 16).toNat)), (.alloc d', sl.steps)], none, q⟩] }))
    ∧ ∀ f upTo, a.kind = .fifoClear f upTo → canonicalKeys s.reqs = true →
      ∃ t, exec (.ticketedSlateAct core ticket) s = .next t ∧ t = { s with mats := t.mats, reqs := t.reqs }
        ∧ (∀ n, fifoAt (matrixAt t core) n = if n = f then ⟨[], 0⟩ else fifoAt u n)
        ∧ matrixAt t core = { u with acts := u.acts.filter (fun x => x.ticket != ticket), fifos := (matrixAt t core).fifos }
        ∧ ∀ k x, tfind s.reqs k = some x →
          (k < upTo → x.ck = ck → x.blk.dest = 2 → x.blk.fifo = f → x.retained = true → x.completed = false →
            tfind t.reqs k = some { x with retained := false, cleared := true, moved := true, waits := none })
          ∧ (x.ck ≠ ck ∨ x.blk.dest ≠ 2 → (x.completed = false ∨ x.retained = true) → tfind t.reqs k = some x))

/-- The fabric (R31 to R34, R344, R345): an operation whose payload is read is sent; one whose window is held by PAUSED is sent as refused
(log 33, DEDUCED); one that settles leaves, and its window's issue counter takes in its number; one refused, or without a path in time, is
counted in the refused counter; an arrival that its window does not permit, or whose record is not CONVERGED, is refused with no effect,
and a PUT that it permits is written and counted. A port in service that fails leaves service, and the marks of its die's FIRMWARE records
say so (log 56, DESIGN CHOICE); one that trains is in service, but for a module that has found its device number taken. -/
def Obligations.FabricOperationsTravel : Prop :=
  (∀ (s : State) (op : Nat) (x : FabOp), runs s → tfind s.fabOps op = some x →
    (∀ s1 ps, x.phase = .queued → x.blk.kind ≠ 3 → windowHeld s x.win = false → payloadRows s (x.core / 64) x.ck x.blk x.blk.n1 = (s1, .inr ps) →
      ∃ t, exec (.fabricOpSend op) s = .next t
        ∧ t = { s1 with fabOps := tput s1.fabOps op { x with phase := .sent, selfRefused := false, payload := ps } })
    ∧ (x.phase = .queued → windowHeld s x.win = true → exec (.fabricOpSend op) s
        = .next { s with fabOps := tput s.fabOps op { x with phase := .sent, selfRefused := true, payload := [] } })
    ∧ ∀ w, x.phase = .sent → tfind s.windows x.win = some w →
      (x.selfRefused = false → x.blk.kind ≠ 3 → x.num = w.issue + 1 → w.settled = [] → ∃ t, exec (.fabricOpSettle op false []) s = .next t
        ∧ tfind t.fabOps op = none ∧ tfind t.windows x.win = some { w with issue := w.issue + 1 }
        ∧ t = { s with fabOps := t.fabOps, windows := t.windows, timelines := t.timelines, absent := t.absent })
      ∧ ∀ e ∈ [Instr.fabricOpSettle op true [], Instr.fabricPathTimeout op], ∃ t w', exec e s = .next t ∧ tfind t.fabOps op = none
        ∧ tfind t.windows x.win = some w' ∧ w'.refused = w.refused + 1
        ∧ t = { s with fabOps := t.fabOps, windows := t.windows, timelines := t.timelines, absent := t.absent })
  ∧ (∀ (s : State) (win off : Nat) (w : Window) (bs : List Byte), runs s → tfind s.windows win = some w →
    ((converged s w.rid = false ∨ w.paused = true ∨ w.peer = true ∨ w.perms / 2 % 2 = 0 ∨ w.size < off + bs.length) →
      exec (.fabricOpArrival win 1 [(off, bs)] 0 0 0) s = .next { s with hostOut := s.hostOut ++ [.fabric true []] })
    ∧ ∀ s1 pl, converged s w.rid = true → w.paused = false → w.peer = false → w.perms / 2 % 2 = 1 → off + bs.length ≤ w.size → bs ≠ [] →
      (w.va + off) % 128 + bs.length ≤ 128 →
      windowPlaces s w.ctx .write [(w.va + off, bs.length)] = (s1, some [(pl, bs.length)]) → pl.mc = 0 → pl.host = false →
      ∃ t, exec (.fabricOpArrival win 1 [(off, bs)] 0 0 0) s = .next t
        ∧ t = { s1 with dmem := t.dmem, badDev := t.badDev, biasHolders := t.biasHolders, windows := t.windows, hostOut := s1.hostOut ++ [.fabric false []] }
        ∧ tfind t.windows win = some { w with arrival := w.arrival + 1 }
        ∧ ∀ x, rd8 t.dmem x = if pl.pa ≤ x ∧ x < pl.pa + bs.length then bs.getD (x - pl.pa) 0 else rd8 s1.dmem x)
  ∧ ∀ (s : State) (p : Nat), runs s → p < 144 →
    (tget .untrained s.ports p = .inService → ∃ t, exec (.gratricPortFail p) s = .next t ∧ t.ports = tput s.ports p .failed ∧ t.fabOps = s.fabOps
      ∧ (dieRecords s (p / 18) = [] → t = { s with ports := tput s.ports p .failed })
      ∧ ∀ id ∈ dieRecords s (p / 18), let ds := (List.range 8).filter (fun d => fwDies (wantOf s id) / 2 ^ d % 2 == 1)
        let m := (entryAt t id).stand
        m.state = .converged ∧ m.total = 18 * ds.length
          ∧ m.done = ((ds.flatMap (fun d => (List.range 18).map (· + 18 * d))).filter (fun q => tget Port.untrained t.ports q == .inService)).length)
    ∧ (tget .untrained s.ports p = .untrained → s.duplicate = false → exec (.gratricPortTrain p) s = .next { s with ports := tput s.ports p .inService })
    ∧ (s.duplicate = false → exec .deviceNumberConflict s = .next { s with ports := [], duplicate := true, i3c := s.i3c ++ [.duplicateDevice] })
    ∧ exec (.flitResend p) s = .next s

/-- Uncorrectable errors (R66, R84, R165, R341): a clean L1 line, and a line of an instruction cache, is dropped, the core counting it; a
line of a remote-data cache is dropped; dirty bytes of a mapping that are lost leave its record FAULTED with MEMORY_LOST, their channel
counting it; what an error spoils, a word of scratch or a codeword of memory, is spoiled until it is written, which mends the bytes
written (log 40, DESIGN CHOICE), and a load that would take it traps MEMORY_ERROR; the same for what a thread fetches next and for what a
copy request reads next. A record's step that the error falls on ends with MEMORY_LOST at one of its units, and the record is FAULTED in
that step. -/
def Obligations.UncorrectableErrorsAreContained : Prop :=
  (∀ (s : State) (addr : Nat), runs s →
    (∀ k ln, tfind s.l1 k = some ln → ln.dirty.any id = false → ∃ t, exec (.uncorrectableError 0 k addr) s = .next t
      ∧ t = { s with l1 := tdel s.l1 k, errUncorrected := t.errUncorrected }
      ∧ tget 0 t.errUncorrected (coreOfLine k) = tget 0 s.errUncorrected (coreOfLine k) + 1)
    ∧ (∀ k, exec (.uncorrectableError 1 k addr) s = .next { s with rdc := tdel s.rdc k })
    ∧ (∀ k bs, tfind s.icache k = some bs → ∃ t, exec (.uncorrectableError 2 k addr) s = .next t
      ∧ t = { s with icache := tdel s.icache k, errUncorrected := t.errUncorrected }
      ∧ tget 0 t.errUncorrected (k / 2 ^ 60) = tget 0 s.errUncorrected (k / 2 ^ 60) + 1)
    ∧ (∀ line id m vp, mapAt s false (line / 32) = some (id, m, vp) → recKind (builtOf s id) = 2 →
      ∃ t, exec (.uncorrectableError 3 line addr) s = .next t ∧ (entryAt t id).stand.state = .faulted ∧ (entryAt t id).stand.reason = 0x0301
        ∧ ∀ c, tget 0 t.errUncorrected c = tget 0 s.errUncorrected c
            + (if c = 512 + homeChannel (line * 128) (frameAt s (line / 32)).place then 1 else 0))
    ∧ (∀ tk o, let ck := ckOfT tk; addr = 0xFE0000000000 + o → o < 0x80000000 → o < (launchOf s ck).scratch →
      ∃ t, exec (.uncorrectableError 4 tk addr) s = .next t ∧ t = { s with badScratch := t.badScratch, errUncorrected := t.errUncorrected }
        ∧ ∀ j, j < 8 → badScratchAt t ck (o / 8 * 8 + j) 1 = true)
    ∧ (∀ tk e lv a, inAperture addr = false → peekWalk s (clsAt s (ckOfT tk)).ctx addr .read = .leaf e lv a → let pl := placeOf e lv addr
      ∃ t, exec (.uncorrectableError 4 tk addr) s = .next t
        ∧ t = { s with badDev := t.badDev, badHost := t.badHost, errUncorrected := t.errUncorrected }
        ∧ ∀ x, spoiledAt t pl.host x 1 = true ↔ spoiledAt s pl.host x 1 = true ∨ (pl.pa / 32 * 32 ≤ x ∧ x < pl.pa / 32 * 32 + 32))
    ∧ (∀ tk e lv a, let va := (threadAt s tk).pc.toNat; let core := coreOf s (ckOfT tk)
      peekWalk s (clsAt s (ckOfT tk)).ctx va .exec = .leaf e lv a → let pl := placeOf e lv va
      ∃ t, exec (.uncorrectableError 5 tk addr) s = .next t ∧ spoiledAt t pl.host pl.pa 1 = true ∧ t.threads = s.threads
        ∧ tfind t.icache (icacheKey core pl.host (pl.pa / 128)) = none)
    ∧ (∀ req r e lv a, tfind s.reqs req = some r → r.moved = false → r.begun = true → inAperture (srcOf r r.rows) = false →
      peekWalk s (clsAt s r.ck).ctx (srcOf r r.rows) .read = .leaf e lv a → let pl := placeOf e lv (srcOf r r.rows)
      ∃ t, exec (.uncorrectableError 6 req addr) s = .next t ∧ spoiledAt t pl.host pl.pa 1 = true ∧ t.reqs = s.reqs)
    ∧ ∀ id, (s.playbill = none ∨ s.dvsec.pben = false) → exec (.uncorrectableError 7 id addr) s = .next s)
  ∧ (∀ (s : State) (ck o n : Nat), o + n ≤ (launchOf s ck).scratch → absentLine s ck o n = none → badScratchAt s ck o n = true →
    scratchAccess s ck o n .load = (s, .trap .memoryError (BitVec.ofNat 64 (0xFE0000000000 + o))))
  ∧ (∀ (s s1 : State) (ck a n : Nat) (pl : Place) (hint : Bool), globalPages s (coreOf s ck) (clsAt s ck).ctx a n .read = (s1, .inr [(pl, n)]) →
    spoiledAt s1 pl.host pl.pa n = true → soleCopy s1 (coreOf s ck) pl → tfind s1.l1 (lineKey (coreOf s ck) pl.host (pl.pa / 128)) = none →
    settledAt s1 (coreOf s ck) pl → s1.passing = [] →
    globalAccess s ck a n hint .load = (s1, .trap .memoryError (BitVec.ofNat 64 a)))
  ∧ (∀ (s : State) (ck o x : Nat) (bs : List Byte), o + bs.length ≤ 2 ^ 32 → x < 2 ^ 32 →
    (badScratchAt (writeScratch s ck o bs) ck x 1 = true ↔ badScratchAt s ck x 1 = true ∧ (x < o ∨ o + bs.length ≤ x)))
  ∧ (∀ (s : State) (pl : Place) (bs : List Byte) (x : Nat), pl.mc = 0 →
    (spoiledAt (homeWrite s pl bs) pl.host x 1 = true ↔ spoiledAt s pl.host x 1 = true ∧ (x < pl.pa ∨ pl.pa + bs.length ≤ x)))
  ∧ (∀ (s : State) (id n : Nat) (host : Bool) (bad : Nat → Bool), s.mishap = some (.lost id) → host = false ∨ linksUp s = true → 0 < n →
    ∃ s1 k, stopAt s id n host bad = (s1, some (0x0301, k)) ∧ k < n ∧ s1 = { s with mishap := none, free := s.free + 1 })
  ∧ ∀ (s s1 : State) (id k reason done total : Nat) (rest : List Nat), let s0 := updEntry s id (fun e => { e with plan := k :: rest })
    skips s0 id (wantOf s0 id) k = false → stepBlock s0 id k = none → runStep s0 id (wantOf s0 id) k = (s1, some (reason, done)) → reason ≠ 0x0401 →
    let t := runPlan id (k :: rest) (0, total) s; let m := (entryAt t id).stand; let f := (entryAt s1 id).stand
    m.state = .faulted ∧ m.step = f.step ∧ m.reason = reason ∧ m.done = done ∧ m.total = f.total ∧ (entryAt t id).plan = []

/-- The reconciler (R40 to R45, R58, R61, R63): a pass runs on a wake-up, and a sweep 10 ms after the last pass ended; a header that fails
a check leaves every record as it stands and mark 0 REFUSED; one that passes leaves no flagged id unread; a sweep remembers the REVHINT it
read, whatever the header, and so does a first full read of a good one; a record read with an odd version has a CONFLICT mark with TORN,
and one whose seal does not match its bytes a CONFLICT mark with SEAL, but for one that reads QUIET (log 57, DEDUCED), the state it stands
in unchanged. A SNAPSHOT whose context can stop quiesces its classes and fixes its image where that fits its target, and is BLOCKED, its
classes released, where it does not (R77, R78; log 35, DEDUCED); where the context cannot stop yet, nothing happens. A save block fills
whole 4 KiB units, and holds the class words, each troupe's lane records and registers, its own troupes by number and then the spawned
ones by position, and the scratch, where R120 has them. -/
def Obligations.PassesReadRecordsAndSnapshotsQuiesce : Prop :=
  (∀ (s : State) (b n : Nat), s.playbill = some (b, n) → runs s → linksUp s = true → s.dvsec.pben = true →
    let h := (readRecord { s with wake := false, marksWritten := false } b 0).2
    ∀ e ∈ [Instr.passStep, Instr.backstopSweep], (e = .passStep → s.wake = true) → (e = .backstopSweep → s.lastPassEnd + 1000000 ≤ s.timebase) →
      ∃ t, exec e s = .next t ∧ t.lastPassEnd = s.timebase
        ∧ (∀ reason, headerBad h = some reason → reason < 2 ^ 16 → t.book = s.book ∧ t.ctxs = s.ctxs ∧ t.maps = s.maps ∧ t.wake = false
            ∧ t.playbill = s.playbill ∧ 0 ∉ t.flags ∧ t.lastRev = (if e = .backstopSweep then fieldAt h 4 4 else s.lastRev)
            ∧ rd8 t.dmem (s.cfg.mkoff + 4) = 8 ∧ littleEndian 2 (fun j => rd8 t.dmem (s.cfg.mkoff + 6 + j)) = reason)
        ∧ (headerBad h = none → s.mishap = none → 0 ∉ t.flags ∧ t.playbill = s.playbill
            ∧ t.lastRev = (if e = .backstopSweep ∨ s.fullRead = true then fieldAt h 4 4 else s.lastRev)
            ∧ (2 ≤ fieldAt h 8 4 → fieldAt h 8 4 ≤ n → ∀ i, i < fieldAt h 8 4 → i ∉ t.flags)))
  ∧ (∀ (s : State) (b count id : Nat), let r := (readRecord s b id).2; let t := (takeRecord s b count id).1
    (recVersion r % 2 = 1 → (takeRecord s b count id).2 = false ∧ (entryAt t id).stand = (entryAt s id).stand ∧ (entryAt t id).want = (entryAt s id).want
      ∧ (recQuiet r = false → (entryAt t id).shown = ⟨.conflict, 0, 0x0101, 0, 0, recVersion r, 0⟩))
    ∧ (recVersion r % 2 = 0 → allZero r = false → recSeal r ≠ sealOf r → (takeRecord s b count id).2 = false
      ∧ (entryAt t id).stand = (entryAt s id).stand ∧ (entryAt t id).want = (entryAt s id).want
      ∧ (recQuiet r = false → (entryAt t id).shown = ⟨.conflict, 0, 0x0102, 0, 0, recVersion r, 0⟩)))
  ∧ (∀ (s : State) (r : Rec) (pages : List Nat) (k : Nat), (imageBytes s r pages k).length
      = 4096 + ((liveClasses s (recParent r)).map (fun ck => (saveBlock s ck (matrixOfClass s ck) k).length)).sum + 4104 * pages.length)
  ∧ (∀ (s : State) (ck k : Nat) (m : Matrix), let l := launchOf s ck; let ps := troupesInOrder s ck; let b := saveBlock s ck m k
    let size := 8320 + 128 * l.regs; let word (o n : Nat) : Nat := littleEndian n (fun j => b.getD (o + j) 0)
    b.length = (384 + max ps.length (extentOf l 1) * size + 16 * 1040 + l.scratch + (if l.matrix = true then 53760 else 0) + 4095) / 4096 * 4096
      ∧ (∀ n, n < 8 → word (128 + 4 * n) 4 = (tget 0 s.cregs (ck * 8 + n)).toNat)
      ∧ (∀ i p q, ps[i]? = some p → l.regs ≤ 1024 →
          ∀ j, j < 32 → (∀ t, tfind s.threads (tkey ck p j) = some t → let o := 384 + i * size + 128 + 256 * j
              word o 8 = t.pc.toNat ∧ word (o + 8) 8 = t.epc.toNat ∧ word (o + 0x10) 8 = t.tval.toNat ∧ word (o + 0x18) 4 = t.wb.toNat
                ∧ word (o + 0x1C) 4 = t.cause.toNat ∧ word (o + 0x20) 4 = t.inHandler.toNat)
            ∧ (∀ a, a < l.regs → word (384 + i * size + 8320 + (a * 32 + j) * 4) 4 = (tget 0 s.regs (regKey ck p a j)).toNat)
            ∧ (canonicalKeys s.troupes = true → (∀ e ∈ s.troupes, e.2.order < 2 ^ 64) → ∀ i', i < i' → ps[i']? = some q → let x := troupeAt s ck p; let y := troupeAt s ck q
                (y.spawned = false → x.spawned = false ∧ x.order ≤ y.order) ∧ (x.spawned = true → p ≤ q)))
      ∧ ∀ x, x < l.scratch → b.getD (384 + ps.length * size + 16 * 1040 + x) 0 = rd8 s.scratch (scratchKey ck x))
  ∧ ∀ (s : State) (rid : Nat), let ctx := recParent (builtOf s rid); let image := (fixedImage (quiesceClasses s rid) rid).2
    runs s → (entryAt s rid).phase = 2 → recKind (builtOf s rid) = 6 → (¬ QuiescesNow s ctx → exec (.snapshotQuiesce rid) s = .next s) ∧ (QuiescesNow s ctx → ∃ t, exec (.snapshotQuiesce rid) s = .next t
      ∧ (image.length ≤ snTsize (builtOf s rid) → (entryAt t rid).phase = 3 ∧ (∃ x, tfind t.snaps rid = some x ∧ x.ctx = ctx ∧ x.image = image)
          ∧ ∀ ck c, tfind s.classes ck = some c → c.placed = true → c.ctx = ctx → (clsAt t ck).quiesced = true)
      ∧ (snTsize (builtOf s rid) < image.length → (entryAt t rid).phase = 9 ∧ (entryAt t rid).stand.state = .blocked
          ∧ (entryAt t rid).stand.reason = 0x0203 ∧ ∀ ck c, tfind s.classes ck = some c → c.ctx = ctx → (clsAt t ck).quiesced = false))
end

