-- ==== Sys2Proof/Laws/Late.lean ====
section
/-! SUPPORT. What the operations on stores and loads that have issued and are not yet performed can do (R167, R172, R173). -/

namespace Sys2Proof.Machine

@[simp] theorem dropEarly_lateStores (s : State) (k : Nat) : (dropEarly s k).lateStores = s.lateStores := rfl
@[simp] theorem dropEarly_l1 (s : State) (k : Nat) : (dropEarly s k).l1 = s.l1 := rfl
@[simp] theorem dropEarly_dmem (s : State) (k : Nat) : (dropEarly s k).dmem = s.dmem := rfl
@[simp] theorem dropEarly_hmem (s : State) (k : Nat) : (dropEarly s k).hmem = s.hmem := rfl

/-- A store that issues joins the list, last, and touches no copy and no memory. -/
@[simp] theorem issueStore_lateStores (s : State) (core : Nat) (pl : Place) (wt : Bool) (bs : List Byte) :
    (issueStore s core pl wt bs).lateStores = s.lateStores ++ [⟨core, pl, wt, bs, s.timebase⟩] := rfl
@[simp] theorem issueStore_l1 (s : State) (core : Nat) (pl : Place) (wt : Bool) (bs : List Byte) : (issueStore s core pl wt bs).l1 = s.l1 := rfl
@[simp] theorem issueStore_rdc (s : State) (core : Nat) (pl : Place) (wt : Bool) (bs : List Byte) : (issueStore s core pl wt bs).rdc = s.rdc := rfl
@[simp] theorem issueStore_dmem (s : State) (core : Nat) (pl : Place) (wt : Bool) (bs : List Byte) :
    (issueStore s core pl wt bs).dmem = s.dmem := rfl
@[simp] theorem issueStore_hmem (s : State) (core : Nat) (pl : Place) (wt : Bool) (bs : List Byte) :
    (issueStore s core pl wt bs).hmem = s.hmem := rfl
@[simp] theorem issueStore_threads (s : State) (core : Nat) (pl : Place) (wt : Bool) (bs : List Byte) :
    (issueStore s core pl wt bs).threads = s.threads := rfl
@[simp] theorem issueStore_regs (s : State) (core : Nat) (pl : Place) (wt : Bool) (bs : List Byte) :
    (issueStore s core pl wt bs).regs = s.regs := rfl

/-- With no store named, nothing is performed. -/
theorem settleStores_none {s : State} {p : LateStore → Bool} (h : ∀ e ∈ s.lateStores, p e = false) : settleStores s p = s := by
  have h1 : s.lateStores.filter p = [] := List.filter_eq_nil_iff.2 (fun e he => by simp [h e he])
  have h2 : s.lateStores.filter (fun e => !p e) = s.lateStores := List.filter_eq_self.2 (fun e he => by simp [h e he])
  simp [settleStores, h1, h2]

/-- With one store named, and it alone in the list, it is performed. -/
theorem settleStores_one {s : State} {p : LateStore → Bool} {e : LateStore} (h : s.lateStores = [e]) (hp : p e = true) :
    settleStores s p = performStore { s with lateStores := [] } e.core e.pl e.wt e.bytes := by
  simp [settleStores, h, hp]

/-- The core's next access of a line to which it has issued no store only drops what it has read ahead. -/
theorem inTurn_none {s : State} {core : Nat} {pl : Place}
    (h : ∀ e ∈ s.lateStores, ofLine (lineKey core pl.host (pl.pa / 128)) e = false) :
    inTurn s core pl = dropEarly s (lineKey core pl.host (pl.pa / 128)) := by
  simp [inTurn, settleStores_none h]

/-- No store is overdue before its time (R173). -/
theorem settleOverdue_none {s : State} (h : ∀ e ∈ s.lateStores, s.timebase < e.since + Config.storeBound) : settleOverdue s = s :=
  settleStores_none (fun e he => by simpa using h e he)

/-- A core that has issued no store has none performed; its loads are performed (R168). -/
theorem settleCore_none {s : State} {core : Nat} (h : ∀ e ∈ s.lateStores, (e.core == core) = false) :
    settleCore s core = { s with lateLoads := s.lateLoads.filter (fun e => e.core != core) } := by
  simp [settleCore, settleStores_none h]

/-- What is read ahead of a line serves the next load, and is gone then (R167, R172). -/
theorem loadLine_early {s : State} {core : Nat} {pl : Place} {bs : List Byte}
    (h : tfind s.early (lineKey core pl.host (pl.pa / 128)) = some bs) (ro : Option Nat) (n : Nat) :
    loadLine s core pl ro n = (dropEarly s (lineKey core pl.host (pl.pa / 128)), (bs.drop (pl.pa % 128)).take n) := by
  simp [loadLine, h]

theorem loadLine_now {s : State} {core : Nat} {pl : Place} (h : tfind s.early (lineKey core pl.host (pl.pa / 128)) = none)
    (ro : Option Nat) (n : Nat) : loadLine s core pl ro n = loadNow s core pl ro n := by
  simp [loadLine, h]

end Sys2Proof.Machine
end

