-- ==== Sys2Proof/Laws/PerInstr.lean ====
section
/-! SUPPORT. Facts about every instruction as syntax, one lemma per constructor: where its word holds the switch marker (R249). -/

namespace Sys2Proof.Laws.Encoding

/-- An instruction's own bits lie in [30:0] of its word, whose bit 31 is the switch marker (R249). -/
def Statement (i : Instr) : Prop := encodeBody i < 2 ^ 31 ∧ encode i < 2 ^ 32 ∧ encode i / 2 ^ 31 = i.marker.toNat

theorem of_body {i : Instr} (h : encodeBody i < 2 ^ 31) : Statement i := by
  refine ⟨h, ?_, ?_⟩ <;> unfold encode <;> cases i.marker <;> simp <;> omega

theorem encR_lt {major minor : Nat} (hm : major ≤ 63) (hn : minor ≤ 15) (d a b : RegNo) : encR major minor d a b < 2 ^ 31 := by
  unfold encR; have := d.isLt; have := a.isLt; have := b.isLt; omega

theorem encI_lt {major : Nat} (hm : major ≤ 63) (d a : RegNo) (i : BitVec 11) : encI major d a i < 2 ^ 31 := by
  unfold encI; have := d.isLt; have := a.isLt; have := i.isLt; omega

theorem encJ_lt {major : Nat} (hm : major ≤ 63) (o : BitVec 25) : encJ major o < 2 ^ 31 := by
  unfold encJ; have := o.isLt; omega

theorem encU_lt {major : Nat} (hm : major ≤ 63) (d : RegNo) (i : BitVec 18) : encU major d i < 2 ^ 31 := by
  unfold encU; have := d.isLt; have := i.isLt; omega

theorem encM_lt {major : Nat} (hm : major ≤ 63) (d a : RegNo) (w : BitVec 3) (h : BitVec 2) (o : BitVec 6) :
    encM major d a w h o < 2 ^ 31 := by
  unfold encM; have := d.isLt; have := a.isLt; have := w.isLt; have := h.isLt; have := o.isLt; omega

theorem encA_lt {major op : Nat} (hm : major ≤ 63) (hn : op ≤ 15) (d a b : BitVec 6) (c : BitVec 3) : encA major op d a b c < 2 ^ 31 := by
  unfold encA; have := d.isLt; have := a.isLt; have := b.isLt; have := c.isLt; omega

theorem add (m : Bool) (d a b : RegNo) : Statement (.add m d a b) := of_body (encR_lt (by decide) (by decide) ..)
theorem sub (m : Bool) (d a b : RegNo) : Statement (.sub m d a b) := of_body (encR_lt (by decide) (by decide) ..)
theorem mul (m : Bool) (d a b : RegNo) : Statement (.mul m d a b) := of_body (encR_lt (by decide) (by decide) ..)
theorem mulh (m : Bool) (d a b : RegNo) : Statement (.mulh m d a b) := of_body (encR_lt (by decide) (by decide) ..)
theorem mulhn (m : Bool) (d a b : RegNo) : Statement (.mulhn m d a b) := of_body (encR_lt (by decide) (by decide) ..)
theorem mad (m : Bool) (d a b : RegNo) : Statement (.mad m d a b) := of_body (encR_lt (by decide) (by decide) ..)
theorem min (m : Bool) (d a b : RegNo) : Statement (.min m d a b) := of_body (encR_lt (by decide) (by decide) ..)
theorem max (m : Bool) (d a b : RegNo) : Statement (.max m d a b) := of_body (encR_lt (by decide) (by decide) ..)
theorem minn (m : Bool) (d a b : RegNo) : Statement (.minn m d a b) := of_body (encR_lt (by decide) (by decide) ..)
theorem maxn (m : Bool) (d a b : RegNo) : Statement (.maxn m d a b) := of_body (encR_lt (by decide) (by decide) ..)
theorem adif (m : Bool) (d a b : RegNo) : Statement (.adif m d a b) := of_body (encR_lt (by decide) (by decide) ..)
theorem adds (m : Bool) (d a b : RegNo) : Statement (.adds m d a b) := of_body (encR_lt (by decide) (by decide) ..)
theorem subs (m : Bool) (d a b : RegNo) : Statement (.subs m d a b) := of_body (encR_lt (by decide) (by decide) ..)
theorem and (m : Bool) (d a b : RegNo) : Statement (.and m d a b) := of_body (encR_lt (by decide) (by decide) ..)
theorem or (m : Bool) (d a b : RegNo) : Statement (.or m d a b) := of_body (encR_lt (by decide) (by decide) ..)
theorem xor (m : Bool) (d a b : RegNo) : Statement (.xor m d a b) := of_body (encR_lt (by decide) (by decide) ..)
theorem andn (m : Bool) (d a b : RegNo) : Statement (.andn m d a b) := of_body (encR_lt (by decide) (by decide) ..)
theorem shl (m : Bool) (d a b : RegNo) : Statement (.shl m d a b) := of_body (encR_lt (by decide) (by decide) ..)
theorem shr (m : Bool) (d a b : RegNo) : Statement (.shr m d a b) := of_body (encR_lt (by decide) (by decide) ..)
theorem shra (m : Bool) (d a b : RegNo) : Statement (.shra m d a b) := of_body (encR_lt (by decide) (by decide) ..)
theorem rotl (m : Bool) (d a b : RegNo) : Statement (.rotl m d a b) := of_body (encR_lt (by decide) (by decide) ..)
theorem sel (m : Bool) (d a b : RegNo) : Statement (.sel m d a b) := of_body (encR_lt (by decide) (by decide) ..)
theorem popc (m : Bool) (d a : RegNo) : Statement (.popc m d a) := of_body (encR_lt (by decide) (by decide) ..)
theorem clz (m : Bool) (d a : RegNo) : Statement (.clz m d a) := of_body (encR_lt (by decide) (by decide) ..)
theorem ctz (m : Bool) (d a : RegNo) : Statement (.ctz m d a) := of_body (encR_lt (by decide) (by decide) ..)
theorem brev (m : Bool) (d a : RegNo) : Statement (.brev m d a) := of_body (encR_lt (by decide) (by decide) ..)
theorem seq (m : Bool) (d a b : RegNo) : Statement (.seq m d a b) := of_body (encR_lt (by decide) (by decide) ..)
theorem sne (m : Bool) (d a b : RegNo) : Statement (.sne m d a b) := of_body (encR_lt (by decide) (by decide) ..)
theorem slt (m : Bool) (d a b : RegNo) : Statement (.slt m d a b) := of_body (encR_lt (by decide) (by decide) ..)
theorem sle (m : Bool) (d a b : RegNo) : Statement (.sle m d a b) := of_body (encR_lt (by decide) (by decide) ..)
theorem sltn (m : Bool) (d a b : RegNo) : Statement (.sltn m d a b) := of_body (encR_lt (by decide) (by decide) ..)
theorem slen (m : Bool) (d a b : RegNo) : Statement (.slen m d a b) := of_body (encR_lt (by decide) (by decide) ..)
theorem add64 (m : Bool) (d a b : RegNo) : Statement (.add64 m d a b) := of_body (encR_lt (by decide) (by decide) ..)
theorem sub64 (m : Bool) (d a b : RegNo) : Statement (.sub64 m d a b) := of_body (encR_lt (by decide) (by decide) ..)
theorem mul64 (m : Bool) (d a b : RegNo) : Statement (.mul64 m d a b) := of_body (encR_lt (by decide) (by decide) ..)
theorem addx (m : Bool) (d a b : RegNo) : Statement (.addx m d a b) := of_body (encR_lt (by decide) (by decide) ..)
theorem addxn (m : Bool) (d a b : RegNo) : Statement (.addxn m d a b) := of_body (encR_lt (by decide) (by decide) ..)
theorem shl64 (m : Bool) (d a b : RegNo) : Statement (.shl64 m d a b) := of_body (encR_lt (by decide) (by decide) ..)
theorem shr64 (m : Bool) (d a b : RegNo) : Statement (.shr64 m d a b) := of_body (encR_lt (by decide) (by decide) ..)
theorem shra64 (m : Bool) (d a b : RegNo) : Statement (.shra64 m d a b) := of_body (encR_lt (by decide) (by decide) ..)
theorem div (m : Bool) (d a b : RegNo) : Statement (.div m d a b) := of_body (encR_lt (by decide) (by decide) ..)
theorem divn (m : Bool) (d a b : RegNo) : Statement (.divn m d a b) := of_body (encR_lt (by decide) (by decide) ..)
theorem rem (m : Bool) (d a b : RegNo) : Statement (.rem m d a b) := of_body (encR_lt (by decide) (by decide) ..)
theorem remn (m : Bool) (d a b : RegNo) : Statement (.remn m d a b) := of_body (encR_lt (by decide) (by decide) ..)
theorem seq64 (m : Bool) (d a b : RegNo) : Statement (.seq64 m d a b) := of_body (encR_lt (by decide) (by decide) ..)
theorem slt64 (m : Bool) (d a b : RegNo) : Statement (.slt64 m d a b) := of_body (encR_lt (by decide) (by decide) ..)
theorem sltn64 (m : Bool) (d a b : RegNo) : Statement (.sltn64 m d a b) := of_body (encR_lt (by decide) (by decide) ..)
theorem addi (m : Bool) (d a : RegNo) (i : BitVec 11) : Statement (.addi m d a i) := of_body (encI_lt (by decide) ..)
theorem andi (m : Bool) (d a : RegNo) (i : BitVec 11) : Statement (.andi m d a i) := of_body (encI_lt (by decide) ..)
theorem ori (m : Bool) (d a : RegNo) (i : BitVec 11) : Statement (.ori m d a i) := of_body (encI_lt (by decide) ..)
theorem xori (m : Bool) (d a : RegNo) (i : BitVec 11) : Statement (.xori m d a i) := of_body (encI_lt (by decide) ..)
theorem slti (m : Bool) (d a : RegNo) (i : BitVec 11) : Statement (.slti m d a i) := of_body (encI_lt (by decide) ..)
theorem sltni (m : Bool) (d a : RegNo) (i : BitVec 11) : Statement (.sltni m d a i) := of_body (encI_lt (by decide) ..)
theorem muli (m : Bool) (d a : RegNo) (i : BitVec 11) : Statement (.muli m d a i) := of_body (encI_lt (by decide) ..)
theorem shli (m : Bool) (d a : RegNo) (n : BitVec 5) : Statement (.shli m d a n) := of_body (encI_lt (by decide) ..)
theorem shri (m : Bool) (d a : RegNo) (n : BitVec 5) : Statement (.shri m d a n) := of_body (encI_lt (by decide) ..)
theorem shrai (m : Bool) (d a : RegNo) (n : BitVec 5) : Statement (.shrai m d a n) := of_body (encI_lt (by decide) ..)
theorem rotli (m : Bool) (d a : RegNo) (n : BitVec 5) : Statement (.rotli m d a n) := of_body (encI_lt (by decide) ..)
theorem bfx (m : Bool) (d a : RegNo) (e : Bool) (l p : BitVec 5) : Statement (.bfx m d a e l p) := of_body (encI_lt (by decide) ..)
theorem bfi (m : Bool) (d a : RegNo) (l p : BitVec 5) : Statement (.bfi m d a l p) := of_body (encI_lt (by decide) ..)
theorem addxi (m : Bool) (d a : RegNo) (i : BitVec 11) : Statement (.addxi m d a i) := of_body (encI_lt (by decide) ..)
theorem lui (m : Bool) (d : RegNo) (i : BitVec 18) : Statement (.lui m d i) := of_body (encU_lt (by decide) ..)
theorem lapc (m : Bool) (d : RegNo) (i : BitVec 18) : Statement (.lapc m d i) := of_body (encU_lt (by decide) ..)
theorem fadd (m : Bool) (d a b : RegNo) : Statement (.fadd m d a b) := of_body (encR_lt (by decide) (by decide) ..)
theorem fsub (m : Bool) (d a b : RegNo) : Statement (.fsub m d a b) := of_body (encR_lt (by decide) (by decide) ..)
theorem fmul (m : Bool) (d a b : RegNo) : Statement (.fmul m d a b) := of_body (encR_lt (by decide) (by decide) ..)
theorem fma (m : Bool) (d a b : RegNo) : Statement (.fma m d a b) := of_body (encR_lt (by decide) (by decide) ..)
theorem fmin (m : Bool) (d a b : RegNo) : Statement (.fmin m d a b) := of_body (encR_lt (by decide) (by decide) ..)
theorem fmax (m : Bool) (d a b : RegNo) : Statement (.fmax m d a b) := of_body (encR_lt (by decide) (by decide) ..)
theorem fabs (m : Bool) (d a : RegNo) : Statement (.fabs m d a) := of_body (encR_lt (by decide) (by decide) ..)
theorem fneg (m : Bool) (d a : RegNo) : Statement (.fneg m d a) := of_body (encR_lt (by decide) (by decide) ..)
theorem fsgn (m : Bool) (d a b : RegNo) : Statement (.fsgn m d a b) := of_body (encR_lt (by decide) (by decide) ..)
theorem feq (m : Bool) (d a b : RegNo) : Statement (.feq m d a b) := of_body (encR_lt (by decide) (by decide) ..)
theorem flt (m : Bool) (d a b : RegNo) : Statement (.flt m d a b) := of_body (encR_lt (by decide) (by decide) ..)
theorem fle (m : Bool) (d a b : RegNo) : Statement (.fle m d a b) := of_body (encR_lt (by decide) (by decide) ..)
theorem fclass (m : Bool) (d a : RegNo) : Statement (.fclass m d a) := of_body (encR_lt (by decide) (by decide) ..)
theorem fnma (m : Bool) (d a b : RegNo) : Statement (.fnma m d a b) := of_body (encR_lt (by decide) (by decide) ..)
theorem ftoi (m : Bool) (d a : RegNo) (c : BitVec 3) : Statement (.ftoi m d a c) := of_body (encR_lt (by decide) (by decide) ..)
theorem fton (m : Bool) (d a : RegNo) (c : BitVec 3) : Statement (.fton m d a c) := of_body (encR_lt (by decide) (by decide) ..)
theorem itof (m : Bool) (d a : RegNo) (c : BitVec 3) : Statement (.itof m d a c) := of_body (encR_lt (by decide) (by decide) ..)
theorem ntof (m : Bool) (d a : RegNo) (c : BitVec 3) : Statement (.ntof m d a c) := of_body (encR_lt (by decide) (by decide) ..)
theorem f2bf (m : Bool) (d a : RegNo) (c : BitVec 3) : Statement (.f2bf m d a c) := of_body (encR_lt (by decide) (by decide) ..)
theorem bf2f (m : Bool) (d a : RegNo) : Statement (.bf2f m d a) := of_body (encR_lt (by decide) (by decide) ..)
theorem f2h (m : Bool) (d a : RegNo) (c : BitVec 3) : Statement (.f2h m d a c) := of_body (encR_lt (by decide) (by decide) ..)
theorem h2f (m : Bool) (d a : RegNo) : Statement (.h2f m d a) := of_body (encR_lt (by decide) (by decide) ..)
theorem f2e4 (m : Bool) (d a : RegNo) (c : BitVec 3) : Statement (.f2e4 m d a c) := of_body (encR_lt (by decide) (by decide) ..)
theorem e42f (m : Bool) (d a : RegNo) : Statement (.e42f m d a) := of_body (encR_lt (by decide) (by decide) ..)
theorem f2e5 (m : Bool) (d a : RegNo) (c : BitVec 3) : Statement (.f2e5 m d a c) := of_body (encR_lt (by decide) (by decide) ..)
theorem e52f (m : Bool) (d a : RegNo) : Statement (.e52f m d a) := of_body (encR_lt (by decide) (by decide) ..)
theorem frcp (m : Bool) (d a : RegNo) : Statement (.frcp m d a) := of_body (encR_lt (by decide) (by decide) ..)
theorem frsq (m : Bool) (d a : RegNo) : Statement (.frsq m d a) := of_body (encR_lt (by decide) (by decide) ..)
theorem fsqrt (m : Bool) (d a : RegNo) : Statement (.fsqrt m d a) := of_body (encR_lt (by decide) (by decide) ..)
theorem fexp2 (m : Bool) (d a : RegNo) : Statement (.fexp2 m d a) := of_body (encR_lt (by decide) (by decide) ..)
theorem flog2 (m : Bool) (d a : RegNo) : Statement (.flog2 m d a) := of_body (encR_lt (by decide) (by decide) ..)
theorem badd2 (m : Bool) (d a b : RegNo) : Statement (.badd2 m d a b) := of_body (encR_lt (by decide) (by decide) ..)
theorem bmul2 (m : Bool) (d a b : RegNo) : Statement (.bmul2 m d a b) := of_body (encR_lt (by decide) (by decide) ..)
theorem bfma2 (m : Bool) (d a b : RegNo) : Statement (.bfma2 m d a b) := of_body (encR_lt (by decide) (by decide) ..)
theorem bmax2 (m : Bool) (d a b : RegNo) : Statement (.bmax2 m d a b) := of_body (encR_lt (by decide) (by decide) ..)
theorem dxq (m : Bool) (d a : RegNo) (f : BitVec 2) : Statement (.dxq m d a f) := of_body (encR_lt (by decide) (by decide) ..)
theorem dxd (m : Bool) (d a : RegNo) (f : BitVec 2) : Statement (.dxd m d a f) := of_body (encR_lt (by decide) (by decide) ..)
theorem ballot (m : Bool) (d a : RegNo) : Statement (.ballot m d a) := of_body (encR_lt (by decide) (by decide) ..)
theorem vany (m : Bool) (d a : RegNo) : Statement (.vany m d a) := of_body (encR_lt (by decide) (by decide) ..)
theorem vall (m : Bool) (d a : RegNo) : Statement (.vall m d a) := of_body (encR_lt (by decide) (by decide) ..)
theorem shfl (m : Bool) (d a b : RegNo) : Statement (.shfl m d a b) := of_body (encR_lt (by decide) (by decide) ..)
theorem shflx (m : Bool) (d a b : RegNo) : Statement (.shflx m d a b) := of_body (encR_lt (by decide) (by decide) ..)
theorem shflup (m : Bool) (d a b : RegNo) : Statement (.shflup m d a b) := of_body (encR_lt (by decide) (by decide) ..)
theorem shfldn (m : Bool) (d a b : RegNo) : Statement (.shfldn m d a b) := of_body (encR_lt (by decide) (by decide) ..)
theorem redadd (m : Bool) (d a : RegNo) : Statement (.redadd m d a) := of_body (encR_lt (by decide) (by decide) ..)
theorem redmin (m : Bool) (d a : RegNo) : Statement (.redmin m d a) := of_body (encR_lt (by decide) (by decide) ..)
theorem redmax (m : Bool) (d a : RegNo) : Statement (.redmax m d a) := of_body (encR_lt (by decide) (by decide) ..)
theorem redfadd (m : Bool) (d a : RegNo) : Statement (.redfadd m d a) := of_body (encR_lt (by decide) (by decide) ..)
theorem scanadd (m : Bool) (d a : RegNo) : Statement (.scanadd m d a) := of_body (encR_lt (by decide) (by decide) ..)
theorem scanaddx (m : Bool) (d a : RegNo) : Statement (.scanaddx m d a) := of_body (encR_lt (by decide) (by decide) ..)
theorem movix (m : Bool) (d a : RegNo) : Statement (.movix m d a) := of_body (encR_lt (by decide) (by decide) ..)
theorem movixw (m : Bool) (d a : RegNo) : Statement (.movixw m d a) := of_body (encR_lt (by decide) (by decide) ..)
theorem lmask (m : Bool) (d : RegNo) : Statement (.lmask m d) := of_body (encR_lt (by decide) (by decide) ..)
theorem beq (m : Bool) (a b : RegNo) (o : BitVec 11) : Statement (.beq m a b o) := of_body (encI_lt (by decide) ..)
theorem bne (m : Bool) (a b : RegNo) (o : BitVec 11) : Statement (.bne m a b o) := of_body (encI_lt (by decide) ..)
theorem blt (m : Bool) (a b : RegNo) (o : BitVec 11) : Statement (.blt m a b o) := of_body (encI_lt (by decide) ..)
theorem bge (m : Bool) (a b : RegNo) (o : BitVec 11) : Statement (.bge m a b o) := of_body (encI_lt (by decide) ..)
theorem bltn (m : Bool) (a b : RegNo) (o : BitVec 11) : Statement (.bltn m a b o) := of_body (encI_lt (by decide) ..)
theorem bgen (m : Bool) (a b : RegNo) (o : BitVec 11) : Statement (.bgen m a b o) := of_body (encI_lt (by decide) ..)
theorem br (m : Bool) (o : BitVec 25) : Statement (.br m o) := of_body (encJ_lt (by decide) ..)
theorem jal (m : Bool) (o : BitVec 25) : Statement (.jal m o) := of_body (encJ_lt (by decide) ..)
theorem jr (m : Bool) (a : RegNo) : Statement (.jr m a) := of_body (encR_lt (by decide) (by decide) ..)
theorem jalr (m : Bool) (d a : RegNo) : Statement (.jalr m d a) := of_body (encR_lt (by decide) (by decide) ..)
theorem nop (m : Bool) : Statement (.nop m) := of_body (encR_lt (by decide) (by decide) ..)
theorem exit (m : Bool) : Statement (.exit m) := of_body (encR_lt (by decide) (by decide) ..)
theorem yield (m : Bool) : Statement (.yield m) := of_body (encR_lt (by decide) (by decide) ..)
theorem trapI (m : Bool) (c : BitVec 7) : Statement (.trapI m c) := of_body (encR_lt (by decide) (by decide) ..)
theorem brk (m : Bool) : Statement (.brk m) := of_body (encR_lt (by decide) (by decide) ..)
theorem eret (m : Bool) : Statement (.eret m) := of_body (encR_lt (by decide) (by decide) ..)
theorem wbase (m : Bool) (a : RegNo) : Statement (.wbase m a) := of_body (encR_lt (by decide) (by decide) ..)
theorem chk (m : Bool) (a b : RegNo) : Statement (.chk m a b) := of_body (encR_lt (by decide) (by decide) ..)
theorem spawn (m : Bool) (d a : RegNo) (c : BitVec 7) : Statement (.spawn m d a c) := of_body (encR_lt (by decide) (by decide) ..)
theorem jenrol (m : Bool) (j : BitVec 3) : Statement (.jenrol m j) := of_body (encR_lt (by decide) (by decide) ..)
theorem jwait (m : Bool) (j : BitVec 3) : Statement (.jwait m j) := of_body (encR_lt (by decide) (by decide) ..)
theorem jstrike (m : Bool) (j : BitVec 3) : Statement (.jstrike m j) := of_body (encR_lt (by decide) (by decide) ..)
theorem tickwait (m : Bool) : Statement (.tickwait m) := of_body (encR_lt (by decide) (by decide) ..)
theorem rdcw (m : Bool) (d : RegNo) (i : BitVec 11) : Statement (.rdcw m d i) := of_body (encI_lt (by decide) ..)
theorem wrcw (m : Bool) (a : RegNo) (i : BitVec 11) : Statement (.wrcw m a i) := of_body (encI_lt (by decide) ..)
theorem ldg (m : Bool) (d a : RegNo) (w : BitVec 3) (h : BitVec 2) (o : BitVec 6) : Statement (.ldg m d a w h o) := of_body (encM_lt (by decide) ..)
theorem stg (m : Bool) (d a : RegNo) (w : BitVec 3) (h : BitVec 2) (o : BitVec 6) : Statement (.stg m d a w h o) := of_body (encM_lt (by decide) ..)
theorem lds (m : Bool) (d a : RegNo) (w : BitVec 3) (h : BitVec 2) (o : BitVec 6) : Statement (.lds m d a w h o) := of_body (encM_lt (by decide) ..)
theorem sts (m : Bool) (d a : RegNo) (w : BitVec 3) (h : BitVec 2) (o : BitVec 6) : Statement (.sts m d a w h o) := of_body (encM_lt (by decide) ..)
theorem ldp (m : Bool) (d a : RegNo) (w : BitVec 3) (h : BitVec 2) (o : BitVec 6) : Statement (.ldp m d a w h o) := of_body (encM_lt (by decide) ..)
theorem stp (m : Bool) (d a : RegNo) (w : BitVec 3) (h : BitVec 2) (o : BitVec 6) : Statement (.stp m d a w h o) := of_body (encM_lt (by decide) ..)
theorem pf (m : Bool) (a : RegNo) : Statement (.pf m a) := of_body (encR_lt (by decide) (by decide) ..)
theorem cwb (m : Bool) (a : RegNo) : Statement (.cwb m a) := of_body (encR_lt (by decide) (by decide) ..)
theorem cinv (m : Bool) (a : RegNo) : Statement (.cinv m a) := of_body (encR_lt (by decide) (by decide) ..)
theorem cflush (m : Bool) (a : RegNo) : Statement (.cflush m a) := of_body (encR_lt (by decide) (by decide) ..)
theorem aadd (m : Bool) (d a b : BitVec 6) (c : BitVec 3) : Statement (.aadd m d a b c) := of_body (encA_lt (by decide) (by decide) ..)
theorem aand (m : Bool) (d a b : BitVec 6) (c : BitVec 3) : Statement (.aand m d a b c) := of_body (encA_lt (by decide) (by decide) ..)
theorem aor (m : Bool) (d a b : BitVec 6) (c : BitVec 3) : Statement (.aor m d a b c) := of_body (encA_lt (by decide) (by decide) ..)
theorem axor (m : Bool) (d a b : BitVec 6) (c : BitVec 3) : Statement (.axor m d a b c) := of_body (encA_lt (by decide) (by decide) ..)
theorem amin (m : Bool) (d a b : BitVec 6) (c : BitVec 3) : Statement (.amin m d a b c) := of_body (encA_lt (by decide) (by decide) ..)
theorem amax (m : Bool) (d a b : BitVec 6) (c : BitVec 3) : Statement (.amax m d a b c) := of_body (encA_lt (by decide) (by decide) ..)
theorem aminn (m : Bool) (d a b : BitVec 6) (c : BitVec 3) : Statement (.aminn m d a b c) := of_body (encA_lt (by decide) (by decide) ..)
theorem amaxn (m : Bool) (d a b : BitVec 6) (c : BitVec 3) : Statement (.amaxn m d a b c) := of_body (encA_lt (by decide) (by decide) ..)
theorem aswap (m : Bool) (d a b : BitVec 6) (c : BitVec 3) : Statement (.aswap m d a b c) := of_body (encA_lt (by decide) (by decide) ..)
theorem acas (m : Bool) (d a b : BitVec 6) (c : BitVec 3) : Statement (.acas m d a b c) := of_body (encA_lt (by decide) (by decide) ..)
theorem acasgt (m : Bool) (d a b : BitVec 6) (c : BitVec 3) : Statement (.acasgt m d a b c) := of_body (encA_lt (by decide) (by decide) ..)
theorem acasgtn (m : Bool) (d a b : BitVec 6) (c : BitVec 3) : Statement (.acasgtn m d a b c) := of_body (encA_lt (by decide) (by decide) ..)
theorem aaddD (m : Bool) (d a b : BitVec 6) (c : BitVec 3) : Statement (.aaddD m d a b c) := of_body (encA_lt (by decide) (by decide) ..)
theorem aandD (m : Bool) (d a b : BitVec 6) (c : BitVec 3) : Statement (.aandD m d a b c) := of_body (encA_lt (by decide) (by decide) ..)
theorem aorD (m : Bool) (d a b : BitVec 6) (c : BitVec 3) : Statement (.aorD m d a b c) := of_body (encA_lt (by decide) (by decide) ..)
theorem axorD (m : Bool) (d a b : BitVec 6) (c : BitVec 3) : Statement (.axorD m d a b c) := of_body (encA_lt (by decide) (by decide) ..)
theorem aminD (m : Bool) (d a b : BitVec 6) (c : BitVec 3) : Statement (.aminD m d a b c) := of_body (encA_lt (by decide) (by decide) ..)
theorem amaxD (m : Bool) (d a b : BitVec 6) (c : BitVec 3) : Statement (.amaxD m d a b c) := of_body (encA_lt (by decide) (by decide) ..)
theorem aminnD (m : Bool) (d a b : BitVec 6) (c : BitVec 3) : Statement (.aminnD m d a b c) := of_body (encA_lt (by decide) (by decide) ..)
theorem amaxnD (m : Bool) (d a b : BitVec 6) (c : BitVec 3) : Statement (.amaxnD m d a b c) := of_body (encA_lt (by decide) (by decide) ..)
theorem aswapD (m : Bool) (d a b : BitVec 6) (c : BitVec 3) : Statement (.aswapD m d a b c) := of_body (encA_lt (by decide) (by decide) ..)
theorem acasD (m : Bool) (d a b : BitVec 6) (c : BitVec 3) : Statement (.acasD m d a b c) := of_body (encA_lt (by decide) (by decide) ..)
theorem acasgtD (m : Bool) (d a b : BitVec 6) (c : BitVec 3) : Statement (.acasgtD m d a b c) := of_body (encA_lt (by decide) (by decide) ..)
theorem acasgtnD (m : Bool) (d a b : BitVec 6) (c : BitVec 3) : Statement (.acasgtnD m d a b c) := of_body (encA_lt (by decide) (by decide) ..)
theorem acasver (m : Bool) (d a b : BitVec 6) (c : BitVec 3) : Statement (.acasver m d a b c) := of_body (encA_lt (by decide) (by decide) ..)
theorem acastag (m : Bool) (d a b : BitVec 6) (c : BitVec 3) : Statement (.acastag m d a b c) := of_body (encA_lt (by decide) (by decide) ..)
theorem atbeg (m : Bool) (d : RegNo) (o : BitVec 11) : Statement (.atbeg m d o) := of_body (encI_lt (by decide) ..)
theorem atend (m : Bool) : Statement (.atend m) := of_body (encR_lt (by decide) (by decide) ..)
theorem atabort (m : Bool) (c : BitVec 7) : Statement (.atabort m c) := of_body (encR_lt (by decide) (by decide) ..)
theorem atstat (m : Bool) (d : RegNo) : Statement (.atstat m d) := of_body (encR_lt (by decide) (by decide) ..)
theorem fenceRel (m : Bool) (c : BitVec 3) : Statement (.fenceRel m c) := of_body (encR_lt (by decide) (by decide) ..)
theorem fenceAcq (m : Bool) (c : BitVec 3) : Statement (.fenceAcq m c) := of_body (encR_lt (by decide) (by decide) ..)
theorem fenceAr (m : Bool) (c : BitVec 3) : Statement (.fenceAr m c) := of_body (encR_lt (by decide) (by decide) ..)
theorem phase (m : Bool) (c : BitVec 3) (a : RegNo) : Statement (.phase m c a) := of_body (encR_lt (by decide) (by decide) ..)
theorem bararv (m : Bool) (d a : RegNo) (c : BitVec 1) : Statement (.bararv m d a c) := of_body (encR_lt (by decide) (by decide) ..)
theorem barwait (m : Bool) (d a : RegNo) (c : BitVec 1) : Statement (.barwait m d a c) := of_body (encR_lt (by decide) (by decide) ..)
theorem barsync (m : Bool) (d a : RegNo) (c : BitVec 1) : Statement (.barsync m d a c) := of_body (encR_lt (by decide) (by decide) ..)
theorem barinit (m : Bool) (d a : RegNo) (c : BitVec 1) : Statement (.barinit m d a c) := of_body (encR_lt (by decide) (by decide) ..)
theorem waiteq (m : Bool) (d a b : RegNo) : Statement (.waiteq m d a b) := of_body (encR_lt (by decide) (by decide) ..)
theorem waitne (m : Bool) (d a b : RegNo) : Statement (.waitne m d a b) := of_body (encR_lt (by decide) (by decide) ..)
theorem waitge (m : Bool) (d a b : RegNo) : Statement (.waitge m d a b) := of_body (encR_lt (by decide) (by decide) ..)
theorem tlwait (m : Bool) (a : RegNo) (n : BitVec 3) : Statement (.tlwait m a n) := of_body (encR_lt (by decide) (by decide) ..)
theorem tlread (m : Bool) (d : RegNo) (n : BitVec 3) : Statement (.tlread m d n) := of_body (encR_lt (by decide) (by decide) ..)
theorem qpush (m : Bool) (a : RegNo) (n : BitVec 4) : Statement (.qpush m a n) := of_body (encR_lt (by decide) (by decide) ..)
theorem qpop (m : Bool) (d : RegNo) (n : BitVec 4) : Statement (.qpop m d n) := of_body (encR_lt (by decide) (by decide) ..)
theorem qtake (m : Bool) (d a : RegNo) : Statement (.qtake m d a) := of_body (encR_lt (by decide) (by decide) ..)
theorem copy (m : Bool) (d a : RegNo) : Statement (.copy m d a) := of_body (encR_lt (by decide) (by decide) ..)
theorem copyg (m : Bool) (d a : RegNo) : Statement (.copyg m d a) := of_body (encR_lt (by decide) (by decide) ..)
theorem prefa (m : Bool) (d a : RegNo) : Statement (.prefa m d a) := of_body (encR_lt (by decide) (by decide) ..)
theorem fetchw (m : Bool) (a b : RegNo) : Statement (.fetchw m a b) := of_body (encR_lt (by decide) (by decide) ..)
theorem put (m : Bool) (d a : RegNo) : Statement (.put m d a) := of_body (encR_lt (by decide) (by decide) ..)
theorem puts (m : Bool) (d a : RegNo) : Statement (.puts m d a) := of_body (encR_lt (by decide) (by decide) ..)
theorem get (m : Bool) (d a : RegNo) : Statement (.get m d a) := of_body (encR_lt (by decide) (by decide) ..)
theorem wincnt (m : Bool) (d a : RegNo) (g : Bool) (x : BitVec 2) : Statement (.wincnt m d a g x) := of_body (encR_lt (by decide) (by decide) ..)
theorem mloop (m : Bool) (n : BitVec 3) (x y : BitVec 2) (a b : RegNo) : Statement (.mloop m n x y a b) := of_body (encR_lt (by decide) (by decide) ..)
theorem slclr (m : Bool) (n : BitVec 3) : Statement (.slclr m n) := of_body (encR_lt (by decide) (by decide) ..)
theorem slrd (m : Bool) (d a : RegNo) (c : BitVec 2) (n : BitVec 3) : Statement (.slrd m d a c n) := of_body (encR_lt (by decide) (by decide) ..)
theorem slwr (m : Bool) (d a : RegNo) (n : BitVec 3) : Statement (.slwr m d a n) := of_body (encR_lt (by decide) (by decide) ..)
theorem slstat (m : Bool) (d a : RegNo) (n : BitVec 3) : Statement (.slstat m d a n) := of_body (encR_lt (by decide) (by decide) ..)
theorem slevt (m : Bool) (d : RegNo) : Statement (.slevt m d) := of_body (encR_lt (by decide) (by decide) ..)
theorem fifoclr (m : Bool) (f : BitVec 2) : Statement (.fifoclr m f) := of_body (encR_lt (by decide) (by decide) ..)
theorem rand (m : Bool) (d a b : RegNo) : Statement (.rand m d a b) := of_body (encR_lt (by decide) (by decide) ..)
theorem randf (m : Bool) (d a b : RegNo) : Statement (.randf m d a b) := of_body (encR_lt (by decide) (by decide) ..)
theorem snapshotQuiesce (rid : Nat) : Statement (.snapshotQuiesce rid) := of_body (show (0 : Nat) < 2 ^ 31 by decide)
theorem classPlace (die : Nat) : Statement (.classPlace die) := of_body (show (0 : Nat) < 2 ^ 31 by decide)
theorem steal (die : Nat) : Statement (.steal die) := of_body (show (0 : Nat) < 2 ^ 31 by decide)
theorem classEnd (ck : Nat) : Statement (.classEnd ck) := of_body (show (0 : Nat) < 2 ^ 31 by decide)
theorem preempt (ck : Nat) : Statement (.preempt ck) := of_body (show (0 : Nat) < 2 ^ 31 by decide)
theorem residentKill (rid : Nat) : Statement (.residentKill rid) := of_body (show (0 : Nat) < 2 ^ 31 by decide)
theorem fifoFeedFault (req : Nat) : Statement (.fifoFeedFault req) := of_body (show (0 : Nat) < 2 ^ 31 by decide)
theorem fetchwAnswer (die : Nat) : Statement (.fetchwAnswer die) := of_body (show (0 : Nat) < 2 ^ 31 by decide)
theorem tickBoundary (ctx : Nat) : Statement (.tickBoundary ctx) := of_body (show (0 : Nat) < 2 ^ 31 by decide)
theorem binTimerExpire (bin : Nat) : Statement (.binTimerExpire bin) := of_body (show (0 : Nat) < 2 ^ 31 by decide)
theorem binLaunch (bin : Nat) : Statement (.binLaunch bin) := of_body (show (0 : Nat) < 2 ^ 31 by decide)
theorem issueSelect (core : Nat) (section_ : Nat) : Statement (.issueSelect core section_) := of_body (show (0 : Nat) < 2 ^ 31 by decide)
theorem threadStarved (tk : Nat) : Statement (.threadStarved tk) := of_body (show (0 : Nat) < 2 ^ 31 by decide)
theorem laneWake (tk : Nat) : Statement (.laneWake tk) := of_body (show (0 : Nat) < 2 ^ 31 by decide)
theorem pageWalk (die : Nat) (ctx : Nat) (va : Nat) (kind : Nat) : Statement (.pageWalk die ctx va kind) := of_body (show (0 : Nat) < 2 ^ 31 by decide)
theorem translationFaultResolve (tk : Nat) : Statement (.translationFaultResolve tk) := of_body (show (0 : Nat) < 2 ^ 31 by decide)
theorem phaseSweep (unit : Nat) : Statement (.phaseSweep unit) := of_body (show (0 : Nat) < 2 ^ 31 by decide)
theorem monitorFire (tk : Nat) : Statement (.monitorFire tk) := of_body (show (0 : Nat) < 2 ^ 31 by decide)
theorem signalDelivery (tk : Nat) : Statement (.signalDelivery tk) := of_body (show (0 : Nat) < 2 ^ 31 by decide)
theorem copyRequestStart (req : Nat) : Statement (.copyRequestStart req) := of_body (show (0 : Nat) < 2 ^ 31 by decide)
theorem copyComplete (req : Nat) : Statement (.copyComplete req) := of_body (show (0 : Nat) < 2 ^ 31 by decide)
theorem matrixStep (core : Nat) (ticket : Nat) : Statement (.matrixStep core ticket) := of_body (show (0 : Nat) < 2 ^ 31 by decide)
theorem ticketedSlateAct (core : Nat) (ticket : Nat) : Statement (.ticketedSlateAct core ticket) := of_body (show (0 : Nat) < 2 ^ 31 by decide)
theorem illegalWord (w : Word) : Statement (.illegalWord w) := of_body (show (0 : Nat) < 2 ^ 31 by decide)
theorem deferredResultWrite (tk : Nat) (n : Nat) : Statement (.deferredResultWrite tk n) := of_body (show (0 : Nat) < 2 ^ 31 by decide)
theorem fabricOpSend (op : Nat) : Statement (.fabricOpSend op) := of_body (show (0 : Nat) < 2 ^ 31 by decide)
theorem fabricOpSettle (op : Nat) (refused : Bool) (data : List Byte) : Statement (.fabricOpSettle op refused data) := of_body (show (0 : Nat) < 2 ^ 31 by decide)
theorem pbenSet : Statement .pbenSet := of_body (show (0 : Nat) < 2 ^ 31 by decide)
theorem pbenClear : Statement .pbenClear := of_body (show (0 : Nat) < 2 ^ 31 by decide)
theorem doeAbort : Statement .doeAbort := of_body (show (0 : Nat) < 2 ^ 31 by decide)
theorem doeDiscovery : Statement .doeDiscovery := of_body (show (0 : Nat) < 2 ^ 31 by decide)
theorem spdmDoeRequest : Statement .spdmDoeRequest := of_body (show (0 : Nat) < 2 ^ 31 by decide)
theorem telemetryRead : Statement .telemetryRead := of_body (show (0 : Nat) < 2 ^ 31 by decide)
theorem i3cReset : Statement .i3cReset := of_body (show (0 : Nat) < 2 ^ 31 by decide)
theorem powerOn : Statement .powerOn := of_body (show (0 : Nat) < 2 ^ 31 by decide)
theorem perst : Statement .perst := of_body (show (0 : Nat) < 2 ^ 31 by decide)
theorem cxlReset : Statement .cxlReset := of_body (show (0 : Nat) < 2 ^ 31 by decide)
theorem functionLevelReset : Statement .functionLevelReset := of_body (show (0 : Nat) < 2 ^ 31 by decide)
theorem port1Reset : Statement .port1Reset := of_body (show (0 : Nat) < 2 ^ 31 by decide)
theorem holdEnd : Statement .holdEnd := of_body (show (0 : Nat) < 2 ^ 31 by decide)
theorem powerFault : Statement .powerFault := of_body (show (0 : Nat) < 2 ^ 31 by decide)
theorem thermalTrip : Statement .thermalTrip := of_body (show (0 : Nat) < 2 ^ 31 by decide)
theorem clockThrottle : Statement .clockThrottle := of_body (show (0 : Nat) < 2 ^ 31 by decide)
theorem clockRestore : Statement .clockRestore := of_body (show (0 : Nat) < 2 ^ 31 by decide)
theorem freeze : Statement .freeze := of_body (show (0 : Nat) < 2 ^ 31 by decide)
theorem freezeRelease : Statement .freezeRelease := of_body (show (0 : Nat) < 2 ^ 31 by decide)
theorem scanShift : Statement .scanShift := of_body (show (0 : Nat) < 2 ^ 31 by decide)
theorem backstopSweep : Statement .backstopSweep := of_body (show (0 : Nat) < 2 ^ 31 by decide)
theorem passStep : Statement .passStep := of_body (show (0 : Nat) < 2 ^ 31 by decide)
theorem deviceNumberConflict : Statement .deviceNumberConflict := of_body (show (0 : Nat) < 2 ^ 31 by decide)
theorem dvsecRegisterWrite (port : Nat) (off : Nat) (v : Word) : Statement (.dvsecRegisterWrite port off v) := of_body (show (0 : Nat) < 2 ^ 31 by decide)
theorem mbwrWrite (v : Word) : Statement (.mbwrWrite v) := of_body (show (0 : Nat) < 2 ^ 31 by decide)
theorem mbrdWrite (v : Word) : Statement (.mbrdWrite v) := of_body (show (0 : Nat) < 2 ^ 31 by decide)
theorem spdmMctpRequest (msg : List Byte) : Statement (.spdmMctpRequest msg) := of_body (show (0 : Nat) < 2 ^ 31 by decide)
theorem linkDown (port : Nat) : Statement (.linkDown port) := of_body (show (0 : Nat) < 2 ^ 31 by decide)
theorem linkRetrain (port : Nat) : Statement (.linkRetrain port) := of_body (show (0 : Nat) < 2 ^ 31 by decide)
theorem bisnpTimeout (rid : Nat) (port : Nat) : Statement (.bisnpTimeout rid port) := of_body (show (0 : Nat) < 2 ^ 31 by decide)
theorem playbillWriteSnoop (off : Nat) (bs : List Byte) : Statement (.playbillWriteSnoop off bs) := of_body (show (0 : Nat) < 2 ^ 31 by decide)
theorem queueTailWrite (q : Nat) : Statement (.queueTailWrite q) := of_body (show (0 : Nat) < 2 ^ 31 by decide)
theorem hostMemRead (off : Nat) (n : Nat) : Statement (.hostMemRead off n) := of_body (show (0 : Nat) < 2 ^ 31 by decide)
theorem hostMemWrite (off : Nat) (bs : List Byte) : Statement (.hostMemWrite off bs) := of_body (show (0 : Nat) < 2 ^ 31 by decide)
theorem hostSnoop (addr : Nat) (bs : List Byte) : Statement (.hostSnoop addr bs) := of_body (show (0 : Nat) < 2 ^ 31 by decide)
theorem fabricOpArrival (win kind : Nat) (rows : List (Nat × List Byte)) (sigOp sigOff sigVal : Nat) : Statement (.fabricOpArrival win kind rows sigOp sigOff sigVal) := of_body (show (0 : Nat) < 2 ^ 31 by decide)
theorem fabricPathTimeout (op : Nat) : Statement (.fabricPathTimeout op) := of_body (show (0 : Nat) < 2 ^ 31 by decide)
theorem gratricPortFail (port : Nat) : Statement (.gratricPortFail port) := of_body (show (0 : Nat) < 2 ^ 31 by decide)
theorem flitResend (port : Nat) : Statement (.flitResend port) := of_body (show (0 : Nat) < 2 ^ 31 by decide)
theorem uncorrectableError (site : Nat) (at_ : Nat) (addr : Nat) : Statement (.uncorrectableError site at_ addr) := of_body (show (0 : Nat) < 2 ^ 31 by decide)
theorem correctedError (unit : Nat) : Statement (.correctedError unit) := of_body (show (0 : Nat) < 2 ^ 31 by decide)
theorem gratricPortTrain (port : Nat) : Statement (.gratricPortTrain port) := of_body (show (0 : Nat) < 2 ^ 31 by decide)

end Sys2Proof.Laws.Encoding
end

