-- ==== Sys2Proof/Laws/State.lean ====
section
/-! SUPPORT. One lemma per field per update of the state, each true by definition. -/

namespace Sys2Proof.Machine

/-! ## setThread -/

@[simp] theorem setThread_timebase (s : State) (tk : Nat) (t : Thread) : (setThread s tk t).timebase = s.timebase := rfl
@[simp] theorem setThread_mainMHz (s : State) (tk : Nat) (t : Thread) : (setThread s tk t).mainMHz = s.mainMHz := rfl
@[simp] theorem setThread_frozen (s : State) (tk : Nat) (t : Thread) : (setThread s tk t).frozen = s.frozen := rfl
@[simp] theorem setThread_freezePin (s : State) (tk : Nat) (t : Thread) : (setThread s tk t).freezePin = s.freezePin := rfl
@[simp] theorem setThread_hold (s : State) (tk : Nat) (t : Thread) : (setThread s tk t).hold = s.hold := rfl
@[simp] theorem setThread_port1Used (s : State) (tk : Nat) (t : Thread) : (setThread s tk t).port1Used = s.port1Used := rfl
@[simp] theorem setThread_linkUp0 (s : State) (tk : Nat) (t : Thread) : (setThread s tk t).linkUp0 = s.linkUp0 := rfl
@[simp] theorem setThread_linkUp1 (s : State) (tk : Nat) (t : Thread) : (setThread s tk t).linkUp1 = s.linkUp1 := rfl
@[simp] theorem setThread_duplicate (s : State) (tk : Nat) (t : Thread) : (setThread s tk t).duplicate = s.duplicate := rfl
@[simp] theorem setThread_errCorrected (s : State) (tk : Nat) (t : Thread) : (setThread s tk t).errCorrected = s.errCorrected := rfl
@[simp] theorem setThread_errUncorrected (s : State) (tk : Nat) (t : Thread) : (setThread s tk t).errUncorrected = s.errUncorrected := rfl
@[simp] theorem setThread_cfg (s : State) (tk : Nat) (t : Thread) : (setThread s tk t).cfg = s.cfg := rfl
@[simp] theorem setThread_cfgFlash (s : State) (tk : Nat) (t : Thread) : (setThread s tk t).cfgFlash = s.cfgFlash := rfl
@[simp] theorem setThread_fwVersion (s : State) (tk : Nat) (t : Thread) : (setThread s tk t).fwVersion = s.fwVersion := rfl
@[simp] theorem setThread_walkVersion (s : State) (tk : Nat) (t : Thread) : (setThread s tk t).walkVersion = s.walkVersion := rfl
@[simp] theorem setThread_routines (s : State) (tk : Nat) (t : Thread) : (setThread s tk t).routines = s.routines := rfl
@[simp] theorem setThread_coreMap (s : State) (tk : Nat) (t : Thread) : (setThread s tk t).coreMap = s.coreMap := rfl
@[simp] theorem setThread_retiredCores (s : State) (tk : Nat) (t : Thread) : (setThread s tk t).retiredCores = s.retiredCores := rfl
@[simp] theorem setThread_newImage (s : State) (tk : Nat) (t : Thread) : (setThread s tk t).newImage = s.newImage := rfl
@[simp] theorem setThread_vacant (s : State) (tk : Nat) (t : Thread) : (setThread s tk t).vacant = s.vacant := rfl
@[simp] theorem setThread_retiredChannels (s : State) (tk : Nat) (t : Thread) : (setThread s tk t).retiredChannels = s.retiredChannels := rfl
@[simp] theorem setThread_dvsec (s : State) (tk : Nat) (t : Thread) : (setThread s tk t).dvsec = s.dvsec := rfl
@[simp] theorem setThread_playbill (s : State) (tk : Nat) (t : Thread) : (setThread s tk t).playbill = s.playbill := rfl
@[simp] theorem setThread_hdmBase (s : State) (tk : Nat) (t : Thread) : (setThread s tk t).hdmBase = s.hdmBase := rfl
@[simp] theorem setThread_watch (s : State) (tk : Nat) (t : Thread) : (setThread s tk t).watch = s.watch := rfl
@[simp] theorem setThread_flags (s : State) (tk : Nat) (t : Thread) : (setThread s tk t).flags = s.flags := rfl
@[simp] theorem setThread_wake (s : State) (tk : Nat) (t : Thread) : (setThread s tk t).wake = s.wake := rfl
@[simp] theorem setThread_fullRead (s : State) (tk : Nat) (t : Thread) : (setThread s tk t).fullRead = s.fullRead := rfl
@[simp] theorem setThread_lastRev (s : State) (tk : Nat) (t : Thread) : (setThread s tk t).lastRev = s.lastRev := rfl
@[simp] theorem setThread_lastPassEnd (s : State) (tk : Nat) (t : Thread) : (setThread s tk t).lastPassEnd = s.lastPassEnd := rfl
@[simp] theorem setThread_mishap (s : State) (tk : Nat) (t : Thread) : (setThread s tk t).mishap = s.mishap := rfl
@[simp] theorem setThread_markSeq (s : State) (tk : Nat) (t : Thread) : (setThread s tk t).markSeq = s.markSeq := rfl
@[simp] theorem setThread_marksWritten (s : State) (tk : Nat) (t : Thread) : (setThread s tk t).marksWritten = s.marksWritten := rfl
@[simp] theorem setThread_book (s : State) (tk : Nat) (t : Thread) : (setThread s tk t).book = s.book := rfl
@[simp] theorem setThread_frames (s : State) (tk : Nat) (t : Thread) : (setThread s tk t).frames = s.frames := rfl
@[simp] theorem setThread_ctxs (s : State) (tk : Nat) (t : Thread) : (setThread s tk t).ctxs = s.ctxs := rfl
@[simp] theorem setThread_maps (s : State) (tk : Nat) (t : Thread) : (setThread s tk t).maps = s.maps := rfl
@[simp] theorem setThread_snaps (s : State) (tk : Nat) (t : Thread) : (setThread s tk t).snaps = s.snaps := rfl
@[simp] theorem setThread_reserved (s : State) (tk : Nat) (t : Thread) : (setThread s tk t).reserved = s.reserved := rfl
@[simp] theorem setThread_dmem (s : State) (tk : Nat) (t : Thread) : (setThread s tk t).dmem = s.dmem := rfl
@[simp] theorem setThread_scratch (s : State) (tk : Nat) (t : Thread) : (setThread s tk t).scratch = s.scratch := rfl
@[simp] theorem setThread_absent (s : State) (tk : Nat) (t : Thread) : (setThread s tk t).absent = s.absent := rfl
@[simp] theorem setThread_l1 (s : State) (tk : Nat) (t : Thread) : (setThread s tk t).l1 = s.l1 := rfl
@[simp] theorem setThread_rdc (s : State) (tk : Nat) (t : Thread) : (setThread s tk t).rdc = s.rdc := rfl
@[simp] theorem setThread_corePhase (s : State) (tk : Nat) (t : Thread) : (setThread s tk t).corePhase = s.corePhase := rfl
@[simp] theorem setThread_rdcPhase (s : State) (tk : Nat) (t : Thread) : (setThread s tk t).rdcPhase = s.rdcPhase := rfl
@[simp] theorem setThread_dirPred (s : State) (tk : Nat) (t : Thread) : (setThread s tk t).dirPred = s.dirPred := rfl
@[simp] theorem setThread_passing (s : State) (tk : Nat) (t : Thread) : (setThread s tk t).passing = s.passing := rfl
@[simp] theorem setThread_early (s : State) (tk : Nat) (t : Thread) : (setThread s tk t).early = s.early := rfl
@[simp] theorem setThread_lateStores (s : State) (tk : Nat) (t : Thread) : (setThread s tk t).lateStores = s.lateStores := rfl
@[simp] theorem setThread_lateLoads (s : State) (tk : Nat) (t : Thread) : (setThread s tk t).lateLoads = s.lateLoads := rfl
@[simp] theorem setThread_badDev (s : State) (tk : Nat) (t : Thread) : (setThread s tk t).badDev = s.badDev := rfl
@[simp] theorem setThread_badScratch (s : State) (tk : Nat) (t : Thread) : (setThread s tk t).badScratch = s.badScratch := rfl
@[simp] theorem setThread_badRegs (s : State) (tk : Nat) (t : Thread) : (setThread s tk t).badRegs = s.badRegs := rfl
@[simp] theorem setThread_biasHolders (s : State) (tk : Nat) (t : Thread) : (setThread s tk t).biasHolders = s.biasHolders := rfl
@[simp] theorem setThread_coreTlb (s : State) (tk : Nat) (t : Thread) : (setThread s tk t).coreTlb = s.coreTlb := rfl
@[simp] theorem setThread_dieTlb (s : State) (tk : Nat) (t : Thread) : (setThread s tk t).dieTlb = s.dieTlb := rfl
@[simp] theorem setThread_icache (s : State) (tk : Nat) (t : Thread) : (setThread s tk t).icache = s.icache := rfl
@[simp] theorem setThread_residents (s : State) (tk : Nat) (t : Thread) : (setThread s tk t).residents = s.residents := rfl
@[simp] theorem setThread_ushers (s : State) (tk : Nat) (t : Thread) : (setThread s tk t).ushers = s.ushers := rfl
@[simp] theorem setThread_placeSeq (s : State) (tk : Nat) (t : Thread) : (setThread s tk t).placeSeq = s.placeSeq := rfl
@[simp] theorem setThread_classes (s : State) (tk : Nat) (t : Thread) : (setThread s tk t).classes = s.classes := rfl
@[simp] theorem setThread_troupes (s : State) (tk : Nat) (t : Thread) : (setThread s tk t).troupes = s.troupes := rfl
@[simp] theorem setThread_threads (s : State) (tk : Nat) (t : Thread) : (setThread s tk t).threads = tput s.threads tk t := rfl
@[simp] theorem setThread_ended (s : State) (tk : Nat) (t : Thread) : (setThread s tk t).ended = s.ended := rfl
@[simp] theorem setThread_regs (s : State) (tk : Nat) (t : Thread) : (setThread s tk t).regs = s.regs := rfl
@[simp] theorem setThread_cregs (s : State) (tk : Nat) (t : Thread) : (setThread s tk t).cregs = s.cregs := rfl
@[simp] theorem setThread_cregSeq (s : State) (tk : Nat) (t : Thread) : (setThread s tk t).cregSeq = s.cregSeq := rfl
@[simp] theorem setThread_cregLast (s : State) (tk : Nat) (t : Thread) : (setThread s tk t).cregLast = s.cregLast := rfl
@[simp] theorem setThread_timelines (s : State) (tk : Nat) (t : Thread) : (setThread s tk t).timelines = s.timelines := rfl
@[simp] theorem setThread_bins (s : State) (tk : Nat) (t : Thread) : (setThread s tk t).bins = s.bins := rfl
@[simp] theorem setThread_cores (s : State) (tk : Nat) (t : Thread) : (setThread s tk t).cores = s.cores := rfl
@[simp] theorem setThread_noteQueues (s : State) (tk : Nat) (t : Thread) : (setThread s tk t).noteQueues = s.noteQueues := rfl
@[simp] theorem setThread_cbs (s : State) (tk : Nat) (t : Thread) : (setThread s tk t).cbs = s.cbs := rfl
@[simp] theorem setThread_nextReq (s : State) (tk : Nat) (t : Thread) : (setThread s tk t).nextReq = s.nextReq := rfl
@[simp] theorem setThread_reqs (s : State) (tk : Nat) (t : Thread) : (setThread s tk t).reqs = s.reqs := rfl
@[simp] theorem setThread_fabOps (s : State) (tk : Nat) (t : Thread) : (setThread s tk t).fabOps = s.fabOps := rfl
@[simp] theorem setThread_imagesOut (s : State) (tk : Nat) (t : Thread) : (setThread s tk t).imagesOut = s.imagesOut := rfl
@[simp] theorem setThread_windows (s : State) (tk : Nat) (t : Thread) : (setThread s tk t).windows = s.windows := rfl
@[simp] theorem setThread_ports (s : State) (tk : Nat) (t : Thread) : (setThread s tk t).ports = s.ports := rfl
@[simp] theorem setThread_mats (s : State) (tk : Nat) (t : Thread) : (setThread s tk t).mats = s.mats := rfl
@[simp] theorem setThread_issueSeq (s : State) (tk : Nat) (t : Thread) : (setThread s tk t).issueSeq = s.issueSeq := rfl
@[simp] theorem setThread_issue (s : State) (tk : Nat) (t : Thread) : (setThread s tk t).issue = s.issue := rfl
@[simp] theorem setThread_hmem (s : State) (tk : Nat) (t : Thread) : (setThread s tk t).hmem = s.hmem := rfl
@[simp] theorem setThread_badHost (s : State) (tk : Nat) (t : Thread) : (setThread s tk t).badHost = s.badHost := rfl
@[simp] theorem setThread_irqs (s : State) (tk : Nat) (t : Thread) : (setThread s tk t).irqs = s.irqs := rfl
@[simp] theorem setThread_i3c (s : State) (tk : Nat) (t : Thread) : (setThread s tk t).i3c = s.i3c := rfl
@[simp] theorem setThread_hostOut (s : State) (tk : Nat) (t : Thread) : (setThread s tk t).hostOut = s.hostOut := rfl
@[simp] theorem setThread_free (s : State) (tk : Nat) (t : Thread) : (setThread s tk t).free = s.free := rfl
@[simp] theorem setThread_agenda (s : State) (tk : Nat) (t : Thread) : (setThread s tk t).agenda = s.agenda := rfl

/-! ## updThread -/

@[simp] theorem updThread_timebase (s : State) (tk : Nat) (f : Thread → Thread) : (updThread s tk f).timebase = s.timebase := rfl
@[simp] theorem updThread_mainMHz (s : State) (tk : Nat) (f : Thread → Thread) : (updThread s tk f).mainMHz = s.mainMHz := rfl
@[simp] theorem updThread_frozen (s : State) (tk : Nat) (f : Thread → Thread) : (updThread s tk f).frozen = s.frozen := rfl
@[simp] theorem updThread_freezePin (s : State) (tk : Nat) (f : Thread → Thread) : (updThread s tk f).freezePin = s.freezePin := rfl
@[simp] theorem updThread_hold (s : State) (tk : Nat) (f : Thread → Thread) : (updThread s tk f).hold = s.hold := rfl
@[simp] theorem updThread_port1Used (s : State) (tk : Nat) (f : Thread → Thread) : (updThread s tk f).port1Used = s.port1Used := rfl
@[simp] theorem updThread_linkUp0 (s : State) (tk : Nat) (f : Thread → Thread) : (updThread s tk f).linkUp0 = s.linkUp0 := rfl
@[simp] theorem updThread_linkUp1 (s : State) (tk : Nat) (f : Thread → Thread) : (updThread s tk f).linkUp1 = s.linkUp1 := rfl
@[simp] theorem updThread_duplicate (s : State) (tk : Nat) (f : Thread → Thread) : (updThread s tk f).duplicate = s.duplicate := rfl
@[simp] theorem updThread_errCorrected (s : State) (tk : Nat) (f : Thread → Thread) : (updThread s tk f).errCorrected = s.errCorrected := rfl
@[simp] theorem updThread_errUncorrected (s : State) (tk : Nat) (f : Thread → Thread) : (updThread s tk f).errUncorrected = s.errUncorrected := rfl
@[simp] theorem updThread_cfg (s : State) (tk : Nat) (f : Thread → Thread) : (updThread s tk f).cfg = s.cfg := rfl
@[simp] theorem updThread_cfgFlash (s : State) (tk : Nat) (f : Thread → Thread) : (updThread s tk f).cfgFlash = s.cfgFlash := rfl
@[simp] theorem updThread_fwVersion (s : State) (tk : Nat) (f : Thread → Thread) : (updThread s tk f).fwVersion = s.fwVersion := rfl
@[simp] theorem updThread_walkVersion (s : State) (tk : Nat) (f : Thread → Thread) : (updThread s tk f).walkVersion = s.walkVersion := rfl
@[simp] theorem updThread_routines (s : State) (tk : Nat) (f : Thread → Thread) : (updThread s tk f).routines = s.routines := rfl
@[simp] theorem updThread_coreMap (s : State) (tk : Nat) (f : Thread → Thread) : (updThread s tk f).coreMap = s.coreMap := rfl
@[simp] theorem updThread_retiredCores (s : State) (tk : Nat) (f : Thread → Thread) : (updThread s tk f).retiredCores = s.retiredCores := rfl
@[simp] theorem updThread_newImage (s : State) (tk : Nat) (f : Thread → Thread) : (updThread s tk f).newImage = s.newImage := rfl
@[simp] theorem updThread_vacant (s : State) (tk : Nat) (f : Thread → Thread) : (updThread s tk f).vacant = s.vacant := rfl
@[simp] theorem updThread_retiredChannels (s : State) (tk : Nat) (f : Thread → Thread) : (updThread s tk f).retiredChannels = s.retiredChannels := rfl
@[simp] theorem updThread_dvsec (s : State) (tk : Nat) (f : Thread → Thread) : (updThread s tk f).dvsec = s.dvsec := rfl
@[simp] theorem updThread_playbill (s : State) (tk : Nat) (f : Thread → Thread) : (updThread s tk f).playbill = s.playbill := rfl
@[simp] theorem updThread_hdmBase (s : State) (tk : Nat) (f : Thread → Thread) : (updThread s tk f).hdmBase = s.hdmBase := rfl
@[simp] theorem updThread_watch (s : State) (tk : Nat) (f : Thread → Thread) : (updThread s tk f).watch = s.watch := rfl
@[simp] theorem updThread_flags (s : State) (tk : Nat) (f : Thread → Thread) : (updThread s tk f).flags = s.flags := rfl
@[simp] theorem updThread_wake (s : State) (tk : Nat) (f : Thread → Thread) : (updThread s tk f).wake = s.wake := rfl
@[simp] theorem updThread_fullRead (s : State) (tk : Nat) (f : Thread → Thread) : (updThread s tk f).fullRead = s.fullRead := rfl
@[simp] theorem updThread_lastRev (s : State) (tk : Nat) (f : Thread → Thread) : (updThread s tk f).lastRev = s.lastRev := rfl
@[simp] theorem updThread_lastPassEnd (s : State) (tk : Nat) (f : Thread → Thread) : (updThread s tk f).lastPassEnd = s.lastPassEnd := rfl
@[simp] theorem updThread_mishap (s : State) (tk : Nat) (f : Thread → Thread) : (updThread s tk f).mishap = s.mishap := rfl
@[simp] theorem updThread_markSeq (s : State) (tk : Nat) (f : Thread → Thread) : (updThread s tk f).markSeq = s.markSeq := rfl
@[simp] theorem updThread_marksWritten (s : State) (tk : Nat) (f : Thread → Thread) : (updThread s tk f).marksWritten = s.marksWritten := rfl
@[simp] theorem updThread_book (s : State) (tk : Nat) (f : Thread → Thread) : (updThread s tk f).book = s.book := rfl
@[simp] theorem updThread_frames (s : State) (tk : Nat) (f : Thread → Thread) : (updThread s tk f).frames = s.frames := rfl
@[simp] theorem updThread_ctxs (s : State) (tk : Nat) (f : Thread → Thread) : (updThread s tk f).ctxs = s.ctxs := rfl
@[simp] theorem updThread_maps (s : State) (tk : Nat) (f : Thread → Thread) : (updThread s tk f).maps = s.maps := rfl
@[simp] theorem updThread_snaps (s : State) (tk : Nat) (f : Thread → Thread) : (updThread s tk f).snaps = s.snaps := rfl
@[simp] theorem updThread_reserved (s : State) (tk : Nat) (f : Thread → Thread) : (updThread s tk f).reserved = s.reserved := rfl
@[simp] theorem updThread_dmem (s : State) (tk : Nat) (f : Thread → Thread) : (updThread s tk f).dmem = s.dmem := rfl
@[simp] theorem updThread_scratch (s : State) (tk : Nat) (f : Thread → Thread) : (updThread s tk f).scratch = s.scratch := rfl
@[simp] theorem updThread_absent (s : State) (tk : Nat) (f : Thread → Thread) : (updThread s tk f).absent = s.absent := rfl
@[simp] theorem updThread_l1 (s : State) (tk : Nat) (f : Thread → Thread) : (updThread s tk f).l1 = s.l1 := rfl
@[simp] theorem updThread_rdc (s : State) (tk : Nat) (f : Thread → Thread) : (updThread s tk f).rdc = s.rdc := rfl
@[simp] theorem updThread_corePhase (s : State) (tk : Nat) (f : Thread → Thread) : (updThread s tk f).corePhase = s.corePhase := rfl
@[simp] theorem updThread_rdcPhase (s : State) (tk : Nat) (f : Thread → Thread) : (updThread s tk f).rdcPhase = s.rdcPhase := rfl
@[simp] theorem updThread_dirPred (s : State) (tk : Nat) (f : Thread → Thread) : (updThread s tk f).dirPred = s.dirPred := rfl
@[simp] theorem updThread_passing (s : State) (tk : Nat) (f : Thread → Thread) : (updThread s tk f).passing = s.passing := rfl
@[simp] theorem updThread_early (s : State) (tk : Nat) (f : Thread → Thread) : (updThread s tk f).early = s.early := rfl
@[simp] theorem updThread_lateStores (s : State) (tk : Nat) (f : Thread → Thread) : (updThread s tk f).lateStores = s.lateStores := rfl
@[simp] theorem updThread_lateLoads (s : State) (tk : Nat) (f : Thread → Thread) : (updThread s tk f).lateLoads = s.lateLoads := rfl
@[simp] theorem updThread_badDev (s : State) (tk : Nat) (f : Thread → Thread) : (updThread s tk f).badDev = s.badDev := rfl
@[simp] theorem updThread_badScratch (s : State) (tk : Nat) (f : Thread → Thread) : (updThread s tk f).badScratch = s.badScratch := rfl
@[simp] theorem updThread_badRegs (s : State) (tk : Nat) (f : Thread → Thread) : (updThread s tk f).badRegs = s.badRegs := rfl
@[simp] theorem updThread_biasHolders (s : State) (tk : Nat) (f : Thread → Thread) : (updThread s tk f).biasHolders = s.biasHolders := rfl
@[simp] theorem updThread_coreTlb (s : State) (tk : Nat) (f : Thread → Thread) : (updThread s tk f).coreTlb = s.coreTlb := rfl
@[simp] theorem updThread_dieTlb (s : State) (tk : Nat) (f : Thread → Thread) : (updThread s tk f).dieTlb = s.dieTlb := rfl
@[simp] theorem updThread_icache (s : State) (tk : Nat) (f : Thread → Thread) : (updThread s tk f).icache = s.icache := rfl
@[simp] theorem updThread_residents (s : State) (tk : Nat) (f : Thread → Thread) : (updThread s tk f).residents = s.residents := rfl
@[simp] theorem updThread_ushers (s : State) (tk : Nat) (f : Thread → Thread) : (updThread s tk f).ushers = s.ushers := rfl
@[simp] theorem updThread_placeSeq (s : State) (tk : Nat) (f : Thread → Thread) : (updThread s tk f).placeSeq = s.placeSeq := rfl
@[simp] theorem updThread_classes (s : State) (tk : Nat) (f : Thread → Thread) : (updThread s tk f).classes = s.classes := rfl
@[simp] theorem updThread_troupes (s : State) (tk : Nat) (f : Thread → Thread) : (updThread s tk f).troupes = s.troupes := rfl
@[simp] theorem updThread_threads (s : State) (tk : Nat) (f : Thread → Thread) : (updThread s tk f).threads = tupd s.threads tk f := rfl
@[simp] theorem updThread_ended (s : State) (tk : Nat) (f : Thread → Thread) : (updThread s tk f).ended = s.ended := rfl
@[simp] theorem updThread_regs (s : State) (tk : Nat) (f : Thread → Thread) : (updThread s tk f).regs = s.regs := rfl
@[simp] theorem updThread_cregs (s : State) (tk : Nat) (f : Thread → Thread) : (updThread s tk f).cregs = s.cregs := rfl
@[simp] theorem updThread_cregSeq (s : State) (tk : Nat) (f : Thread → Thread) : (updThread s tk f).cregSeq = s.cregSeq := rfl
@[simp] theorem updThread_cregLast (s : State) (tk : Nat) (f : Thread → Thread) : (updThread s tk f).cregLast = s.cregLast := rfl
@[simp] theorem updThread_timelines (s : State) (tk : Nat) (f : Thread → Thread) : (updThread s tk f).timelines = s.timelines := rfl
@[simp] theorem updThread_bins (s : State) (tk : Nat) (f : Thread → Thread) : (updThread s tk f).bins = s.bins := rfl
@[simp] theorem updThread_cores (s : State) (tk : Nat) (f : Thread → Thread) : (updThread s tk f).cores = s.cores := rfl
@[simp] theorem updThread_noteQueues (s : State) (tk : Nat) (f : Thread → Thread) : (updThread s tk f).noteQueues = s.noteQueues := rfl
@[simp] theorem updThread_cbs (s : State) (tk : Nat) (f : Thread → Thread) : (updThread s tk f).cbs = s.cbs := rfl
@[simp] theorem updThread_nextReq (s : State) (tk : Nat) (f : Thread → Thread) : (updThread s tk f).nextReq = s.nextReq := rfl
@[simp] theorem updThread_reqs (s : State) (tk : Nat) (f : Thread → Thread) : (updThread s tk f).reqs = s.reqs := rfl
@[simp] theorem updThread_fabOps (s : State) (tk : Nat) (f : Thread → Thread) : (updThread s tk f).fabOps = s.fabOps := rfl
@[simp] theorem updThread_imagesOut (s : State) (tk : Nat) (f : Thread → Thread) : (updThread s tk f).imagesOut = s.imagesOut := rfl
@[simp] theorem updThread_windows (s : State) (tk : Nat) (f : Thread → Thread) : (updThread s tk f).windows = s.windows := rfl
@[simp] theorem updThread_ports (s : State) (tk : Nat) (f : Thread → Thread) : (updThread s tk f).ports = s.ports := rfl
@[simp] theorem updThread_mats (s : State) (tk : Nat) (f : Thread → Thread) : (updThread s tk f).mats = s.mats := rfl
@[simp] theorem updThread_issueSeq (s : State) (tk : Nat) (f : Thread → Thread) : (updThread s tk f).issueSeq = s.issueSeq := rfl
@[simp] theorem updThread_issue (s : State) (tk : Nat) (f : Thread → Thread) : (updThread s tk f).issue = s.issue := rfl
@[simp] theorem updThread_hmem (s : State) (tk : Nat) (f : Thread → Thread) : (updThread s tk f).hmem = s.hmem := rfl
@[simp] theorem updThread_badHost (s : State) (tk : Nat) (f : Thread → Thread) : (updThread s tk f).badHost = s.badHost := rfl
@[simp] theorem updThread_irqs (s : State) (tk : Nat) (f : Thread → Thread) : (updThread s tk f).irqs = s.irqs := rfl
@[simp] theorem updThread_i3c (s : State) (tk : Nat) (f : Thread → Thread) : (updThread s tk f).i3c = s.i3c := rfl
@[simp] theorem updThread_hostOut (s : State) (tk : Nat) (f : Thread → Thread) : (updThread s tk f).hostOut = s.hostOut := rfl
@[simp] theorem updThread_free (s : State) (tk : Nat) (f : Thread → Thread) : (updThread s tk f).free = s.free := rfl
@[simp] theorem updThread_agenda (s : State) (tk : Nat) (f : Thread → Thread) : (updThread s tk f).agenda = s.agenda := rfl

/-! ## updTroupe -/

@[simp] theorem updTroupe_timebase (s : State) (ck p : Nat) (f : Troupe → Troupe) : (updTroupe s ck p f).timebase = s.timebase := rfl
@[simp] theorem updTroupe_mainMHz (s : State) (ck p : Nat) (f : Troupe → Troupe) : (updTroupe s ck p f).mainMHz = s.mainMHz := rfl
@[simp] theorem updTroupe_frozen (s : State) (ck p : Nat) (f : Troupe → Troupe) : (updTroupe s ck p f).frozen = s.frozen := rfl
@[simp] theorem updTroupe_freezePin (s : State) (ck p : Nat) (f : Troupe → Troupe) : (updTroupe s ck p f).freezePin = s.freezePin := rfl
@[simp] theorem updTroupe_hold (s : State) (ck p : Nat) (f : Troupe → Troupe) : (updTroupe s ck p f).hold = s.hold := rfl
@[simp] theorem updTroupe_port1Used (s : State) (ck p : Nat) (f : Troupe → Troupe) : (updTroupe s ck p f).port1Used = s.port1Used := rfl
@[simp] theorem updTroupe_linkUp0 (s : State) (ck p : Nat) (f : Troupe → Troupe) : (updTroupe s ck p f).linkUp0 = s.linkUp0 := rfl
@[simp] theorem updTroupe_linkUp1 (s : State) (ck p : Nat) (f : Troupe → Troupe) : (updTroupe s ck p f).linkUp1 = s.linkUp1 := rfl
@[simp] theorem updTroupe_duplicate (s : State) (ck p : Nat) (f : Troupe → Troupe) : (updTroupe s ck p f).duplicate = s.duplicate := rfl
@[simp] theorem updTroupe_errCorrected (s : State) (ck p : Nat) (f : Troupe → Troupe) : (updTroupe s ck p f).errCorrected = s.errCorrected := rfl
@[simp] theorem updTroupe_errUncorrected (s : State) (ck p : Nat) (f : Troupe → Troupe) : (updTroupe s ck p f).errUncorrected = s.errUncorrected := rfl
@[simp] theorem updTroupe_cfg (s : State) (ck p : Nat) (f : Troupe → Troupe) : (updTroupe s ck p f).cfg = s.cfg := rfl
@[simp] theorem updTroupe_cfgFlash (s : State) (ck p : Nat) (f : Troupe → Troupe) : (updTroupe s ck p f).cfgFlash = s.cfgFlash := rfl
@[simp] theorem updTroupe_fwVersion (s : State) (ck p : Nat) (f : Troupe → Troupe) : (updTroupe s ck p f).fwVersion = s.fwVersion := rfl
@[simp] theorem updTroupe_walkVersion (s : State) (ck p : Nat) (f : Troupe → Troupe) : (updTroupe s ck p f).walkVersion = s.walkVersion := rfl
@[simp] theorem updTroupe_routines (s : State) (ck p : Nat) (f : Troupe → Troupe) : (updTroupe s ck p f).routines = s.routines := rfl
@[simp] theorem updTroupe_coreMap (s : State) (ck p : Nat) (f : Troupe → Troupe) : (updTroupe s ck p f).coreMap = s.coreMap := rfl
@[simp] theorem updTroupe_retiredCores (s : State) (ck p : Nat) (f : Troupe → Troupe) : (updTroupe s ck p f).retiredCores = s.retiredCores := rfl
@[simp] theorem updTroupe_newImage (s : State) (ck p : Nat) (f : Troupe → Troupe) : (updTroupe s ck p f).newImage = s.newImage := rfl
@[simp] theorem updTroupe_vacant (s : State) (ck p : Nat) (f : Troupe → Troupe) : (updTroupe s ck p f).vacant = s.vacant := rfl
@[simp] theorem updTroupe_retiredChannels (s : State) (ck p : Nat) (f : Troupe → Troupe) : (updTroupe s ck p f).retiredChannels = s.retiredChannels := rfl
@[simp] theorem updTroupe_dvsec (s : State) (ck p : Nat) (f : Troupe → Troupe) : (updTroupe s ck p f).dvsec = s.dvsec := rfl
@[simp] theorem updTroupe_playbill (s : State) (ck p : Nat) (f : Troupe → Troupe) : (updTroupe s ck p f).playbill = s.playbill := rfl
@[simp] theorem updTroupe_hdmBase (s : State) (ck p : Nat) (f : Troupe → Troupe) : (updTroupe s ck p f).hdmBase = s.hdmBase := rfl
@[simp] theorem updTroupe_watch (s : State) (ck p : Nat) (f : Troupe → Troupe) : (updTroupe s ck p f).watch = s.watch := rfl
@[simp] theorem updTroupe_flags (s : State) (ck p : Nat) (f : Troupe → Troupe) : (updTroupe s ck p f).flags = s.flags := rfl
@[simp] theorem updTroupe_wake (s : State) (ck p : Nat) (f : Troupe → Troupe) : (updTroupe s ck p f).wake = s.wake := rfl
@[simp] theorem updTroupe_fullRead (s : State) (ck p : Nat) (f : Troupe → Troupe) : (updTroupe s ck p f).fullRead = s.fullRead := rfl
@[simp] theorem updTroupe_lastRev (s : State) (ck p : Nat) (f : Troupe → Troupe) : (updTroupe s ck p f).lastRev = s.lastRev := rfl
@[simp] theorem updTroupe_lastPassEnd (s : State) (ck p : Nat) (f : Troupe → Troupe) : (updTroupe s ck p f).lastPassEnd = s.lastPassEnd := rfl
@[simp] theorem updTroupe_mishap (s : State) (ck p : Nat) (f : Troupe → Troupe) : (updTroupe s ck p f).mishap = s.mishap := rfl
@[simp] theorem updTroupe_markSeq (s : State) (ck p : Nat) (f : Troupe → Troupe) : (updTroupe s ck p f).markSeq = s.markSeq := rfl
@[simp] theorem updTroupe_marksWritten (s : State) (ck p : Nat) (f : Troupe → Troupe) : (updTroupe s ck p f).marksWritten = s.marksWritten := rfl
@[simp] theorem updTroupe_book (s : State) (ck p : Nat) (f : Troupe → Troupe) : (updTroupe s ck p f).book = s.book := rfl
@[simp] theorem updTroupe_frames (s : State) (ck p : Nat) (f : Troupe → Troupe) : (updTroupe s ck p f).frames = s.frames := rfl
@[simp] theorem updTroupe_ctxs (s : State) (ck p : Nat) (f : Troupe → Troupe) : (updTroupe s ck p f).ctxs = s.ctxs := rfl
@[simp] theorem updTroupe_maps (s : State) (ck p : Nat) (f : Troupe → Troupe) : (updTroupe s ck p f).maps = s.maps := rfl
@[simp] theorem updTroupe_snaps (s : State) (ck p : Nat) (f : Troupe → Troupe) : (updTroupe s ck p f).snaps = s.snaps := rfl
@[simp] theorem updTroupe_reserved (s : State) (ck p : Nat) (f : Troupe → Troupe) : (updTroupe s ck p f).reserved = s.reserved := rfl
@[simp] theorem updTroupe_dmem (s : State) (ck p : Nat) (f : Troupe → Troupe) : (updTroupe s ck p f).dmem = s.dmem := rfl
@[simp] theorem updTroupe_scratch (s : State) (ck p : Nat) (f : Troupe → Troupe) : (updTroupe s ck p f).scratch = s.scratch := rfl
@[simp] theorem updTroupe_absent (s : State) (ck p : Nat) (f : Troupe → Troupe) : (updTroupe s ck p f).absent = s.absent := rfl
@[simp] theorem updTroupe_l1 (s : State) (ck p : Nat) (f : Troupe → Troupe) : (updTroupe s ck p f).l1 = s.l1 := rfl
@[simp] theorem updTroupe_rdc (s : State) (ck p : Nat) (f : Troupe → Troupe) : (updTroupe s ck p f).rdc = s.rdc := rfl
@[simp] theorem updTroupe_corePhase (s : State) (ck p : Nat) (f : Troupe → Troupe) : (updTroupe s ck p f).corePhase = s.corePhase := rfl
@[simp] theorem updTroupe_rdcPhase (s : State) (ck p : Nat) (f : Troupe → Troupe) : (updTroupe s ck p f).rdcPhase = s.rdcPhase := rfl
@[simp] theorem updTroupe_dirPred (s : State) (ck p : Nat) (f : Troupe → Troupe) : (updTroupe s ck p f).dirPred = s.dirPred := rfl
@[simp] theorem updTroupe_passing (s : State) (ck p : Nat) (f : Troupe → Troupe) : (updTroupe s ck p f).passing = s.passing := rfl
@[simp] theorem updTroupe_early (s : State) (ck p : Nat) (f : Troupe → Troupe) : (updTroupe s ck p f).early = s.early := rfl
@[simp] theorem updTroupe_lateStores (s : State) (ck p : Nat) (f : Troupe → Troupe) : (updTroupe s ck p f).lateStores = s.lateStores := rfl
@[simp] theorem updTroupe_lateLoads (s : State) (ck p : Nat) (f : Troupe → Troupe) : (updTroupe s ck p f).lateLoads = s.lateLoads := rfl
@[simp] theorem updTroupe_badDev (s : State) (ck p : Nat) (f : Troupe → Troupe) : (updTroupe s ck p f).badDev = s.badDev := rfl
@[simp] theorem updTroupe_badScratch (s : State) (ck p : Nat) (f : Troupe → Troupe) : (updTroupe s ck p f).badScratch = s.badScratch := rfl
@[simp] theorem updTroupe_badRegs (s : State) (ck p : Nat) (f : Troupe → Troupe) : (updTroupe s ck p f).badRegs = s.badRegs := rfl
@[simp] theorem updTroupe_biasHolders (s : State) (ck p : Nat) (f : Troupe → Troupe) : (updTroupe s ck p f).biasHolders = s.biasHolders := rfl
@[simp] theorem updTroupe_coreTlb (s : State) (ck p : Nat) (f : Troupe → Troupe) : (updTroupe s ck p f).coreTlb = s.coreTlb := rfl
@[simp] theorem updTroupe_dieTlb (s : State) (ck p : Nat) (f : Troupe → Troupe) : (updTroupe s ck p f).dieTlb = s.dieTlb := rfl
@[simp] theorem updTroupe_icache (s : State) (ck p : Nat) (f : Troupe → Troupe) : (updTroupe s ck p f).icache = s.icache := rfl
@[simp] theorem updTroupe_residents (s : State) (ck p : Nat) (f : Troupe → Troupe) : (updTroupe s ck p f).residents = s.residents := rfl
@[simp] theorem updTroupe_ushers (s : State) (ck p : Nat) (f : Troupe → Troupe) : (updTroupe s ck p f).ushers = s.ushers := rfl
@[simp] theorem updTroupe_placeSeq (s : State) (ck p : Nat) (f : Troupe → Troupe) : (updTroupe s ck p f).placeSeq = s.placeSeq := rfl
@[simp] theorem updTroupe_classes (s : State) (ck p : Nat) (f : Troupe → Troupe) : (updTroupe s ck p f).classes = s.classes := rfl
@[simp] theorem updTroupe_troupes (s : State) (ck p : Nat) (f : Troupe → Troupe) : (updTroupe s ck p f).troupes = tupd s.troupes (pkey ck p) f := rfl
@[simp] theorem updTroupe_threads (s : State) (ck p : Nat) (f : Troupe → Troupe) : (updTroupe s ck p f).threads = s.threads := rfl
@[simp] theorem updTroupe_ended (s : State) (ck p : Nat) (f : Troupe → Troupe) : (updTroupe s ck p f).ended = s.ended := rfl
@[simp] theorem updTroupe_regs (s : State) (ck p : Nat) (f : Troupe → Troupe) : (updTroupe s ck p f).regs = s.regs := rfl
@[simp] theorem updTroupe_cregs (s : State) (ck p : Nat) (f : Troupe → Troupe) : (updTroupe s ck p f).cregs = s.cregs := rfl
@[simp] theorem updTroupe_cregSeq (s : State) (ck p : Nat) (f : Troupe → Troupe) : (updTroupe s ck p f).cregSeq = s.cregSeq := rfl
@[simp] theorem updTroupe_cregLast (s : State) (ck p : Nat) (f : Troupe → Troupe) : (updTroupe s ck p f).cregLast = s.cregLast := rfl
@[simp] theorem updTroupe_timelines (s : State) (ck p : Nat) (f : Troupe → Troupe) : (updTroupe s ck p f).timelines = s.timelines := rfl
@[simp] theorem updTroupe_bins (s : State) (ck p : Nat) (f : Troupe → Troupe) : (updTroupe s ck p f).bins = s.bins := rfl
@[simp] theorem updTroupe_cores (s : State) (ck p : Nat) (f : Troupe → Troupe) : (updTroupe s ck p f).cores = s.cores := rfl
@[simp] theorem updTroupe_noteQueues (s : State) (ck p : Nat) (f : Troupe → Troupe) : (updTroupe s ck p f).noteQueues = s.noteQueues := rfl
@[simp] theorem updTroupe_cbs (s : State) (ck p : Nat) (f : Troupe → Troupe) : (updTroupe s ck p f).cbs = s.cbs := rfl
@[simp] theorem updTroupe_nextReq (s : State) (ck p : Nat) (f : Troupe → Troupe) : (updTroupe s ck p f).nextReq = s.nextReq := rfl
@[simp] theorem updTroupe_reqs (s : State) (ck p : Nat) (f : Troupe → Troupe) : (updTroupe s ck p f).reqs = s.reqs := rfl
@[simp] theorem updTroupe_fabOps (s : State) (ck p : Nat) (f : Troupe → Troupe) : (updTroupe s ck p f).fabOps = s.fabOps := rfl
@[simp] theorem updTroupe_imagesOut (s : State) (ck p : Nat) (f : Troupe → Troupe) : (updTroupe s ck p f).imagesOut = s.imagesOut := rfl
@[simp] theorem updTroupe_windows (s : State) (ck p : Nat) (f : Troupe → Troupe) : (updTroupe s ck p f).windows = s.windows := rfl
@[simp] theorem updTroupe_ports (s : State) (ck p : Nat) (f : Troupe → Troupe) : (updTroupe s ck p f).ports = s.ports := rfl
@[simp] theorem updTroupe_mats (s : State) (ck p : Nat) (f : Troupe → Troupe) : (updTroupe s ck p f).mats = s.mats := rfl
@[simp] theorem updTroupe_issueSeq (s : State) (ck p : Nat) (f : Troupe → Troupe) : (updTroupe s ck p f).issueSeq = s.issueSeq := rfl
@[simp] theorem updTroupe_issue (s : State) (ck p : Nat) (f : Troupe → Troupe) : (updTroupe s ck p f).issue = s.issue := rfl
@[simp] theorem updTroupe_hmem (s : State) (ck p : Nat) (f : Troupe → Troupe) : (updTroupe s ck p f).hmem = s.hmem := rfl
@[simp] theorem updTroupe_badHost (s : State) (ck p : Nat) (f : Troupe → Troupe) : (updTroupe s ck p f).badHost = s.badHost := rfl
@[simp] theorem updTroupe_irqs (s : State) (ck p : Nat) (f : Troupe → Troupe) : (updTroupe s ck p f).irqs = s.irqs := rfl
@[simp] theorem updTroupe_i3c (s : State) (ck p : Nat) (f : Troupe → Troupe) : (updTroupe s ck p f).i3c = s.i3c := rfl
@[simp] theorem updTroupe_hostOut (s : State) (ck p : Nat) (f : Troupe → Troupe) : (updTroupe s ck p f).hostOut = s.hostOut := rfl
@[simp] theorem updTroupe_free (s : State) (ck p : Nat) (f : Troupe → Troupe) : (updTroupe s ck p f).free = s.free := rfl
@[simp] theorem updTroupe_agenda (s : State) (ck p : Nat) (f : Troupe → Troupe) : (updTroupe s ck p f).agenda = s.agenda := rfl

/-! ## updCls -/

@[simp] theorem updCls_timebase (s : State) (ck : Nat) (f : Cls → Cls) : (updCls s ck f).timebase = s.timebase := rfl
@[simp] theorem updCls_mainMHz (s : State) (ck : Nat) (f : Cls → Cls) : (updCls s ck f).mainMHz = s.mainMHz := rfl
@[simp] theorem updCls_frozen (s : State) (ck : Nat) (f : Cls → Cls) : (updCls s ck f).frozen = s.frozen := rfl
@[simp] theorem updCls_freezePin (s : State) (ck : Nat) (f : Cls → Cls) : (updCls s ck f).freezePin = s.freezePin := rfl
@[simp] theorem updCls_hold (s : State) (ck : Nat) (f : Cls → Cls) : (updCls s ck f).hold = s.hold := rfl
@[simp] theorem updCls_port1Used (s : State) (ck : Nat) (f : Cls → Cls) : (updCls s ck f).port1Used = s.port1Used := rfl
@[simp] theorem updCls_linkUp0 (s : State) (ck : Nat) (f : Cls → Cls) : (updCls s ck f).linkUp0 = s.linkUp0 := rfl
@[simp] theorem updCls_linkUp1 (s : State) (ck : Nat) (f : Cls → Cls) : (updCls s ck f).linkUp1 = s.linkUp1 := rfl
@[simp] theorem updCls_duplicate (s : State) (ck : Nat) (f : Cls → Cls) : (updCls s ck f).duplicate = s.duplicate := rfl
@[simp] theorem updCls_errCorrected (s : State) (ck : Nat) (f : Cls → Cls) : (updCls s ck f).errCorrected = s.errCorrected := rfl
@[simp] theorem updCls_errUncorrected (s : State) (ck : Nat) (f : Cls → Cls) : (updCls s ck f).errUncorrected = s.errUncorrected := rfl
@[simp] theorem updCls_cfg (s : State) (ck : Nat) (f : Cls → Cls) : (updCls s ck f).cfg = s.cfg := rfl
@[simp] theorem updCls_cfgFlash (s : State) (ck : Nat) (f : Cls → Cls) : (updCls s ck f).cfgFlash = s.cfgFlash := rfl
@[simp] theorem updCls_fwVersion (s : State) (ck : Nat) (f : Cls → Cls) : (updCls s ck f).fwVersion = s.fwVersion := rfl
@[simp] theorem updCls_walkVersion (s : State) (ck : Nat) (f : Cls → Cls) : (updCls s ck f).walkVersion = s.walkVersion := rfl
@[simp] theorem updCls_routines (s : State) (ck : Nat) (f : Cls → Cls) : (updCls s ck f).routines = s.routines := rfl
@[simp] theorem updCls_coreMap (s : State) (ck : Nat) (f : Cls → Cls) : (updCls s ck f).coreMap = s.coreMap := rfl
@[simp] theorem updCls_retiredCores (s : State) (ck : Nat) (f : Cls → Cls) : (updCls s ck f).retiredCores = s.retiredCores := rfl
@[simp] theorem updCls_newImage (s : State) (ck : Nat) (f : Cls → Cls) : (updCls s ck f).newImage = s.newImage := rfl
@[simp] theorem updCls_vacant (s : State) (ck : Nat) (f : Cls → Cls) : (updCls s ck f).vacant = s.vacant := rfl
@[simp] theorem updCls_retiredChannels (s : State) (ck : Nat) (f : Cls → Cls) : (updCls s ck f).retiredChannels = s.retiredChannels := rfl
@[simp] theorem updCls_dvsec (s : State) (ck : Nat) (f : Cls → Cls) : (updCls s ck f).dvsec = s.dvsec := rfl
@[simp] theorem updCls_playbill (s : State) (ck : Nat) (f : Cls → Cls) : (updCls s ck f).playbill = s.playbill := rfl
@[simp] theorem updCls_hdmBase (s : State) (ck : Nat) (f : Cls → Cls) : (updCls s ck f).hdmBase = s.hdmBase := rfl
@[simp] theorem updCls_watch (s : State) (ck : Nat) (f : Cls → Cls) : (updCls s ck f).watch = s.watch := rfl
@[simp] theorem updCls_flags (s : State) (ck : Nat) (f : Cls → Cls) : (updCls s ck f).flags = s.flags := rfl
@[simp] theorem updCls_wake (s : State) (ck : Nat) (f : Cls → Cls) : (updCls s ck f).wake = s.wake := rfl
@[simp] theorem updCls_fullRead (s : State) (ck : Nat) (f : Cls → Cls) : (updCls s ck f).fullRead = s.fullRead := rfl
@[simp] theorem updCls_lastRev (s : State) (ck : Nat) (f : Cls → Cls) : (updCls s ck f).lastRev = s.lastRev := rfl
@[simp] theorem updCls_lastPassEnd (s : State) (ck : Nat) (f : Cls → Cls) : (updCls s ck f).lastPassEnd = s.lastPassEnd := rfl
@[simp] theorem updCls_mishap (s : State) (ck : Nat) (f : Cls → Cls) : (updCls s ck f).mishap = s.mishap := rfl
@[simp] theorem updCls_markSeq (s : State) (ck : Nat) (f : Cls → Cls) : (updCls s ck f).markSeq = s.markSeq := rfl
@[simp] theorem updCls_marksWritten (s : State) (ck : Nat) (f : Cls → Cls) : (updCls s ck f).marksWritten = s.marksWritten := rfl
@[simp] theorem updCls_book (s : State) (ck : Nat) (f : Cls → Cls) : (updCls s ck f).book = s.book := rfl
@[simp] theorem updCls_frames (s : State) (ck : Nat) (f : Cls → Cls) : (updCls s ck f).frames = s.frames := rfl
@[simp] theorem updCls_ctxs (s : State) (ck : Nat) (f : Cls → Cls) : (updCls s ck f).ctxs = s.ctxs := rfl
@[simp] theorem updCls_maps (s : State) (ck : Nat) (f : Cls → Cls) : (updCls s ck f).maps = s.maps := rfl
@[simp] theorem updCls_snaps (s : State) (ck : Nat) (f : Cls → Cls) : (updCls s ck f).snaps = s.snaps := rfl
@[simp] theorem updCls_reserved (s : State) (ck : Nat) (f : Cls → Cls) : (updCls s ck f).reserved = s.reserved := rfl
@[simp] theorem updCls_dmem (s : State) (ck : Nat) (f : Cls → Cls) : (updCls s ck f).dmem = s.dmem := rfl
@[simp] theorem updCls_scratch (s : State) (ck : Nat) (f : Cls → Cls) : (updCls s ck f).scratch = s.scratch := rfl
@[simp] theorem updCls_absent (s : State) (ck : Nat) (f : Cls → Cls) : (updCls s ck f).absent = s.absent := rfl
@[simp] theorem updCls_l1 (s : State) (ck : Nat) (f : Cls → Cls) : (updCls s ck f).l1 = s.l1 := rfl
@[simp] theorem updCls_rdc (s : State) (ck : Nat) (f : Cls → Cls) : (updCls s ck f).rdc = s.rdc := rfl
@[simp] theorem updCls_corePhase (s : State) (ck : Nat) (f : Cls → Cls) : (updCls s ck f).corePhase = s.corePhase := rfl
@[simp] theorem updCls_rdcPhase (s : State) (ck : Nat) (f : Cls → Cls) : (updCls s ck f).rdcPhase = s.rdcPhase := rfl
@[simp] theorem updCls_dirPred (s : State) (ck : Nat) (f : Cls → Cls) : (updCls s ck f).dirPred = s.dirPred := rfl
@[simp] theorem updCls_passing (s : State) (ck : Nat) (f : Cls → Cls) : (updCls s ck f).passing = s.passing := rfl
@[simp] theorem updCls_early (s : State) (ck : Nat) (f : Cls → Cls) : (updCls s ck f).early = s.early := rfl
@[simp] theorem updCls_lateStores (s : State) (ck : Nat) (f : Cls → Cls) : (updCls s ck f).lateStores = s.lateStores := rfl
@[simp] theorem updCls_lateLoads (s : State) (ck : Nat) (f : Cls → Cls) : (updCls s ck f).lateLoads = s.lateLoads := rfl
@[simp] theorem updCls_badDev (s : State) (ck : Nat) (f : Cls → Cls) : (updCls s ck f).badDev = s.badDev := rfl
@[simp] theorem updCls_badScratch (s : State) (ck : Nat) (f : Cls → Cls) : (updCls s ck f).badScratch = s.badScratch := rfl
@[simp] theorem updCls_badRegs (s : State) (ck : Nat) (f : Cls → Cls) : (updCls s ck f).badRegs = s.badRegs := rfl
@[simp] theorem updCls_biasHolders (s : State) (ck : Nat) (f : Cls → Cls) : (updCls s ck f).biasHolders = s.biasHolders := rfl
@[simp] theorem updCls_coreTlb (s : State) (ck : Nat) (f : Cls → Cls) : (updCls s ck f).coreTlb = s.coreTlb := rfl
@[simp] theorem updCls_dieTlb (s : State) (ck : Nat) (f : Cls → Cls) : (updCls s ck f).dieTlb = s.dieTlb := rfl
@[simp] theorem updCls_icache (s : State) (ck : Nat) (f : Cls → Cls) : (updCls s ck f).icache = s.icache := rfl
@[simp] theorem updCls_residents (s : State) (ck : Nat) (f : Cls → Cls) : (updCls s ck f).residents = s.residents := rfl
@[simp] theorem updCls_ushers (s : State) (ck : Nat) (f : Cls → Cls) : (updCls s ck f).ushers = s.ushers := rfl
@[simp] theorem updCls_placeSeq (s : State) (ck : Nat) (f : Cls → Cls) : (updCls s ck f).placeSeq = s.placeSeq := rfl
@[simp] theorem updCls_classes (s : State) (ck : Nat) (f : Cls → Cls) : (updCls s ck f).classes = tupd s.classes ck f := rfl
@[simp] theorem updCls_troupes (s : State) (ck : Nat) (f : Cls → Cls) : (updCls s ck f).troupes = s.troupes := rfl
@[simp] theorem updCls_threads (s : State) (ck : Nat) (f : Cls → Cls) : (updCls s ck f).threads = s.threads := rfl
@[simp] theorem updCls_ended (s : State) (ck : Nat) (f : Cls → Cls) : (updCls s ck f).ended = s.ended := rfl
@[simp] theorem updCls_regs (s : State) (ck : Nat) (f : Cls → Cls) : (updCls s ck f).regs = s.regs := rfl
@[simp] theorem updCls_cregs (s : State) (ck : Nat) (f : Cls → Cls) : (updCls s ck f).cregs = s.cregs := rfl
@[simp] theorem updCls_cregSeq (s : State) (ck : Nat) (f : Cls → Cls) : (updCls s ck f).cregSeq = s.cregSeq := rfl
@[simp] theorem updCls_cregLast (s : State) (ck : Nat) (f : Cls → Cls) : (updCls s ck f).cregLast = s.cregLast := rfl
@[simp] theorem updCls_timelines (s : State) (ck : Nat) (f : Cls → Cls) : (updCls s ck f).timelines = s.timelines := rfl
@[simp] theorem updCls_bins (s : State) (ck : Nat) (f : Cls → Cls) : (updCls s ck f).bins = s.bins := rfl
@[simp] theorem updCls_cores (s : State) (ck : Nat) (f : Cls → Cls) : (updCls s ck f).cores = s.cores := rfl
@[simp] theorem updCls_noteQueues (s : State) (ck : Nat) (f : Cls → Cls) : (updCls s ck f).noteQueues = s.noteQueues := rfl
@[simp] theorem updCls_cbs (s : State) (ck : Nat) (f : Cls → Cls) : (updCls s ck f).cbs = s.cbs := rfl
@[simp] theorem updCls_nextReq (s : State) (ck : Nat) (f : Cls → Cls) : (updCls s ck f).nextReq = s.nextReq := rfl
@[simp] theorem updCls_reqs (s : State) (ck : Nat) (f : Cls → Cls) : (updCls s ck f).reqs = s.reqs := rfl
@[simp] theorem updCls_fabOps (s : State) (ck : Nat) (f : Cls → Cls) : (updCls s ck f).fabOps = s.fabOps := rfl
@[simp] theorem updCls_imagesOut (s : State) (ck : Nat) (f : Cls → Cls) : (updCls s ck f).imagesOut = s.imagesOut := rfl
@[simp] theorem updCls_windows (s : State) (ck : Nat) (f : Cls → Cls) : (updCls s ck f).windows = s.windows := rfl
@[simp] theorem updCls_ports (s : State) (ck : Nat) (f : Cls → Cls) : (updCls s ck f).ports = s.ports := rfl
@[simp] theorem updCls_mats (s : State) (ck : Nat) (f : Cls → Cls) : (updCls s ck f).mats = s.mats := rfl
@[simp] theorem updCls_issueSeq (s : State) (ck : Nat) (f : Cls → Cls) : (updCls s ck f).issueSeq = s.issueSeq := rfl
@[simp] theorem updCls_issue (s : State) (ck : Nat) (f : Cls → Cls) : (updCls s ck f).issue = s.issue := rfl
@[simp] theorem updCls_hmem (s : State) (ck : Nat) (f : Cls → Cls) : (updCls s ck f).hmem = s.hmem := rfl
@[simp] theorem updCls_badHost (s : State) (ck : Nat) (f : Cls → Cls) : (updCls s ck f).badHost = s.badHost := rfl
@[simp] theorem updCls_irqs (s : State) (ck : Nat) (f : Cls → Cls) : (updCls s ck f).irqs = s.irqs := rfl
@[simp] theorem updCls_i3c (s : State) (ck : Nat) (f : Cls → Cls) : (updCls s ck f).i3c = s.i3c := rfl
@[simp] theorem updCls_hostOut (s : State) (ck : Nat) (f : Cls → Cls) : (updCls s ck f).hostOut = s.hostOut := rfl
@[simp] theorem updCls_free (s : State) (ck : Nat) (f : Cls → Cls) : (updCls s ck f).free = s.free := rfl
@[simp] theorem updCls_agenda (s : State) (ck : Nat) (f : Cls → Cls) : (updCls s ck f).agenda = s.agenda := rfl

/-! ## updResident -/

@[simp] theorem updResident_timebase (s : State) (rid : Nat) (f : Resident → Resident) : (updResident s rid f).timebase = s.timebase := rfl
@[simp] theorem updResident_mainMHz (s : State) (rid : Nat) (f : Resident → Resident) : (updResident s rid f).mainMHz = s.mainMHz := rfl
@[simp] theorem updResident_frozen (s : State) (rid : Nat) (f : Resident → Resident) : (updResident s rid f).frozen = s.frozen := rfl
@[simp] theorem updResident_freezePin (s : State) (rid : Nat) (f : Resident → Resident) : (updResident s rid f).freezePin = s.freezePin := rfl
@[simp] theorem updResident_hold (s : State) (rid : Nat) (f : Resident → Resident) : (updResident s rid f).hold = s.hold := rfl
@[simp] theorem updResident_port1Used (s : State) (rid : Nat) (f : Resident → Resident) : (updResident s rid f).port1Used = s.port1Used := rfl
@[simp] theorem updResident_linkUp0 (s : State) (rid : Nat) (f : Resident → Resident) : (updResident s rid f).linkUp0 = s.linkUp0 := rfl
@[simp] theorem updResident_linkUp1 (s : State) (rid : Nat) (f : Resident → Resident) : (updResident s rid f).linkUp1 = s.linkUp1 := rfl
@[simp] theorem updResident_duplicate (s : State) (rid : Nat) (f : Resident → Resident) : (updResident s rid f).duplicate = s.duplicate := rfl
@[simp] theorem updResident_errCorrected (s : State) (rid : Nat) (f : Resident → Resident) : (updResident s rid f).errCorrected = s.errCorrected := rfl
@[simp] theorem updResident_errUncorrected (s : State) (rid : Nat) (f : Resident → Resident) : (updResident s rid f).errUncorrected = s.errUncorrected := rfl
@[simp] theorem updResident_cfg (s : State) (rid : Nat) (f : Resident → Resident) : (updResident s rid f).cfg = s.cfg := rfl
@[simp] theorem updResident_cfgFlash (s : State) (rid : Nat) (f : Resident → Resident) : (updResident s rid f).cfgFlash = s.cfgFlash := rfl
@[simp] theorem updResident_fwVersion (s : State) (rid : Nat) (f : Resident → Resident) : (updResident s rid f).fwVersion = s.fwVersion := rfl
@[simp] theorem updResident_walkVersion (s : State) (rid : Nat) (f : Resident → Resident) : (updResident s rid f).walkVersion = s.walkVersion := rfl
@[simp] theorem updResident_routines (s : State) (rid : Nat) (f : Resident → Resident) : (updResident s rid f).routines = s.routines := rfl
@[simp] theorem updResident_coreMap (s : State) (rid : Nat) (f : Resident → Resident) : (updResident s rid f).coreMap = s.coreMap := rfl
@[simp] theorem updResident_retiredCores (s : State) (rid : Nat) (f : Resident → Resident) : (updResident s rid f).retiredCores = s.retiredCores := rfl
@[simp] theorem updResident_newImage (s : State) (rid : Nat) (f : Resident → Resident) : (updResident s rid f).newImage = s.newImage := rfl
@[simp] theorem updResident_vacant (s : State) (rid : Nat) (f : Resident → Resident) : (updResident s rid f).vacant = s.vacant := rfl
@[simp] theorem updResident_retiredChannels (s : State) (rid : Nat) (f : Resident → Resident) : (updResident s rid f).retiredChannels = s.retiredChannels := rfl
@[simp] theorem updResident_dvsec (s : State) (rid : Nat) (f : Resident → Resident) : (updResident s rid f).dvsec = s.dvsec := rfl
@[simp] theorem updResident_playbill (s : State) (rid : Nat) (f : Resident → Resident) : (updResident s rid f).playbill = s.playbill := rfl
@[simp] theorem updResident_hdmBase (s : State) (rid : Nat) (f : Resident → Resident) : (updResident s rid f).hdmBase = s.hdmBase := rfl
@[simp] theorem updResident_watch (s : State) (rid : Nat) (f : Resident → Resident) : (updResident s rid f).watch = s.watch := rfl
@[simp] theorem updResident_flags (s : State) (rid : Nat) (f : Resident → Resident) : (updResident s rid f).flags = s.flags := rfl
@[simp] theorem updResident_wake (s : State) (rid : Nat) (f : Resident → Resident) : (updResident s rid f).wake = s.wake := rfl
@[simp] theorem updResident_fullRead (s : State) (rid : Nat) (f : Resident → Resident) : (updResident s rid f).fullRead = s.fullRead := rfl
@[simp] theorem updResident_lastRev (s : State) (rid : Nat) (f : Resident → Resident) : (updResident s rid f).lastRev = s.lastRev := rfl
@[simp] theorem updResident_lastPassEnd (s : State) (rid : Nat) (f : Resident → Resident) : (updResident s rid f).lastPassEnd = s.lastPassEnd := rfl
@[simp] theorem updResident_mishap (s : State) (rid : Nat) (f : Resident → Resident) : (updResident s rid f).mishap = s.mishap := rfl
@[simp] theorem updResident_markSeq (s : State) (rid : Nat) (f : Resident → Resident) : (updResident s rid f).markSeq = s.markSeq := rfl
@[simp] theorem updResident_marksWritten (s : State) (rid : Nat) (f : Resident → Resident) : (updResident s rid f).marksWritten = s.marksWritten := rfl
@[simp] theorem updResident_book (s : State) (rid : Nat) (f : Resident → Resident) : (updResident s rid f).book = s.book := rfl
@[simp] theorem updResident_frames (s : State) (rid : Nat) (f : Resident → Resident) : (updResident s rid f).frames = s.frames := rfl
@[simp] theorem updResident_ctxs (s : State) (rid : Nat) (f : Resident → Resident) : (updResident s rid f).ctxs = s.ctxs := rfl
@[simp] theorem updResident_maps (s : State) (rid : Nat) (f : Resident → Resident) : (updResident s rid f).maps = s.maps := rfl
@[simp] theorem updResident_snaps (s : State) (rid : Nat) (f : Resident → Resident) : (updResident s rid f).snaps = s.snaps := rfl
@[simp] theorem updResident_reserved (s : State) (rid : Nat) (f : Resident → Resident) : (updResident s rid f).reserved = s.reserved := rfl
@[simp] theorem updResident_dmem (s : State) (rid : Nat) (f : Resident → Resident) : (updResident s rid f).dmem = s.dmem := rfl
@[simp] theorem updResident_scratch (s : State) (rid : Nat) (f : Resident → Resident) : (updResident s rid f).scratch = s.scratch := rfl
@[simp] theorem updResident_absent (s : State) (rid : Nat) (f : Resident → Resident) : (updResident s rid f).absent = s.absent := rfl
@[simp] theorem updResident_l1 (s : State) (rid : Nat) (f : Resident → Resident) : (updResident s rid f).l1 = s.l1 := rfl
@[simp] theorem updResident_rdc (s : State) (rid : Nat) (f : Resident → Resident) : (updResident s rid f).rdc = s.rdc := rfl
@[simp] theorem updResident_corePhase (s : State) (rid : Nat) (f : Resident → Resident) : (updResident s rid f).corePhase = s.corePhase := rfl
@[simp] theorem updResident_rdcPhase (s : State) (rid : Nat) (f : Resident → Resident) : (updResident s rid f).rdcPhase = s.rdcPhase := rfl
@[simp] theorem updResident_dirPred (s : State) (rid : Nat) (f : Resident → Resident) : (updResident s rid f).dirPred = s.dirPred := rfl
@[simp] theorem updResident_passing (s : State) (rid : Nat) (f : Resident → Resident) : (updResident s rid f).passing = s.passing := rfl
@[simp] theorem updResident_early (s : State) (rid : Nat) (f : Resident → Resident) : (updResident s rid f).early = s.early := rfl
@[simp] theorem updResident_lateStores (s : State) (rid : Nat) (f : Resident → Resident) : (updResident s rid f).lateStores = s.lateStores := rfl
@[simp] theorem updResident_lateLoads (s : State) (rid : Nat) (f : Resident → Resident) : (updResident s rid f).lateLoads = s.lateLoads := rfl
@[simp] theorem updResident_badDev (s : State) (rid : Nat) (f : Resident → Resident) : (updResident s rid f).badDev = s.badDev := rfl
@[simp] theorem updResident_badScratch (s : State) (rid : Nat) (f : Resident → Resident) : (updResident s rid f).badScratch = s.badScratch := rfl
@[simp] theorem updResident_badRegs (s : State) (rid : Nat) (f : Resident → Resident) : (updResident s rid f).badRegs = s.badRegs := rfl
@[simp] theorem updResident_biasHolders (s : State) (rid : Nat) (f : Resident → Resident) : (updResident s rid f).biasHolders = s.biasHolders := rfl
@[simp] theorem updResident_coreTlb (s : State) (rid : Nat) (f : Resident → Resident) : (updResident s rid f).coreTlb = s.coreTlb := rfl
@[simp] theorem updResident_dieTlb (s : State) (rid : Nat) (f : Resident → Resident) : (updResident s rid f).dieTlb = s.dieTlb := rfl
@[simp] theorem updResident_icache (s : State) (rid : Nat) (f : Resident → Resident) : (updResident s rid f).icache = s.icache := rfl
@[simp] theorem updResident_residents (s : State) (rid : Nat) (f : Resident → Resident) : (updResident s rid f).residents = tupd s.residents rid f := rfl
@[simp] theorem updResident_ushers (s : State) (rid : Nat) (f : Resident → Resident) : (updResident s rid f).ushers = s.ushers := rfl
@[simp] theorem updResident_placeSeq (s : State) (rid : Nat) (f : Resident → Resident) : (updResident s rid f).placeSeq = s.placeSeq := rfl
@[simp] theorem updResident_classes (s : State) (rid : Nat) (f : Resident → Resident) : (updResident s rid f).classes = s.classes := rfl
@[simp] theorem updResident_troupes (s : State) (rid : Nat) (f : Resident → Resident) : (updResident s rid f).troupes = s.troupes := rfl
@[simp] theorem updResident_threads (s : State) (rid : Nat) (f : Resident → Resident) : (updResident s rid f).threads = s.threads := rfl
@[simp] theorem updResident_ended (s : State) (rid : Nat) (f : Resident → Resident) : (updResident s rid f).ended = s.ended := rfl
@[simp] theorem updResident_regs (s : State) (rid : Nat) (f : Resident → Resident) : (updResident s rid f).regs = s.regs := rfl
@[simp] theorem updResident_cregs (s : State) (rid : Nat) (f : Resident → Resident) : (updResident s rid f).cregs = s.cregs := rfl
@[simp] theorem updResident_cregSeq (s : State) (rid : Nat) (f : Resident → Resident) : (updResident s rid f).cregSeq = s.cregSeq := rfl
@[simp] theorem updResident_cregLast (s : State) (rid : Nat) (f : Resident → Resident) : (updResident s rid f).cregLast = s.cregLast := rfl
@[simp] theorem updResident_timelines (s : State) (rid : Nat) (f : Resident → Resident) : (updResident s rid f).timelines = s.timelines := rfl
@[simp] theorem updResident_bins (s : State) (rid : Nat) (f : Resident → Resident) : (updResident s rid f).bins = s.bins := rfl
@[simp] theorem updResident_cores (s : State) (rid : Nat) (f : Resident → Resident) : (updResident s rid f).cores = s.cores := rfl
@[simp] theorem updResident_noteQueues (s : State) (rid : Nat) (f : Resident → Resident) : (updResident s rid f).noteQueues = s.noteQueues := rfl
@[simp] theorem updResident_cbs (s : State) (rid : Nat) (f : Resident → Resident) : (updResident s rid f).cbs = s.cbs := rfl
@[simp] theorem updResident_nextReq (s : State) (rid : Nat) (f : Resident → Resident) : (updResident s rid f).nextReq = s.nextReq := rfl
@[simp] theorem updResident_reqs (s : State) (rid : Nat) (f : Resident → Resident) : (updResident s rid f).reqs = s.reqs := rfl
@[simp] theorem updResident_fabOps (s : State) (rid : Nat) (f : Resident → Resident) : (updResident s rid f).fabOps = s.fabOps := rfl
@[simp] theorem updResident_imagesOut (s : State) (rid : Nat) (f : Resident → Resident) : (updResident s rid f).imagesOut = s.imagesOut := rfl
@[simp] theorem updResident_windows (s : State) (rid : Nat) (f : Resident → Resident) : (updResident s rid f).windows = s.windows := rfl
@[simp] theorem updResident_ports (s : State) (rid : Nat) (f : Resident → Resident) : (updResident s rid f).ports = s.ports := rfl
@[simp] theorem updResident_mats (s : State) (rid : Nat) (f : Resident → Resident) : (updResident s rid f).mats = s.mats := rfl
@[simp] theorem updResident_issueSeq (s : State) (rid : Nat) (f : Resident → Resident) : (updResident s rid f).issueSeq = s.issueSeq := rfl
@[simp] theorem updResident_issue (s : State) (rid : Nat) (f : Resident → Resident) : (updResident s rid f).issue = s.issue := rfl
@[simp] theorem updResident_hmem (s : State) (rid : Nat) (f : Resident → Resident) : (updResident s rid f).hmem = s.hmem := rfl
@[simp] theorem updResident_badHost (s : State) (rid : Nat) (f : Resident → Resident) : (updResident s rid f).badHost = s.badHost := rfl
@[simp] theorem updResident_irqs (s : State) (rid : Nat) (f : Resident → Resident) : (updResident s rid f).irqs = s.irqs := rfl
@[simp] theorem updResident_i3c (s : State) (rid : Nat) (f : Resident → Resident) : (updResident s rid f).i3c = s.i3c := rfl
@[simp] theorem updResident_hostOut (s : State) (rid : Nat) (f : Resident → Resident) : (updResident s rid f).hostOut = s.hostOut := rfl
@[simp] theorem updResident_free (s : State) (rid : Nat) (f : Resident → Resident) : (updResident s rid f).free = s.free := rfl
@[simp] theorem updResident_agenda (s : State) (rid : Nat) (f : Resident → Resident) : (updResident s rid f).agenda = s.agenda := rfl

/-! ## updUsher -/

@[simp] theorem updUsher_timebase (s : State) (die : Nat) (f : Usher → Usher) : (updUsher s die f).timebase = s.timebase := rfl
@[simp] theorem updUsher_mainMHz (s : State) (die : Nat) (f : Usher → Usher) : (updUsher s die f).mainMHz = s.mainMHz := rfl
@[simp] theorem updUsher_frozen (s : State) (die : Nat) (f : Usher → Usher) : (updUsher s die f).frozen = s.frozen := rfl
@[simp] theorem updUsher_freezePin (s : State) (die : Nat) (f : Usher → Usher) : (updUsher s die f).freezePin = s.freezePin := rfl
@[simp] theorem updUsher_hold (s : State) (die : Nat) (f : Usher → Usher) : (updUsher s die f).hold = s.hold := rfl
@[simp] theorem updUsher_port1Used (s : State) (die : Nat) (f : Usher → Usher) : (updUsher s die f).port1Used = s.port1Used := rfl
@[simp] theorem updUsher_linkUp0 (s : State) (die : Nat) (f : Usher → Usher) : (updUsher s die f).linkUp0 = s.linkUp0 := rfl
@[simp] theorem updUsher_linkUp1 (s : State) (die : Nat) (f : Usher → Usher) : (updUsher s die f).linkUp1 = s.linkUp1 := rfl
@[simp] theorem updUsher_duplicate (s : State) (die : Nat) (f : Usher → Usher) : (updUsher s die f).duplicate = s.duplicate := rfl
@[simp] theorem updUsher_errCorrected (s : State) (die : Nat) (f : Usher → Usher) : (updUsher s die f).errCorrected = s.errCorrected := rfl
@[simp] theorem updUsher_errUncorrected (s : State) (die : Nat) (f : Usher → Usher) : (updUsher s die f).errUncorrected = s.errUncorrected := rfl
@[simp] theorem updUsher_cfg (s : State) (die : Nat) (f : Usher → Usher) : (updUsher s die f).cfg = s.cfg := rfl
@[simp] theorem updUsher_cfgFlash (s : State) (die : Nat) (f : Usher → Usher) : (updUsher s die f).cfgFlash = s.cfgFlash := rfl
@[simp] theorem updUsher_fwVersion (s : State) (die : Nat) (f : Usher → Usher) : (updUsher s die f).fwVersion = s.fwVersion := rfl
@[simp] theorem updUsher_walkVersion (s : State) (die : Nat) (f : Usher → Usher) : (updUsher s die f).walkVersion = s.walkVersion := rfl
@[simp] theorem updUsher_routines (s : State) (die : Nat) (f : Usher → Usher) : (updUsher s die f).routines = s.routines := rfl
@[simp] theorem updUsher_coreMap (s : State) (die : Nat) (f : Usher → Usher) : (updUsher s die f).coreMap = s.coreMap := rfl
@[simp] theorem updUsher_retiredCores (s : State) (die : Nat) (f : Usher → Usher) : (updUsher s die f).retiredCores = s.retiredCores := rfl
@[simp] theorem updUsher_newImage (s : State) (die : Nat) (f : Usher → Usher) : (updUsher s die f).newImage = s.newImage := rfl
@[simp] theorem updUsher_vacant (s : State) (die : Nat) (f : Usher → Usher) : (updUsher s die f).vacant = s.vacant := rfl
@[simp] theorem updUsher_retiredChannels (s : State) (die : Nat) (f : Usher → Usher) : (updUsher s die f).retiredChannels = s.retiredChannels := rfl
@[simp] theorem updUsher_dvsec (s : State) (die : Nat) (f : Usher → Usher) : (updUsher s die f).dvsec = s.dvsec := rfl
@[simp] theorem updUsher_playbill (s : State) (die : Nat) (f : Usher → Usher) : (updUsher s die f).playbill = s.playbill := rfl
@[simp] theorem updUsher_hdmBase (s : State) (die : Nat) (f : Usher → Usher) : (updUsher s die f).hdmBase = s.hdmBase := rfl
@[simp] theorem updUsher_watch (s : State) (die : Nat) (f : Usher → Usher) : (updUsher s die f).watch = s.watch := rfl
@[simp] theorem updUsher_flags (s : State) (die : Nat) (f : Usher → Usher) : (updUsher s die f).flags = s.flags := rfl
@[simp] theorem updUsher_wake (s : State) (die : Nat) (f : Usher → Usher) : (updUsher s die f).wake = s.wake := rfl
@[simp] theorem updUsher_fullRead (s : State) (die : Nat) (f : Usher → Usher) : (updUsher s die f).fullRead = s.fullRead := rfl
@[simp] theorem updUsher_lastRev (s : State) (die : Nat) (f : Usher → Usher) : (updUsher s die f).lastRev = s.lastRev := rfl
@[simp] theorem updUsher_lastPassEnd (s : State) (die : Nat) (f : Usher → Usher) : (updUsher s die f).lastPassEnd = s.lastPassEnd := rfl
@[simp] theorem updUsher_mishap (s : State) (die : Nat) (f : Usher → Usher) : (updUsher s die f).mishap = s.mishap := rfl
@[simp] theorem updUsher_markSeq (s : State) (die : Nat) (f : Usher → Usher) : (updUsher s die f).markSeq = s.markSeq := rfl
@[simp] theorem updUsher_marksWritten (s : State) (die : Nat) (f : Usher → Usher) : (updUsher s die f).marksWritten = s.marksWritten := rfl
@[simp] theorem updUsher_book (s : State) (die : Nat) (f : Usher → Usher) : (updUsher s die f).book = s.book := rfl
@[simp] theorem updUsher_frames (s : State) (die : Nat) (f : Usher → Usher) : (updUsher s die f).frames = s.frames := rfl
@[simp] theorem updUsher_ctxs (s : State) (die : Nat) (f : Usher → Usher) : (updUsher s die f).ctxs = s.ctxs := rfl
@[simp] theorem updUsher_maps (s : State) (die : Nat) (f : Usher → Usher) : (updUsher s die f).maps = s.maps := rfl
@[simp] theorem updUsher_snaps (s : State) (die : Nat) (f : Usher → Usher) : (updUsher s die f).snaps = s.snaps := rfl
@[simp] theorem updUsher_reserved (s : State) (die : Nat) (f : Usher → Usher) : (updUsher s die f).reserved = s.reserved := rfl
@[simp] theorem updUsher_dmem (s : State) (die : Nat) (f : Usher → Usher) : (updUsher s die f).dmem = s.dmem := rfl
@[simp] theorem updUsher_scratch (s : State) (die : Nat) (f : Usher → Usher) : (updUsher s die f).scratch = s.scratch := rfl
@[simp] theorem updUsher_absent (s : State) (die : Nat) (f : Usher → Usher) : (updUsher s die f).absent = s.absent := rfl
@[simp] theorem updUsher_l1 (s : State) (die : Nat) (f : Usher → Usher) : (updUsher s die f).l1 = s.l1 := rfl
@[simp] theorem updUsher_rdc (s : State) (die : Nat) (f : Usher → Usher) : (updUsher s die f).rdc = s.rdc := rfl
@[simp] theorem updUsher_corePhase (s : State) (die : Nat) (f : Usher → Usher) : (updUsher s die f).corePhase = s.corePhase := rfl
@[simp] theorem updUsher_rdcPhase (s : State) (die : Nat) (f : Usher → Usher) : (updUsher s die f).rdcPhase = s.rdcPhase := rfl
@[simp] theorem updUsher_dirPred (s : State) (die : Nat) (f : Usher → Usher) : (updUsher s die f).dirPred = s.dirPred := rfl
@[simp] theorem updUsher_passing (s : State) (die : Nat) (f : Usher → Usher) : (updUsher s die f).passing = s.passing := rfl
@[simp] theorem updUsher_early (s : State) (die : Nat) (f : Usher → Usher) : (updUsher s die f).early = s.early := rfl
@[simp] theorem updUsher_lateStores (s : State) (die : Nat) (f : Usher → Usher) : (updUsher s die f).lateStores = s.lateStores := rfl
@[simp] theorem updUsher_lateLoads (s : State) (die : Nat) (f : Usher → Usher) : (updUsher s die f).lateLoads = s.lateLoads := rfl
@[simp] theorem updUsher_badDev (s : State) (die : Nat) (f : Usher → Usher) : (updUsher s die f).badDev = s.badDev := rfl
@[simp] theorem updUsher_badScratch (s : State) (die : Nat) (f : Usher → Usher) : (updUsher s die f).badScratch = s.badScratch := rfl
@[simp] theorem updUsher_badRegs (s : State) (die : Nat) (f : Usher → Usher) : (updUsher s die f).badRegs = s.badRegs := rfl
@[simp] theorem updUsher_biasHolders (s : State) (die : Nat) (f : Usher → Usher) : (updUsher s die f).biasHolders = s.biasHolders := rfl
@[simp] theorem updUsher_coreTlb (s : State) (die : Nat) (f : Usher → Usher) : (updUsher s die f).coreTlb = s.coreTlb := rfl
@[simp] theorem updUsher_dieTlb (s : State) (die : Nat) (f : Usher → Usher) : (updUsher s die f).dieTlb = s.dieTlb := rfl
@[simp] theorem updUsher_icache (s : State) (die : Nat) (f : Usher → Usher) : (updUsher s die f).icache = s.icache := rfl
@[simp] theorem updUsher_residents (s : State) (die : Nat) (f : Usher → Usher) : (updUsher s die f).residents = s.residents := rfl
@[simp] theorem updUsher_ushers (s : State) (die : Nat) (f : Usher → Usher) : (updUsher s die f).ushers = tput s.ushers die (f (usherAt s die)) := rfl
@[simp] theorem updUsher_placeSeq (s : State) (die : Nat) (f : Usher → Usher) : (updUsher s die f).placeSeq = s.placeSeq := rfl
@[simp] theorem updUsher_classes (s : State) (die : Nat) (f : Usher → Usher) : (updUsher s die f).classes = s.classes := rfl
@[simp] theorem updUsher_troupes (s : State) (die : Nat) (f : Usher → Usher) : (updUsher s die f).troupes = s.troupes := rfl
@[simp] theorem updUsher_threads (s : State) (die : Nat) (f : Usher → Usher) : (updUsher s die f).threads = s.threads := rfl
@[simp] theorem updUsher_ended (s : State) (die : Nat) (f : Usher → Usher) : (updUsher s die f).ended = s.ended := rfl
@[simp] theorem updUsher_regs (s : State) (die : Nat) (f : Usher → Usher) : (updUsher s die f).regs = s.regs := rfl
@[simp] theorem updUsher_cregs (s : State) (die : Nat) (f : Usher → Usher) : (updUsher s die f).cregs = s.cregs := rfl
@[simp] theorem updUsher_cregSeq (s : State) (die : Nat) (f : Usher → Usher) : (updUsher s die f).cregSeq = s.cregSeq := rfl
@[simp] theorem updUsher_cregLast (s : State) (die : Nat) (f : Usher → Usher) : (updUsher s die f).cregLast = s.cregLast := rfl
@[simp] theorem updUsher_timelines (s : State) (die : Nat) (f : Usher → Usher) : (updUsher s die f).timelines = s.timelines := rfl
@[simp] theorem updUsher_bins (s : State) (die : Nat) (f : Usher → Usher) : (updUsher s die f).bins = s.bins := rfl
@[simp] theorem updUsher_cores (s : State) (die : Nat) (f : Usher → Usher) : (updUsher s die f).cores = s.cores := rfl
@[simp] theorem updUsher_noteQueues (s : State) (die : Nat) (f : Usher → Usher) : (updUsher s die f).noteQueues = s.noteQueues := rfl
@[simp] theorem updUsher_cbs (s : State) (die : Nat) (f : Usher → Usher) : (updUsher s die f).cbs = s.cbs := rfl
@[simp] theorem updUsher_nextReq (s : State) (die : Nat) (f : Usher → Usher) : (updUsher s die f).nextReq = s.nextReq := rfl
@[simp] theorem updUsher_reqs (s : State) (die : Nat) (f : Usher → Usher) : (updUsher s die f).reqs = s.reqs := rfl
@[simp] theorem updUsher_fabOps (s : State) (die : Nat) (f : Usher → Usher) : (updUsher s die f).fabOps = s.fabOps := rfl
@[simp] theorem updUsher_imagesOut (s : State) (die : Nat) (f : Usher → Usher) : (updUsher s die f).imagesOut = s.imagesOut := rfl
@[simp] theorem updUsher_windows (s : State) (die : Nat) (f : Usher → Usher) : (updUsher s die f).windows = s.windows := rfl
@[simp] theorem updUsher_ports (s : State) (die : Nat) (f : Usher → Usher) : (updUsher s die f).ports = s.ports := rfl
@[simp] theorem updUsher_mats (s : State) (die : Nat) (f : Usher → Usher) : (updUsher s die f).mats = s.mats := rfl
@[simp] theorem updUsher_issueSeq (s : State) (die : Nat) (f : Usher → Usher) : (updUsher s die f).issueSeq = s.issueSeq := rfl
@[simp] theorem updUsher_issue (s : State) (die : Nat) (f : Usher → Usher) : (updUsher s die f).issue = s.issue := rfl
@[simp] theorem updUsher_hmem (s : State) (die : Nat) (f : Usher → Usher) : (updUsher s die f).hmem = s.hmem := rfl
@[simp] theorem updUsher_badHost (s : State) (die : Nat) (f : Usher → Usher) : (updUsher s die f).badHost = s.badHost := rfl
@[simp] theorem updUsher_irqs (s : State) (die : Nat) (f : Usher → Usher) : (updUsher s die f).irqs = s.irqs := rfl
@[simp] theorem updUsher_i3c (s : State) (die : Nat) (f : Usher → Usher) : (updUsher s die f).i3c = s.i3c := rfl
@[simp] theorem updUsher_hostOut (s : State) (die : Nat) (f : Usher → Usher) : (updUsher s die f).hostOut = s.hostOut := rfl
@[simp] theorem updUsher_free (s : State) (die : Nat) (f : Usher → Usher) : (updUsher s die f).free = s.free := rfl
@[simp] theorem updUsher_agenda (s : State) (die : Nat) (f : Usher → Usher) : (updUsher s die f).agenda = s.agenda := rfl

/-! ## setTimeline -/

@[simp] theorem setTimeline_timebase (s : State) (ck n : Nat) (v : Timeline) : (setTimeline s ck n v).timebase = s.timebase := rfl
@[simp] theorem setTimeline_mainMHz (s : State) (ck n : Nat) (v : Timeline) : (setTimeline s ck n v).mainMHz = s.mainMHz := rfl
@[simp] theorem setTimeline_frozen (s : State) (ck n : Nat) (v : Timeline) : (setTimeline s ck n v).frozen = s.frozen := rfl
@[simp] theorem setTimeline_freezePin (s : State) (ck n : Nat) (v : Timeline) : (setTimeline s ck n v).freezePin = s.freezePin := rfl
@[simp] theorem setTimeline_hold (s : State) (ck n : Nat) (v : Timeline) : (setTimeline s ck n v).hold = s.hold := rfl
@[simp] theorem setTimeline_port1Used (s : State) (ck n : Nat) (v : Timeline) : (setTimeline s ck n v).port1Used = s.port1Used := rfl
@[simp] theorem setTimeline_linkUp0 (s : State) (ck n : Nat) (v : Timeline) : (setTimeline s ck n v).linkUp0 = s.linkUp0 := rfl
@[simp] theorem setTimeline_linkUp1 (s : State) (ck n : Nat) (v : Timeline) : (setTimeline s ck n v).linkUp1 = s.linkUp1 := rfl
@[simp] theorem setTimeline_duplicate (s : State) (ck n : Nat) (v : Timeline) : (setTimeline s ck n v).duplicate = s.duplicate := rfl
@[simp] theorem setTimeline_errCorrected (s : State) (ck n : Nat) (v : Timeline) : (setTimeline s ck n v).errCorrected = s.errCorrected := rfl
@[simp] theorem setTimeline_errUncorrected (s : State) (ck n : Nat) (v : Timeline) : (setTimeline s ck n v).errUncorrected = s.errUncorrected := rfl
@[simp] theorem setTimeline_cfg (s : State) (ck n : Nat) (v : Timeline) : (setTimeline s ck n v).cfg = s.cfg := rfl
@[simp] theorem setTimeline_cfgFlash (s : State) (ck n : Nat) (v : Timeline) : (setTimeline s ck n v).cfgFlash = s.cfgFlash := rfl
@[simp] theorem setTimeline_fwVersion (s : State) (ck n : Nat) (v : Timeline) : (setTimeline s ck n v).fwVersion = s.fwVersion := rfl
@[simp] theorem setTimeline_walkVersion (s : State) (ck n : Nat) (v : Timeline) : (setTimeline s ck n v).walkVersion = s.walkVersion := rfl
@[simp] theorem setTimeline_routines (s : State) (ck n : Nat) (v : Timeline) : (setTimeline s ck n v).routines = s.routines := rfl
@[simp] theorem setTimeline_coreMap (s : State) (ck n : Nat) (v : Timeline) : (setTimeline s ck n v).coreMap = s.coreMap := rfl
@[simp] theorem setTimeline_retiredCores (s : State) (ck n : Nat) (v : Timeline) : (setTimeline s ck n v).retiredCores = s.retiredCores := rfl
@[simp] theorem setTimeline_newImage (s : State) (ck n : Nat) (v : Timeline) : (setTimeline s ck n v).newImage = s.newImage := rfl
@[simp] theorem setTimeline_vacant (s : State) (ck n : Nat) (v : Timeline) : (setTimeline s ck n v).vacant = s.vacant := rfl
@[simp] theorem setTimeline_retiredChannels (s : State) (ck n : Nat) (v : Timeline) : (setTimeline s ck n v).retiredChannels = s.retiredChannels := rfl
@[simp] theorem setTimeline_dvsec (s : State) (ck n : Nat) (v : Timeline) : (setTimeline s ck n v).dvsec = s.dvsec := rfl
@[simp] theorem setTimeline_playbill (s : State) (ck n : Nat) (v : Timeline) : (setTimeline s ck n v).playbill = s.playbill := rfl
@[simp] theorem setTimeline_hdmBase (s : State) (ck n : Nat) (v : Timeline) : (setTimeline s ck n v).hdmBase = s.hdmBase := rfl
@[simp] theorem setTimeline_watch (s : State) (ck n : Nat) (v : Timeline) : (setTimeline s ck n v).watch = s.watch := rfl
@[simp] theorem setTimeline_flags (s : State) (ck n : Nat) (v : Timeline) : (setTimeline s ck n v).flags = s.flags := rfl
@[simp] theorem setTimeline_wake (s : State) (ck n : Nat) (v : Timeline) : (setTimeline s ck n v).wake = s.wake := rfl
@[simp] theorem setTimeline_fullRead (s : State) (ck n : Nat) (v : Timeline) : (setTimeline s ck n v).fullRead = s.fullRead := rfl
@[simp] theorem setTimeline_lastRev (s : State) (ck n : Nat) (v : Timeline) : (setTimeline s ck n v).lastRev = s.lastRev := rfl
@[simp] theorem setTimeline_lastPassEnd (s : State) (ck n : Nat) (v : Timeline) : (setTimeline s ck n v).lastPassEnd = s.lastPassEnd := rfl
@[simp] theorem setTimeline_mishap (s : State) (ck n : Nat) (v : Timeline) : (setTimeline s ck n v).mishap = s.mishap := rfl
@[simp] theorem setTimeline_markSeq (s : State) (ck n : Nat) (v : Timeline) : (setTimeline s ck n v).markSeq = s.markSeq := rfl
@[simp] theorem setTimeline_marksWritten (s : State) (ck n : Nat) (v : Timeline) : (setTimeline s ck n v).marksWritten = s.marksWritten := rfl
@[simp] theorem setTimeline_book (s : State) (ck n : Nat) (v : Timeline) : (setTimeline s ck n v).book = s.book := rfl
@[simp] theorem setTimeline_frames (s : State) (ck n : Nat) (v : Timeline) : (setTimeline s ck n v).frames = s.frames := rfl
@[simp] theorem setTimeline_ctxs (s : State) (ck n : Nat) (v : Timeline) : (setTimeline s ck n v).ctxs = s.ctxs := rfl
@[simp] theorem setTimeline_maps (s : State) (ck n : Nat) (v : Timeline) : (setTimeline s ck n v).maps = s.maps := rfl
@[simp] theorem setTimeline_snaps (s : State) (ck n : Nat) (v : Timeline) : (setTimeline s ck n v).snaps = s.snaps := rfl
@[simp] theorem setTimeline_reserved (s : State) (ck n : Nat) (v : Timeline) : (setTimeline s ck n v).reserved = s.reserved := rfl
@[simp] theorem setTimeline_dmem (s : State) (ck n : Nat) (v : Timeline) : (setTimeline s ck n v).dmem = s.dmem := rfl
@[simp] theorem setTimeline_scratch (s : State) (ck n : Nat) (v : Timeline) : (setTimeline s ck n v).scratch = s.scratch := rfl
@[simp] theorem setTimeline_absent (s : State) (ck n : Nat) (v : Timeline) : (setTimeline s ck n v).absent = s.absent := rfl
@[simp] theorem setTimeline_l1 (s : State) (ck n : Nat) (v : Timeline) : (setTimeline s ck n v).l1 = s.l1 := rfl
@[simp] theorem setTimeline_rdc (s : State) (ck n : Nat) (v : Timeline) : (setTimeline s ck n v).rdc = s.rdc := rfl
@[simp] theorem setTimeline_corePhase (s : State) (ck n : Nat) (v : Timeline) : (setTimeline s ck n v).corePhase = s.corePhase := rfl
@[simp] theorem setTimeline_rdcPhase (s : State) (ck n : Nat) (v : Timeline) : (setTimeline s ck n v).rdcPhase = s.rdcPhase := rfl
@[simp] theorem setTimeline_dirPred (s : State) (ck n : Nat) (v : Timeline) : (setTimeline s ck n v).dirPred = s.dirPred := rfl
@[simp] theorem setTimeline_passing (s : State) (ck n : Nat) (v : Timeline) : (setTimeline s ck n v).passing = s.passing := rfl
@[simp] theorem setTimeline_early (s : State) (ck n : Nat) (v : Timeline) : (setTimeline s ck n v).early = s.early := rfl
@[simp] theorem setTimeline_lateStores (s : State) (ck n : Nat) (v : Timeline) : (setTimeline s ck n v).lateStores = s.lateStores := rfl
@[simp] theorem setTimeline_lateLoads (s : State) (ck n : Nat) (v : Timeline) : (setTimeline s ck n v).lateLoads = s.lateLoads := rfl
@[simp] theorem setTimeline_badDev (s : State) (ck n : Nat) (v : Timeline) : (setTimeline s ck n v).badDev = s.badDev := rfl
@[simp] theorem setTimeline_badScratch (s : State) (ck n : Nat) (v : Timeline) : (setTimeline s ck n v).badScratch = s.badScratch := rfl
@[simp] theorem setTimeline_badRegs (s : State) (ck n : Nat) (v : Timeline) : (setTimeline s ck n v).badRegs = s.badRegs := rfl
@[simp] theorem setTimeline_biasHolders (s : State) (ck n : Nat) (v : Timeline) : (setTimeline s ck n v).biasHolders = s.biasHolders := rfl
@[simp] theorem setTimeline_coreTlb (s : State) (ck n : Nat) (v : Timeline) : (setTimeline s ck n v).coreTlb = s.coreTlb := rfl
@[simp] theorem setTimeline_dieTlb (s : State) (ck n : Nat) (v : Timeline) : (setTimeline s ck n v).dieTlb = s.dieTlb := rfl
@[simp] theorem setTimeline_icache (s : State) (ck n : Nat) (v : Timeline) : (setTimeline s ck n v).icache = s.icache := rfl
@[simp] theorem setTimeline_residents (s : State) (ck n : Nat) (v : Timeline) : (setTimeline s ck n v).residents = s.residents := rfl
@[simp] theorem setTimeline_ushers (s : State) (ck n : Nat) (v : Timeline) : (setTimeline s ck n v).ushers = s.ushers := rfl
@[simp] theorem setTimeline_placeSeq (s : State) (ck n : Nat) (v : Timeline) : (setTimeline s ck n v).placeSeq = s.placeSeq := rfl
@[simp] theorem setTimeline_classes (s : State) (ck n : Nat) (v : Timeline) : (setTimeline s ck n v).classes = s.classes := rfl
@[simp] theorem setTimeline_troupes (s : State) (ck n : Nat) (v : Timeline) : (setTimeline s ck n v).troupes = s.troupes := rfl
@[simp] theorem setTimeline_threads (s : State) (ck n : Nat) (v : Timeline) : (setTimeline s ck n v).threads = s.threads := rfl
@[simp] theorem setTimeline_ended (s : State) (ck n : Nat) (v : Timeline) : (setTimeline s ck n v).ended = s.ended := rfl
@[simp] theorem setTimeline_regs (s : State) (ck n : Nat) (v : Timeline) : (setTimeline s ck n v).regs = s.regs := rfl
@[simp] theorem setTimeline_cregs (s : State) (ck n : Nat) (v : Timeline) : (setTimeline s ck n v).cregs = s.cregs := rfl
@[simp] theorem setTimeline_cregSeq (s : State) (ck n : Nat) (v : Timeline) : (setTimeline s ck n v).cregSeq = s.cregSeq := rfl
@[simp] theorem setTimeline_cregLast (s : State) (ck n : Nat) (v : Timeline) : (setTimeline s ck n v).cregLast = s.cregLast := rfl
@[simp] theorem setTimeline_timelines (s : State) (ck n : Nat) (v : Timeline) : (setTimeline s ck n v).timelines = tset Timeline.blank s.timelines (ck * 8 + n) v := rfl
@[simp] theorem setTimeline_bins (s : State) (ck n : Nat) (v : Timeline) : (setTimeline s ck n v).bins = s.bins := rfl
@[simp] theorem setTimeline_cores (s : State) (ck n : Nat) (v : Timeline) : (setTimeline s ck n v).cores = s.cores := rfl
@[simp] theorem setTimeline_noteQueues (s : State) (ck n : Nat) (v : Timeline) : (setTimeline s ck n v).noteQueues = s.noteQueues := rfl
@[simp] theorem setTimeline_cbs (s : State) (ck n : Nat) (v : Timeline) : (setTimeline s ck n v).cbs = s.cbs := rfl
@[simp] theorem setTimeline_nextReq (s : State) (ck n : Nat) (v : Timeline) : (setTimeline s ck n v).nextReq = s.nextReq := rfl
@[simp] theorem setTimeline_reqs (s : State) (ck n : Nat) (v : Timeline) : (setTimeline s ck n v).reqs = s.reqs := rfl
@[simp] theorem setTimeline_fabOps (s : State) (ck n : Nat) (v : Timeline) : (setTimeline s ck n v).fabOps = s.fabOps := rfl
@[simp] theorem setTimeline_imagesOut (s : State) (ck n : Nat) (v : Timeline) : (setTimeline s ck n v).imagesOut = s.imagesOut := rfl
@[simp] theorem setTimeline_windows (s : State) (ck n : Nat) (v : Timeline) : (setTimeline s ck n v).windows = s.windows := rfl
@[simp] theorem setTimeline_ports (s : State) (ck n : Nat) (v : Timeline) : (setTimeline s ck n v).ports = s.ports := rfl
@[simp] theorem setTimeline_mats (s : State) (ck n : Nat) (v : Timeline) : (setTimeline s ck n v).mats = s.mats := rfl
@[simp] theorem setTimeline_issueSeq (s : State) (ck n : Nat) (v : Timeline) : (setTimeline s ck n v).issueSeq = s.issueSeq := rfl
@[simp] theorem setTimeline_issue (s : State) (ck n : Nat) (v : Timeline) : (setTimeline s ck n v).issue = s.issue := rfl
@[simp] theorem setTimeline_hmem (s : State) (ck n : Nat) (v : Timeline) : (setTimeline s ck n v).hmem = s.hmem := rfl
@[simp] theorem setTimeline_badHost (s : State) (ck n : Nat) (v : Timeline) : (setTimeline s ck n v).badHost = s.badHost := rfl
@[simp] theorem setTimeline_irqs (s : State) (ck n : Nat) (v : Timeline) : (setTimeline s ck n v).irqs = s.irqs := rfl
@[simp] theorem setTimeline_i3c (s : State) (ck n : Nat) (v : Timeline) : (setTimeline s ck n v).i3c = s.i3c := rfl
@[simp] theorem setTimeline_hostOut (s : State) (ck n : Nat) (v : Timeline) : (setTimeline s ck n v).hostOut = s.hostOut := rfl
@[simp] theorem setTimeline_free (s : State) (ck n : Nat) (v : Timeline) : (setTimeline s ck n v).free = s.free := rfl
@[simp] theorem setTimeline_agenda (s : State) (ck n : Nat) (v : Timeline) : (setTimeline s ck n v).agenda = s.agenda := rfl

/-! ## setMatrix -/

@[simp] theorem setMatrix_timebase (s : State) (core : Nat) (m : Matrix) : (setMatrix s core m).timebase = s.timebase := rfl
@[simp] theorem setMatrix_mainMHz (s : State) (core : Nat) (m : Matrix) : (setMatrix s core m).mainMHz = s.mainMHz := rfl
@[simp] theorem setMatrix_frozen (s : State) (core : Nat) (m : Matrix) : (setMatrix s core m).frozen = s.frozen := rfl
@[simp] theorem setMatrix_freezePin (s : State) (core : Nat) (m : Matrix) : (setMatrix s core m).freezePin = s.freezePin := rfl
@[simp] theorem setMatrix_hold (s : State) (core : Nat) (m : Matrix) : (setMatrix s core m).hold = s.hold := rfl
@[simp] theorem setMatrix_port1Used (s : State) (core : Nat) (m : Matrix) : (setMatrix s core m).port1Used = s.port1Used := rfl
@[simp] theorem setMatrix_linkUp0 (s : State) (core : Nat) (m : Matrix) : (setMatrix s core m).linkUp0 = s.linkUp0 := rfl
@[simp] theorem setMatrix_linkUp1 (s : State) (core : Nat) (m : Matrix) : (setMatrix s core m).linkUp1 = s.linkUp1 := rfl
@[simp] theorem setMatrix_duplicate (s : State) (core : Nat) (m : Matrix) : (setMatrix s core m).duplicate = s.duplicate := rfl
@[simp] theorem setMatrix_errCorrected (s : State) (core : Nat) (m : Matrix) : (setMatrix s core m).errCorrected = s.errCorrected := rfl
@[simp] theorem setMatrix_errUncorrected (s : State) (core : Nat) (m : Matrix) : (setMatrix s core m).errUncorrected = s.errUncorrected := rfl
@[simp] theorem setMatrix_cfg (s : State) (core : Nat) (m : Matrix) : (setMatrix s core m).cfg = s.cfg := rfl
@[simp] theorem setMatrix_cfgFlash (s : State) (core : Nat) (m : Matrix) : (setMatrix s core m).cfgFlash = s.cfgFlash := rfl
@[simp] theorem setMatrix_fwVersion (s : State) (core : Nat) (m : Matrix) : (setMatrix s core m).fwVersion = s.fwVersion := rfl
@[simp] theorem setMatrix_walkVersion (s : State) (core : Nat) (m : Matrix) : (setMatrix s core m).walkVersion = s.walkVersion := rfl
@[simp] theorem setMatrix_routines (s : State) (core : Nat) (m : Matrix) : (setMatrix s core m).routines = s.routines := rfl
@[simp] theorem setMatrix_coreMap (s : State) (core : Nat) (m : Matrix) : (setMatrix s core m).coreMap = s.coreMap := rfl
@[simp] theorem setMatrix_retiredCores (s : State) (core : Nat) (m : Matrix) : (setMatrix s core m).retiredCores = s.retiredCores := rfl
@[simp] theorem setMatrix_newImage (s : State) (core : Nat) (m : Matrix) : (setMatrix s core m).newImage = s.newImage := rfl
@[simp] theorem setMatrix_vacant (s : State) (core : Nat) (m : Matrix) : (setMatrix s core m).vacant = s.vacant := rfl
@[simp] theorem setMatrix_retiredChannels (s : State) (core : Nat) (m : Matrix) : (setMatrix s core m).retiredChannels = s.retiredChannels := rfl
@[simp] theorem setMatrix_dvsec (s : State) (core : Nat) (m : Matrix) : (setMatrix s core m).dvsec = s.dvsec := rfl
@[simp] theorem setMatrix_playbill (s : State) (core : Nat) (m : Matrix) : (setMatrix s core m).playbill = s.playbill := rfl
@[simp] theorem setMatrix_hdmBase (s : State) (core : Nat) (m : Matrix) : (setMatrix s core m).hdmBase = s.hdmBase := rfl
@[simp] theorem setMatrix_watch (s : State) (core : Nat) (m : Matrix) : (setMatrix s core m).watch = s.watch := rfl
@[simp] theorem setMatrix_flags (s : State) (core : Nat) (m : Matrix) : (setMatrix s core m).flags = s.flags := rfl
@[simp] theorem setMatrix_wake (s : State) (core : Nat) (m : Matrix) : (setMatrix s core m).wake = s.wake := rfl
@[simp] theorem setMatrix_fullRead (s : State) (core : Nat) (m : Matrix) : (setMatrix s core m).fullRead = s.fullRead := rfl
@[simp] theorem setMatrix_lastRev (s : State) (core : Nat) (m : Matrix) : (setMatrix s core m).lastRev = s.lastRev := rfl
@[simp] theorem setMatrix_lastPassEnd (s : State) (core : Nat) (m : Matrix) : (setMatrix s core m).lastPassEnd = s.lastPassEnd := rfl
@[simp] theorem setMatrix_mishap (s : State) (core : Nat) (m : Matrix) : (setMatrix s core m).mishap = s.mishap := rfl
@[simp] theorem setMatrix_markSeq (s : State) (core : Nat) (m : Matrix) : (setMatrix s core m).markSeq = s.markSeq := rfl
@[simp] theorem setMatrix_marksWritten (s : State) (core : Nat) (m : Matrix) : (setMatrix s core m).marksWritten = s.marksWritten := rfl
@[simp] theorem setMatrix_book (s : State) (core : Nat) (m : Matrix) : (setMatrix s core m).book = s.book := rfl
@[simp] theorem setMatrix_frames (s : State) (core : Nat) (m : Matrix) : (setMatrix s core m).frames = s.frames := rfl
@[simp] theorem setMatrix_ctxs (s : State) (core : Nat) (m : Matrix) : (setMatrix s core m).ctxs = s.ctxs := rfl
@[simp] theorem setMatrix_maps (s : State) (core : Nat) (m : Matrix) : (setMatrix s core m).maps = s.maps := rfl
@[simp] theorem setMatrix_snaps (s : State) (core : Nat) (m : Matrix) : (setMatrix s core m).snaps = s.snaps := rfl
@[simp] theorem setMatrix_reserved (s : State) (core : Nat) (m : Matrix) : (setMatrix s core m).reserved = s.reserved := rfl
@[simp] theorem setMatrix_dmem (s : State) (core : Nat) (m : Matrix) : (setMatrix s core m).dmem = s.dmem := rfl
@[simp] theorem setMatrix_scratch (s : State) (core : Nat) (m : Matrix) : (setMatrix s core m).scratch = s.scratch := rfl
@[simp] theorem setMatrix_absent (s : State) (core : Nat) (m : Matrix) : (setMatrix s core m).absent = s.absent := rfl
@[simp] theorem setMatrix_l1 (s : State) (core : Nat) (m : Matrix) : (setMatrix s core m).l1 = s.l1 := rfl
@[simp] theorem setMatrix_rdc (s : State) (core : Nat) (m : Matrix) : (setMatrix s core m).rdc = s.rdc := rfl
@[simp] theorem setMatrix_corePhase (s : State) (core : Nat) (m : Matrix) : (setMatrix s core m).corePhase = s.corePhase := rfl
@[simp] theorem setMatrix_rdcPhase (s : State) (core : Nat) (m : Matrix) : (setMatrix s core m).rdcPhase = s.rdcPhase := rfl
@[simp] theorem setMatrix_dirPred (s : State) (core : Nat) (m : Matrix) : (setMatrix s core m).dirPred = s.dirPred := rfl
@[simp] theorem setMatrix_passing (s : State) (core : Nat) (m : Matrix) : (setMatrix s core m).passing = s.passing := rfl
@[simp] theorem setMatrix_early (s : State) (core : Nat) (m : Matrix) : (setMatrix s core m).early = s.early := rfl
@[simp] theorem setMatrix_lateStores (s : State) (core : Nat) (m : Matrix) : (setMatrix s core m).lateStores = s.lateStores := rfl
@[simp] theorem setMatrix_lateLoads (s : State) (core : Nat) (m : Matrix) : (setMatrix s core m).lateLoads = s.lateLoads := rfl
@[simp] theorem setMatrix_badDev (s : State) (core : Nat) (m : Matrix) : (setMatrix s core m).badDev = s.badDev := rfl
@[simp] theorem setMatrix_badScratch (s : State) (core : Nat) (m : Matrix) : (setMatrix s core m).badScratch = s.badScratch := rfl
@[simp] theorem setMatrix_badRegs (s : State) (core : Nat) (m : Matrix) : (setMatrix s core m).badRegs = s.badRegs := rfl
@[simp] theorem setMatrix_biasHolders (s : State) (core : Nat) (m : Matrix) : (setMatrix s core m).biasHolders = s.biasHolders := rfl
@[simp] theorem setMatrix_coreTlb (s : State) (core : Nat) (m : Matrix) : (setMatrix s core m).coreTlb = s.coreTlb := rfl
@[simp] theorem setMatrix_dieTlb (s : State) (core : Nat) (m : Matrix) : (setMatrix s core m).dieTlb = s.dieTlb := rfl
@[simp] theorem setMatrix_icache (s : State) (core : Nat) (m : Matrix) : (setMatrix s core m).icache = s.icache := rfl
@[simp] theorem setMatrix_residents (s : State) (core : Nat) (m : Matrix) : (setMatrix s core m).residents = s.residents := rfl
@[simp] theorem setMatrix_ushers (s : State) (core : Nat) (m : Matrix) : (setMatrix s core m).ushers = s.ushers := rfl
@[simp] theorem setMatrix_placeSeq (s : State) (core : Nat) (m : Matrix) : (setMatrix s core m).placeSeq = s.placeSeq := rfl
@[simp] theorem setMatrix_classes (s : State) (core : Nat) (m : Matrix) : (setMatrix s core m).classes = s.classes := rfl
@[simp] theorem setMatrix_troupes (s : State) (core : Nat) (m : Matrix) : (setMatrix s core m).troupes = s.troupes := rfl
@[simp] theorem setMatrix_threads (s : State) (core : Nat) (m : Matrix) : (setMatrix s core m).threads = s.threads := rfl
@[simp] theorem setMatrix_ended (s : State) (core : Nat) (m : Matrix) : (setMatrix s core m).ended = s.ended := rfl
@[simp] theorem setMatrix_regs (s : State) (core : Nat) (m : Matrix) : (setMatrix s core m).regs = s.regs := rfl
@[simp] theorem setMatrix_cregs (s : State) (core : Nat) (m : Matrix) : (setMatrix s core m).cregs = s.cregs := rfl
@[simp] theorem setMatrix_cregSeq (s : State) (core : Nat) (m : Matrix) : (setMatrix s core m).cregSeq = s.cregSeq := rfl
@[simp] theorem setMatrix_cregLast (s : State) (core : Nat) (m : Matrix) : (setMatrix s core m).cregLast = s.cregLast := rfl
@[simp] theorem setMatrix_timelines (s : State) (core : Nat) (m : Matrix) : (setMatrix s core m).timelines = s.timelines := rfl
@[simp] theorem setMatrix_bins (s : State) (core : Nat) (m : Matrix) : (setMatrix s core m).bins = s.bins := rfl
@[simp] theorem setMatrix_cores (s : State) (core : Nat) (m : Matrix) : (setMatrix s core m).cores = s.cores := rfl
@[simp] theorem setMatrix_noteQueues (s : State) (core : Nat) (m : Matrix) : (setMatrix s core m).noteQueues = s.noteQueues := rfl
@[simp] theorem setMatrix_cbs (s : State) (core : Nat) (m : Matrix) : (setMatrix s core m).cbs = s.cbs := rfl
@[simp] theorem setMatrix_nextReq (s : State) (core : Nat) (m : Matrix) : (setMatrix s core m).nextReq = s.nextReq := rfl
@[simp] theorem setMatrix_reqs (s : State) (core : Nat) (m : Matrix) : (setMatrix s core m).reqs = s.reqs := rfl
@[simp] theorem setMatrix_fabOps (s : State) (core : Nat) (m : Matrix) : (setMatrix s core m).fabOps = s.fabOps := rfl
@[simp] theorem setMatrix_imagesOut (s : State) (core : Nat) (m : Matrix) : (setMatrix s core m).imagesOut = s.imagesOut := rfl
@[simp] theorem setMatrix_windows (s : State) (core : Nat) (m : Matrix) : (setMatrix s core m).windows = s.windows := rfl
@[simp] theorem setMatrix_ports (s : State) (core : Nat) (m : Matrix) : (setMatrix s core m).ports = s.ports := rfl
@[simp] theorem setMatrix_mats (s : State) (core : Nat) (m : Matrix) : (setMatrix s core m).mats = tset Matrix.blank s.mats core m := rfl
@[simp] theorem setMatrix_issueSeq (s : State) (core : Nat) (m : Matrix) : (setMatrix s core m).issueSeq = s.issueSeq := rfl
@[simp] theorem setMatrix_issue (s : State) (core : Nat) (m : Matrix) : (setMatrix s core m).issue = s.issue := rfl
@[simp] theorem setMatrix_hmem (s : State) (core : Nat) (m : Matrix) : (setMatrix s core m).hmem = s.hmem := rfl
@[simp] theorem setMatrix_badHost (s : State) (core : Nat) (m : Matrix) : (setMatrix s core m).badHost = s.badHost := rfl
@[simp] theorem setMatrix_irqs (s : State) (core : Nat) (m : Matrix) : (setMatrix s core m).irqs = s.irqs := rfl
@[simp] theorem setMatrix_i3c (s : State) (core : Nat) (m : Matrix) : (setMatrix s core m).i3c = s.i3c := rfl
@[simp] theorem setMatrix_hostOut (s : State) (core : Nat) (m : Matrix) : (setMatrix s core m).hostOut = s.hostOut := rfl
@[simp] theorem setMatrix_free (s : State) (core : Nat) (m : Matrix) : (setMatrix s core m).free = s.free := rfl
@[simp] theorem setMatrix_agenda (s : State) (core : Nat) (m : Matrix) : (setMatrix s core m).agenda = s.agenda := rfl

/-! ## writeScratch -/

@[simp] theorem writeScratch_timebase (s : State) (ck o : Nat) (bs : List Byte) : (writeScratch s ck o bs).timebase = s.timebase := rfl
@[simp] theorem writeScratch_mainMHz (s : State) (ck o : Nat) (bs : List Byte) : (writeScratch s ck o bs).mainMHz = s.mainMHz := rfl
@[simp] theorem writeScratch_frozen (s : State) (ck o : Nat) (bs : List Byte) : (writeScratch s ck o bs).frozen = s.frozen := rfl
@[simp] theorem writeScratch_freezePin (s : State) (ck o : Nat) (bs : List Byte) : (writeScratch s ck o bs).freezePin = s.freezePin := rfl
@[simp] theorem writeScratch_hold (s : State) (ck o : Nat) (bs : List Byte) : (writeScratch s ck o bs).hold = s.hold := rfl
@[simp] theorem writeScratch_port1Used (s : State) (ck o : Nat) (bs : List Byte) : (writeScratch s ck o bs).port1Used = s.port1Used := rfl
@[simp] theorem writeScratch_linkUp0 (s : State) (ck o : Nat) (bs : List Byte) : (writeScratch s ck o bs).linkUp0 = s.linkUp0 := rfl
@[simp] theorem writeScratch_linkUp1 (s : State) (ck o : Nat) (bs : List Byte) : (writeScratch s ck o bs).linkUp1 = s.linkUp1 := rfl
@[simp] theorem writeScratch_duplicate (s : State) (ck o : Nat) (bs : List Byte) : (writeScratch s ck o bs).duplicate = s.duplicate := rfl
@[simp] theorem writeScratch_errCorrected (s : State) (ck o : Nat) (bs : List Byte) : (writeScratch s ck o bs).errCorrected = s.errCorrected := rfl
@[simp] theorem writeScratch_errUncorrected (s : State) (ck o : Nat) (bs : List Byte) : (writeScratch s ck o bs).errUncorrected = s.errUncorrected := rfl
@[simp] theorem writeScratch_cfg (s : State) (ck o : Nat) (bs : List Byte) : (writeScratch s ck o bs).cfg = s.cfg := rfl
@[simp] theorem writeScratch_cfgFlash (s : State) (ck o : Nat) (bs : List Byte) : (writeScratch s ck o bs).cfgFlash = s.cfgFlash := rfl
@[simp] theorem writeScratch_fwVersion (s : State) (ck o : Nat) (bs : List Byte) : (writeScratch s ck o bs).fwVersion = s.fwVersion := rfl
@[simp] theorem writeScratch_walkVersion (s : State) (ck o : Nat) (bs : List Byte) : (writeScratch s ck o bs).walkVersion = s.walkVersion := rfl
@[simp] theorem writeScratch_routines (s : State) (ck o : Nat) (bs : List Byte) : (writeScratch s ck o bs).routines = s.routines := rfl
@[simp] theorem writeScratch_coreMap (s : State) (ck o : Nat) (bs : List Byte) : (writeScratch s ck o bs).coreMap = s.coreMap := rfl
@[simp] theorem writeScratch_retiredCores (s : State) (ck o : Nat) (bs : List Byte) : (writeScratch s ck o bs).retiredCores = s.retiredCores := rfl
@[simp] theorem writeScratch_newImage (s : State) (ck o : Nat) (bs : List Byte) : (writeScratch s ck o bs).newImage = s.newImage := rfl
@[simp] theorem writeScratch_vacant (s : State) (ck o : Nat) (bs : List Byte) : (writeScratch s ck o bs).vacant = s.vacant := rfl
@[simp] theorem writeScratch_retiredChannels (s : State) (ck o : Nat) (bs : List Byte) : (writeScratch s ck o bs).retiredChannels = s.retiredChannels := rfl
@[simp] theorem writeScratch_dvsec (s : State) (ck o : Nat) (bs : List Byte) : (writeScratch s ck o bs).dvsec = s.dvsec := rfl
@[simp] theorem writeScratch_playbill (s : State) (ck o : Nat) (bs : List Byte) : (writeScratch s ck o bs).playbill = s.playbill := rfl
@[simp] theorem writeScratch_hdmBase (s : State) (ck o : Nat) (bs : List Byte) : (writeScratch s ck o bs).hdmBase = s.hdmBase := rfl
@[simp] theorem writeScratch_watch (s : State) (ck o : Nat) (bs : List Byte) : (writeScratch s ck o bs).watch = s.watch := rfl
@[simp] theorem writeScratch_flags (s : State) (ck o : Nat) (bs : List Byte) : (writeScratch s ck o bs).flags = s.flags := rfl
@[simp] theorem writeScratch_wake (s : State) (ck o : Nat) (bs : List Byte) : (writeScratch s ck o bs).wake = s.wake := rfl
@[simp] theorem writeScratch_fullRead (s : State) (ck o : Nat) (bs : List Byte) : (writeScratch s ck o bs).fullRead = s.fullRead := rfl
@[simp] theorem writeScratch_lastRev (s : State) (ck o : Nat) (bs : List Byte) : (writeScratch s ck o bs).lastRev = s.lastRev := rfl
@[simp] theorem writeScratch_lastPassEnd (s : State) (ck o : Nat) (bs : List Byte) : (writeScratch s ck o bs).lastPassEnd = s.lastPassEnd := rfl
@[simp] theorem writeScratch_mishap (s : State) (ck o : Nat) (bs : List Byte) : (writeScratch s ck o bs).mishap = s.mishap := rfl
@[simp] theorem writeScratch_markSeq (s : State) (ck o : Nat) (bs : List Byte) : (writeScratch s ck o bs).markSeq = s.markSeq := rfl
@[simp] theorem writeScratch_marksWritten (s : State) (ck o : Nat) (bs : List Byte) : (writeScratch s ck o bs).marksWritten = s.marksWritten := rfl
@[simp] theorem writeScratch_book (s : State) (ck o : Nat) (bs : List Byte) : (writeScratch s ck o bs).book = s.book := rfl
@[simp] theorem writeScratch_frames (s : State) (ck o : Nat) (bs : List Byte) : (writeScratch s ck o bs).frames = s.frames := rfl
@[simp] theorem writeScratch_ctxs (s : State) (ck o : Nat) (bs : List Byte) : (writeScratch s ck o bs).ctxs = s.ctxs := rfl
@[simp] theorem writeScratch_maps (s : State) (ck o : Nat) (bs : List Byte) : (writeScratch s ck o bs).maps = s.maps := rfl
@[simp] theorem writeScratch_snaps (s : State) (ck o : Nat) (bs : List Byte) : (writeScratch s ck o bs).snaps = s.snaps := rfl
@[simp] theorem writeScratch_reserved (s : State) (ck o : Nat) (bs : List Byte) : (writeScratch s ck o bs).reserved = s.reserved := rfl
@[simp] theorem writeScratch_dmem (s : State) (ck o : Nat) (bs : List Byte) : (writeScratch s ck o bs).dmem = s.dmem := rfl
@[simp] theorem writeScratch_scratch (s : State) (ck o : Nat) (bs : List Byte) : (writeScratch s ck o bs).scratch = wrBytes s.scratch (scratchKey ck o) bs := rfl
@[simp] theorem writeScratch_absent (s : State) (ck o : Nat) (bs : List Byte) : (writeScratch s ck o bs).absent = s.absent := rfl
@[simp] theorem writeScratch_l1 (s : State) (ck o : Nat) (bs : List Byte) : (writeScratch s ck o bs).l1 = s.l1 := rfl
@[simp] theorem writeScratch_rdc (s : State) (ck o : Nat) (bs : List Byte) : (writeScratch s ck o bs).rdc = s.rdc := rfl
@[simp] theorem writeScratch_corePhase (s : State) (ck o : Nat) (bs : List Byte) : (writeScratch s ck o bs).corePhase = s.corePhase := rfl
@[simp] theorem writeScratch_rdcPhase (s : State) (ck o : Nat) (bs : List Byte) : (writeScratch s ck o bs).rdcPhase = s.rdcPhase := rfl
@[simp] theorem writeScratch_dirPred (s : State) (ck o : Nat) (bs : List Byte) : (writeScratch s ck o bs).dirPred = s.dirPred := rfl
@[simp] theorem writeScratch_passing (s : State) (ck o : Nat) (bs : List Byte) : (writeScratch s ck o bs).passing = s.passing := rfl
@[simp] theorem writeScratch_early (s : State) (ck o : Nat) (bs : List Byte) : (writeScratch s ck o bs).early = s.early := rfl
@[simp] theorem writeScratch_lateStores (s : State) (ck o : Nat) (bs : List Byte) : (writeScratch s ck o bs).lateStores = s.lateStores := rfl
@[simp] theorem writeScratch_lateLoads (s : State) (ck o : Nat) (bs : List Byte) : (writeScratch s ck o bs).lateLoads = s.lateLoads := rfl
@[simp] theorem writeScratch_badDev (s : State) (ck o : Nat) (bs : List Byte) : (writeScratch s ck o bs).badDev = s.badDev := rfl
@[simp] theorem writeScratch_badScratch (s : State) (ck o : Nat) (bs : List Byte) : (writeScratch s ck o bs).badScratch = s.badScratch.filter (fun x => !(decide (scratchKey ck o ≤ x) && decide (x < scratchKey ck o + bs.length))) := rfl
@[simp] theorem writeScratch_badRegs (s : State) (ck o : Nat) (bs : List Byte) : (writeScratch s ck o bs).badRegs = s.badRegs := rfl
@[simp] theorem writeScratch_biasHolders (s : State) (ck o : Nat) (bs : List Byte) : (writeScratch s ck o bs).biasHolders = s.biasHolders := rfl
@[simp] theorem writeScratch_coreTlb (s : State) (ck o : Nat) (bs : List Byte) : (writeScratch s ck o bs).coreTlb = s.coreTlb := rfl
@[simp] theorem writeScratch_dieTlb (s : State) (ck o : Nat) (bs : List Byte) : (writeScratch s ck o bs).dieTlb = s.dieTlb := rfl
@[simp] theorem writeScratch_icache (s : State) (ck o : Nat) (bs : List Byte) : (writeScratch s ck o bs).icache = s.icache := rfl
@[simp] theorem writeScratch_residents (s : State) (ck o : Nat) (bs : List Byte) : (writeScratch s ck o bs).residents = s.residents := rfl
@[simp] theorem writeScratch_ushers (s : State) (ck o : Nat) (bs : List Byte) : (writeScratch s ck o bs).ushers = s.ushers := rfl
@[simp] theorem writeScratch_placeSeq (s : State) (ck o : Nat) (bs : List Byte) : (writeScratch s ck o bs).placeSeq = s.placeSeq := rfl
@[simp] theorem writeScratch_classes (s : State) (ck o : Nat) (bs : List Byte) : (writeScratch s ck o bs).classes = s.classes := rfl
@[simp] theorem writeScratch_troupes (s : State) (ck o : Nat) (bs : List Byte) : (writeScratch s ck o bs).troupes = s.troupes := rfl
@[simp] theorem writeScratch_threads (s : State) (ck o : Nat) (bs : List Byte) : (writeScratch s ck o bs).threads = s.threads := rfl
@[simp] theorem writeScratch_ended (s : State) (ck o : Nat) (bs : List Byte) : (writeScratch s ck o bs).ended = s.ended := rfl
@[simp] theorem writeScratch_regs (s : State) (ck o : Nat) (bs : List Byte) : (writeScratch s ck o bs).regs = s.regs := rfl
@[simp] theorem writeScratch_cregs (s : State) (ck o : Nat) (bs : List Byte) : (writeScratch s ck o bs).cregs = s.cregs := rfl
@[simp] theorem writeScratch_cregSeq (s : State) (ck o : Nat) (bs : List Byte) : (writeScratch s ck o bs).cregSeq = s.cregSeq := rfl
@[simp] theorem writeScratch_cregLast (s : State) (ck o : Nat) (bs : List Byte) : (writeScratch s ck o bs).cregLast = s.cregLast := rfl
@[simp] theorem writeScratch_timelines (s : State) (ck o : Nat) (bs : List Byte) : (writeScratch s ck o bs).timelines = s.timelines := rfl
@[simp] theorem writeScratch_bins (s : State) (ck o : Nat) (bs : List Byte) : (writeScratch s ck o bs).bins = s.bins := rfl
@[simp] theorem writeScratch_cores (s : State) (ck o : Nat) (bs : List Byte) : (writeScratch s ck o bs).cores = s.cores := rfl
@[simp] theorem writeScratch_noteQueues (s : State) (ck o : Nat) (bs : List Byte) : (writeScratch s ck o bs).noteQueues = s.noteQueues := rfl
@[simp] theorem writeScratch_cbs (s : State) (ck o : Nat) (bs : List Byte) : (writeScratch s ck o bs).cbs = s.cbs := rfl
@[simp] theorem writeScratch_nextReq (s : State) (ck o : Nat) (bs : List Byte) : (writeScratch s ck o bs).nextReq = s.nextReq := rfl
@[simp] theorem writeScratch_reqs (s : State) (ck o : Nat) (bs : List Byte) : (writeScratch s ck o bs).reqs = s.reqs := rfl
@[simp] theorem writeScratch_fabOps (s : State) (ck o : Nat) (bs : List Byte) : (writeScratch s ck o bs).fabOps = s.fabOps := rfl
@[simp] theorem writeScratch_imagesOut (s : State) (ck o : Nat) (bs : List Byte) : (writeScratch s ck o bs).imagesOut = s.imagesOut := rfl
@[simp] theorem writeScratch_windows (s : State) (ck o : Nat) (bs : List Byte) : (writeScratch s ck o bs).windows = s.windows := rfl
@[simp] theorem writeScratch_ports (s : State) (ck o : Nat) (bs : List Byte) : (writeScratch s ck o bs).ports = s.ports := rfl
@[simp] theorem writeScratch_mats (s : State) (ck o : Nat) (bs : List Byte) : (writeScratch s ck o bs).mats = s.mats := rfl
@[simp] theorem writeScratch_issueSeq (s : State) (ck o : Nat) (bs : List Byte) : (writeScratch s ck o bs).issueSeq = s.issueSeq := rfl
@[simp] theorem writeScratch_issue (s : State) (ck o : Nat) (bs : List Byte) : (writeScratch s ck o bs).issue = s.issue := rfl
@[simp] theorem writeScratch_hmem (s : State) (ck o : Nat) (bs : List Byte) : (writeScratch s ck o bs).hmem = s.hmem := rfl
@[simp] theorem writeScratch_badHost (s : State) (ck o : Nat) (bs : List Byte) : (writeScratch s ck o bs).badHost = s.badHost := rfl
@[simp] theorem writeScratch_irqs (s : State) (ck o : Nat) (bs : List Byte) : (writeScratch s ck o bs).irqs = s.irqs := rfl
@[simp] theorem writeScratch_i3c (s : State) (ck o : Nat) (bs : List Byte) : (writeScratch s ck o bs).i3c = s.i3c := rfl
@[simp] theorem writeScratch_hostOut (s : State) (ck o : Nat) (bs : List Byte) : (writeScratch s ck o bs).hostOut = s.hostOut := rfl
@[simp] theorem writeScratch_free (s : State) (ck o : Nat) (bs : List Byte) : (writeScratch s ck o bs).free = s.free := rfl
@[simp] theorem writeScratch_agenda (s : State) (ck o : Nat) (bs : List Byte) : (writeScratch s ck o bs).agenda = s.agenda := rfl

/-! ## issued -/

@[simp] theorem issued_timebase (s : State) : (issued s).timebase = s.timebase := rfl
@[simp] theorem issued_mainMHz (s : State) : (issued s).mainMHz = s.mainMHz := rfl
@[simp] theorem issued_frozen (s : State) : (issued s).frozen = s.frozen := rfl
@[simp] theorem issued_freezePin (s : State) : (issued s).freezePin = s.freezePin := rfl
@[simp] theorem issued_hold (s : State) : (issued s).hold = s.hold := rfl
@[simp] theorem issued_port1Used (s : State) : (issued s).port1Used = s.port1Used := rfl
@[simp] theorem issued_linkUp0 (s : State) : (issued s).linkUp0 = s.linkUp0 := rfl
@[simp] theorem issued_linkUp1 (s : State) : (issued s).linkUp1 = s.linkUp1 := rfl
@[simp] theorem issued_duplicate (s : State) : (issued s).duplicate = s.duplicate := rfl
@[simp] theorem issued_errCorrected (s : State) : (issued s).errCorrected = s.errCorrected := rfl
@[simp] theorem issued_errUncorrected (s : State) : (issued s).errUncorrected = s.errUncorrected := rfl
@[simp] theorem issued_cfg (s : State) : (issued s).cfg = s.cfg := rfl
@[simp] theorem issued_cfgFlash (s : State) : (issued s).cfgFlash = s.cfgFlash := rfl
@[simp] theorem issued_fwVersion (s : State) : (issued s).fwVersion = s.fwVersion := rfl
@[simp] theorem issued_walkVersion (s : State) : (issued s).walkVersion = s.walkVersion := rfl
@[simp] theorem issued_routines (s : State) : (issued s).routines = s.routines := rfl
@[simp] theorem issued_coreMap (s : State) : (issued s).coreMap = s.coreMap := rfl
@[simp] theorem issued_retiredCores (s : State) : (issued s).retiredCores = s.retiredCores := rfl
@[simp] theorem issued_newImage (s : State) : (issued s).newImage = s.newImage := rfl
@[simp] theorem issued_vacant (s : State) : (issued s).vacant = s.vacant := rfl
@[simp] theorem issued_retiredChannels (s : State) : (issued s).retiredChannels = s.retiredChannels := rfl
@[simp] theorem issued_dvsec (s : State) : (issued s).dvsec = s.dvsec := rfl
@[simp] theorem issued_playbill (s : State) : (issued s).playbill = s.playbill := rfl
@[simp] theorem issued_hdmBase (s : State) : (issued s).hdmBase = s.hdmBase := rfl
@[simp] theorem issued_watch (s : State) : (issued s).watch = s.watch := rfl
@[simp] theorem issued_flags (s : State) : (issued s).flags = s.flags := rfl
@[simp] theorem issued_wake (s : State) : (issued s).wake = s.wake := rfl
@[simp] theorem issued_fullRead (s : State) : (issued s).fullRead = s.fullRead := rfl
@[simp] theorem issued_lastRev (s : State) : (issued s).lastRev = s.lastRev := rfl
@[simp] theorem issued_lastPassEnd (s : State) : (issued s).lastPassEnd = s.lastPassEnd := rfl
@[simp] theorem issued_mishap (s : State) : (issued s).mishap = s.mishap := rfl
@[simp] theorem issued_markSeq (s : State) : (issued s).markSeq = s.markSeq := rfl
@[simp] theorem issued_marksWritten (s : State) : (issued s).marksWritten = s.marksWritten := rfl
@[simp] theorem issued_book (s : State) : (issued s).book = s.book := rfl
@[simp] theorem issued_frames (s : State) : (issued s).frames = s.frames := rfl
@[simp] theorem issued_ctxs (s : State) : (issued s).ctxs = s.ctxs := rfl
@[simp] theorem issued_maps (s : State) : (issued s).maps = s.maps := rfl
@[simp] theorem issued_snaps (s : State) : (issued s).snaps = s.snaps := rfl
@[simp] theorem issued_reserved (s : State) : (issued s).reserved = s.reserved := rfl
@[simp] theorem issued_dmem (s : State) : (issued s).dmem = s.dmem := rfl
@[simp] theorem issued_scratch (s : State) : (issued s).scratch = s.scratch := rfl
@[simp] theorem issued_absent (s : State) : (issued s).absent = s.absent := rfl
@[simp] theorem issued_l1 (s : State) : (issued s).l1 = s.l1 := rfl
@[simp] theorem issued_rdc (s : State) : (issued s).rdc = s.rdc := rfl
@[simp] theorem issued_corePhase (s : State) : (issued s).corePhase = s.corePhase := rfl
@[simp] theorem issued_rdcPhase (s : State) : (issued s).rdcPhase = s.rdcPhase := rfl
@[simp] theorem issued_dirPred (s : State) : (issued s).dirPred = s.dirPred := rfl
@[simp] theorem issued_passing (s : State) : (issued s).passing = s.passing := rfl
@[simp] theorem issued_early (s : State) : (issued s).early = s.early := rfl
@[simp] theorem issued_lateStores (s : State) : (issued s).lateStores = s.lateStores := rfl
@[simp] theorem issued_lateLoads (s : State) : (issued s).lateLoads = s.lateLoads := rfl
@[simp] theorem issued_badDev (s : State) : (issued s).badDev = s.badDev := rfl
@[simp] theorem issued_badScratch (s : State) : (issued s).badScratch = s.badScratch := rfl
@[simp] theorem issued_badRegs (s : State) : (issued s).badRegs = s.badRegs := rfl
@[simp] theorem issued_biasHolders (s : State) : (issued s).biasHolders = s.biasHolders := rfl
@[simp] theorem issued_coreTlb (s : State) : (issued s).coreTlb = s.coreTlb := rfl
@[simp] theorem issued_dieTlb (s : State) : (issued s).dieTlb = s.dieTlb := rfl
@[simp] theorem issued_icache (s : State) : (issued s).icache = s.icache := rfl
@[simp] theorem issued_residents (s : State) : (issued s).residents = s.residents := rfl
@[simp] theorem issued_ushers (s : State) : (issued s).ushers = s.ushers := rfl
@[simp] theorem issued_placeSeq (s : State) : (issued s).placeSeq = s.placeSeq := rfl
@[simp] theorem issued_classes (s : State) : (issued s).classes = s.classes := rfl
@[simp] theorem issued_troupes (s : State) : (issued s).troupes = s.troupes := rfl
@[simp] theorem issued_threads (s : State) : (issued s).threads = s.threads := rfl
@[simp] theorem issued_ended (s : State) : (issued s).ended = s.ended := rfl
@[simp] theorem issued_regs (s : State) : (issued s).regs = s.regs := rfl
@[simp] theorem issued_cregs (s : State) : (issued s).cregs = s.cregs := rfl
@[simp] theorem issued_cregSeq (s : State) : (issued s).cregSeq = s.cregSeq := rfl
@[simp] theorem issued_cregLast (s : State) : (issued s).cregLast = s.cregLast := rfl
@[simp] theorem issued_timelines (s : State) : (issued s).timelines = s.timelines := rfl
@[simp] theorem issued_bins (s : State) : (issued s).bins = s.bins := rfl
@[simp] theorem issued_cores (s : State) : (issued s).cores = s.cores := rfl
@[simp] theorem issued_noteQueues (s : State) : (issued s).noteQueues = s.noteQueues := rfl
@[simp] theorem issued_cbs (s : State) : (issued s).cbs = s.cbs := rfl
@[simp] theorem issued_nextReq (s : State) : (issued s).nextReq = s.nextReq := rfl
@[simp] theorem issued_reqs (s : State) : (issued s).reqs = s.reqs := rfl
@[simp] theorem issued_fabOps (s : State) : (issued s).fabOps = s.fabOps := rfl
@[simp] theorem issued_imagesOut (s : State) : (issued s).imagesOut = s.imagesOut := rfl
@[simp] theorem issued_windows (s : State) : (issued s).windows = s.windows := rfl
@[simp] theorem issued_ports (s : State) : (issued s).ports = s.ports := rfl
@[simp] theorem issued_mats (s : State) : (issued s).mats = s.mats := rfl
@[simp] theorem issued_issueSeq (s : State) : (issued s).issueSeq = s.issueSeq + 1 := rfl
@[simp] theorem issued_issue (s : State) : (issued s).issue = none := rfl
@[simp] theorem issued_hmem (s : State) : (issued s).hmem = s.hmem := rfl
@[simp] theorem issued_badHost (s : State) : (issued s).badHost = s.badHost := rfl
@[simp] theorem issued_irqs (s : State) : (issued s).irqs = s.irqs := rfl
@[simp] theorem issued_i3c (s : State) : (issued s).i3c = s.i3c := rfl
@[simp] theorem issued_hostOut (s : State) : (issued s).hostOut = s.hostOut := rfl
@[simp] theorem issued_free (s : State) : (issued s).free = s.free := rfl
@[simp] theorem issued_agenda (s : State) : (issued s).agenda = s.agenda := rfl

end Sys2Proof.Machine
end

