-- ==== Sys2Proof/Laws/Table.lean ====
section
/-! SUPPORT. Reading a table after writing it, and the canonical form of memory kept by every write. -/

namespace Sys2Proof.Machine

@[simp] theorem tfind_nil {α : Type} (k : Nat) : tfind ([] : Table α) k = none := rfl

theorem tfind_tput {α : Type} (t : Table α) (k : Nat) (v : α) (j : Nat) :
    tfind (tput t k v) j = if k = j then some v else tfind t j := by
  induction t with
  | nil => simp [tput, tfind]
  | cons c r ih =>
    obtain ⟨i, u⟩ := c
    simp only [tput]
    split
    · simp [tfind]
    · split
      · subst_vars; by_cases h : i = j <;> simp [tfind, h]
      · by_cases h : i = j
        · subst h; simp [tfind, ‹¬ k = i›]
        · simp [tfind, h, ih]

@[simp] theorem tfind_tput_self {α : Type} (t : Table α) (k : Nat) (v : α) : tfind (tput t k v) k = some v := by
  simp [tfind_tput]

@[simp] theorem tput_tput {α : Type} (t : Table α) (k : Nat) (v w : α) : tput (tput t k v) k w = tput t k w := by
  induction t with
  | nil => simp [tput]
  | cons c r ih =>
    obtain ⟨j, u⟩ := c
    simp only [tput]
    split
    · simp [tput]
    · split
      · simp [tput]
      · simp only [tput]
        rw [if_neg (by assumption), if_neg (by assumption), ih]

/-- A key written, then changed. -/
@[simp] theorem tupd_tput {α : Type} (t : Table α) (k : Nat) (v : α) (f : α → α) : tupd (tput t k v) k f = tput t k (f v) := by
  simp [tupd]

theorem tfind_tput_ne {α : Type} (t : Table α) {k j : Nat} (v : α) (h : k ≠ j) : tfind (tput t k v) j = tfind t j := by
  simp [tfind_tput, h]

theorem tfind_filter {α : Type} (p : Nat → Bool) (t : Table α) (j : Nat) :
    tfind (t.filter (fun c => p c.1)) j = if p j then tfind t j else none := by
  induction t with
  | nil => simp [tfind]
  | cons c r ih =>
    obtain ⟨i, u⟩ := c
    by_cases hp : p i
    · by_cases h : i = j
      · subst h; simp [tfind, hp]
      · simp [tfind, hp, h, ih]
    · by_cases h : i = j
      · subst h; simp [hp, ih]
      · simp [tfind, hp, h, ih]

theorem tfind_tdel {α : Type} (t : Table α) (k j : Nat) : tfind (tdel t k) j = if k = j then none else tfind t j := by
  unfold tdel
  rw [tfind_filter (fun c => c != k)]
  by_cases h : k = j
  · subst h; simp
  · have : j ≠ k := fun e => h e.symm
    simp [h, this]

theorem tget_tset {α : Type} [DecidableEq α] (d : α) (t : Table α) (k : Nat) (v : α) (j : Nat) :
    tget d (tset d t k v) j = if k = j then v else tget d t j := by
  unfold tset tget
  split
  · subst_vars; simp only [tfind_tdel]; split <;> simp
  · simp only [tfind_tput]; split <;> simp

@[simp] theorem tget_tset_self {α : Type} [DecidableEq α] (d : α) (t : Table α) (k : Nat) (v : α) : tget d (tset d t k v) k = v := by
  simp [tget_tset]

theorem tget_tset_ne {α : Type} [DecidableEq α] (d : α) (t : Table α) {k j : Nat} (v : α) (h : k ≠ j) :
    tget d (tset d t k v) j = tget d t j := by simp [tget_tset, h]

theorem tget_tput {α : Type} (d : α) (t : Table α) (k : Nat) (v : α) (j : Nat) :
    tget d (tput t k v) j = if k = j then v else tget d t j := by
  unfold tget; rw [tfind_tput]; split <;> simp

theorem tfind_tupd {α : Type} (t : Table α) (k : Nat) (f : α → α) (j : Nat) :
    tfind (tupd t k f) j = if k = j then (tfind t j).map f else tfind t j := by
  unfold tupd
  cases h : tfind t k with
  | none => by_cases e : k = j <;> simp [e]; subst e; simp [h]
  | some v => by_cases e : k = j <;> simp [tfind_tput, e]; subst e; simp [h]

theorem tfind_tupd_self {α : Type} (t : Table α) (k : Nat) (f : α → α) : tfind (tupd t k f) k = (tfind t k).map f := by
  simp [tfind_tupd]

theorem tfind_tupd_ne {α : Type} (t : Table α) {k j : Nat} (f : α → α) (h : k ≠ j) : tfind (tupd t k f) j = tfind t j := by
  simp [tfind_tupd, h]

/-! ## Rising keys -/

/-- Every key of a table is above `k`. -/
def above {α : Type} (k : Nat) (t : Table α) : Bool := t.all (fun c => decide (k < c.1))

theorem rising_cons {α : Type} (c : Nat × α) (r : Table α) : rising (c :: r) = true ↔ above c.1 r = true ∧ rising r = true := by
  induction r generalizing c with
  | nil => simp [rising, above]
  | cons b r ih =>
    simp only [rising, Bool.and_eq_true, decide_eq_true_eq, above, List.all_cons]
    constructor
    · rintro ⟨h1, h2⟩
      refine ⟨⟨h1, ?_⟩, h2⟩
      have := (ih b).1 h2
      simp only [above, List.all_eq_true, decide_eq_true_eq] at this ⊢
      intro x hx; have := this.1 x hx; omega
    · rintro ⟨⟨h1, _⟩, h2⟩; exact ⟨h1, h2⟩

theorem above_tput {α : Type} {i : Nat} {t : Table α} {k : Nat} {v : α} (h : above i t = true) (hk : i < k) :
    above i (tput t k v) = true := by
  induction t with
  | nil => simp [tput, above, hk]
  | cons c r ih =>
    simp only [above, List.all_cons, Bool.and_eq_true, decide_eq_true_eq] at h ih
    simp only [tput]
    split
    · simp [above, hk, h.1]; simpa using h.2
    · split
      · simp [above, hk]; simpa using h.2
      · simp only [above, List.all_cons, Bool.and_eq_true, decide_eq_true_eq]; exact ⟨h.1, ih h.2⟩

theorem rising_tput {α : Type} {t : Table α} (k : Nat) (v : α) (h : rising t = true) : rising (tput t k v) = true := by
  induction t with
  | nil => rfl
  | cons c r ih =>
    have hc := (rising_cons c r).1 h
    simp only [tput]
    split
    · refine (rising_cons _ _).2 ⟨?_, h⟩
      simp only [above, List.all_cons, Bool.and_eq_true, decide_eq_true_eq]
      refine ⟨by assumption, ?_⟩
      have := hc.1
      simp only [above, List.all_eq_true, decide_eq_true_eq] at this ⊢
      intro x hx; have := this x hx; omega
    · split
      · subst_vars; exact (rising_cons _ _).2 hc
      · exact (rising_cons _ _).2 ⟨above_tput hc.1 (by omega), ih hc.2⟩

theorem rising_filter {α : Type} {t : Table α} (p : Nat × α → Bool) (h : rising t = true) : rising (t.filter p) = true := by
  induction t with
  | nil => rfl
  | cons c r ih =>
    have hc := (rising_cons c r).1 h
    simp only [List.filter]
    split
    · refine (rising_cons _ _).2 ⟨?_, ih hc.2⟩
      have := hc.1
      simp only [above, List.all_eq_true, decide_eq_true_eq] at this ⊢
      intro x hx; exact this x (List.mem_filter.1 hx).1
    · exact ih hc.2

theorem mem_tput {α : Type} {t : Table α} {k : Nat} {v : α} {c : Nat × α} (h : c ∈ tput t k v) : c = (k, v) ∨ c ∈ t := by
  induction t with
  | nil => exact .inl (by simpa [tput] using h)
  | cons b r ih =>
    simp only [tput] at h
    split at h
    · exact (List.mem_cons.1 h).imp_right id
    · split at h
      · exact (List.mem_cons.1 h).imp_right (List.mem_cons_of_mem _)
      · rcases List.mem_cons.1 h with h | h
        · exact .inr (h ▸ List.mem_cons_self ..)
        · exact (ih h).imp_right (List.mem_cons_of_mem _)

theorem canonical_filter {α : Type} [DecidableEq α] {d : α} {t : Table α} (p : Nat × α → Bool) (h : canonical d t = true) :
    canonical d (t.filter p) = true := by
  simp only [canonical, Bool.and_eq_true, List.all_eq_true] at h ⊢
  exact ⟨rising_filter p h.1, fun c hc => h.2 c (List.mem_filter.1 hc).1⟩

theorem canonical_tset {α : Type} [DecidableEq α] {d : α} {t : Table α} (k : Nat) (v : α) (h : canonical d t = true) :
    canonical d (tset d t k v) = true := by
  unfold tset tdel
  split
  · exact canonical_filter _ h
  · simp only [canonical, Bool.and_eq_true, List.all_eq_true] at h ⊢
    refine ⟨rising_tput k v h.1, fun c hc => ?_⟩
    rcases mem_tput hc with rfl | hc
    · simpa using ‹¬ v = d›
    · exact h.2 c hc

/-! ## Memory -/

theorem wf_nil : Memory.wf [] = true := rfl

/-- A byte written keeps the canonical form. -/
theorem wf_wr8 {m : Memory} (a : Nat) (v : Byte) (h : Memory.wf m = true) : Memory.wf (wr8 m a v) = true := canonical_tset a v h

/-- Bytes written keep the canonical form. -/
theorem wf_wrBytes {m : Memory} (a : Nat) (bs : List Byte) (h : Memory.wf m = true) : Memory.wf (wrBytes m a bs) = true := by
  induction bs generalizing m a with
  | nil => exact h
  | cons b bs ih => exact ih (a + 1) (wf_wr8 a b h)

/-- A value written keeps the canonical form. -/
theorem wf_wrNat {m : Memory} (a n v : Nat) (h : Memory.wf m = true) : Memory.wf (wrNat m a n v) = true := wf_wrBytes a _ h

/-- A range taken out keeps the canonical form. -/
theorem wf_filter {m : Memory} (p : Nat × Byte → Bool) (h : Memory.wf m = true) : Memory.wf (m.filter p) = true := canonical_filter p h

theorem rd8_wr8 (m : Memory) (a : Nat) (v : Byte) (b : Nat) : rd8 (wr8 m a v) b = if a = b then v else rd8 m b := tget_tset ..

/-- A read after a write to the same place gives the value written. -/
@[simp] theorem rd8_wr8_self (m : Memory) (a : Nat) (v : Byte) : rd8 (wr8 m a v) a = v := by simp [rd8_wr8]

/-- A write leaves every other place alone. -/
theorem rd8_wr8_ne (m : Memory) {a b : Nat} (v : Byte) (h : a ≠ b) : rd8 (wr8 m a v) b = rd8 m b := by simp [rd8_wr8, h]

/-- What a byte reads as after bytes were written. -/
theorem rd8_wrBytes (m : Memory) (a : Nat) (bs : List Byte) (b : Nat) :
    rd8 (wrBytes m a bs) b = if a ≤ b ∧ b < a + bs.length then bs.getD (b - a) 0 else rd8 m b := by
  induction bs generalizing m a with
  | nil => rw [if_neg (by rw [List.length_nil]; omega)]; rfl
  | cons x bs ih =>
    simp only [wrBytes, ih, rd8_wr8, List.length_cons]
    by_cases h : a = b
    · subst h; rw [if_neg (by omega), if_pos rfl, if_pos (by omega), Nat.sub_self]; rfl
    · by_cases h2 : a + 1 ≤ b ∧ b < a + 1 + bs.length
      · have : b - a = (b - (a + 1)) + 1 := by omega
        rw [if_pos h2, if_pos (by omega), this]; simp
      · rw [if_neg h2, if_neg h, if_neg (by omega)]

/-- Bytes written leave every other place alone. -/
theorem rd8_wrBytes_out (m : Memory) (a : Nat) (bs : List Byte) (b : Nat) (h : ¬ (a ≤ b ∧ b < a + bs.length)) :
    rd8 (wrBytes m a bs) b = rd8 m b := by rw [rd8_wrBytes, if_neg h]

theorem length_rdBytes (m : Memory) (a n : Nat) : (rdBytes m a n).length = n := by
  induction n generalizing a with
  | zero => rfl
  | succ n ih => simp [rdBytes, ih]

theorem getD_rdBytes (m : Memory) (a n j : Nat) (h : j < n) : (rdBytes m a n).getD j 0 = rd8 m (a + j) := by
  induction n generalizing a j with
  | zero => omega
  | succ n ih =>
    cases j with
    | zero => simp [rdBytes]
    | succ j => simp only [rdBytes, List.getD_cons_succ]; rw [ih (a + 1) j (by omega)]; congr 1; omega

/-- Bytes read back where they were written. -/
theorem rdBytes_wrBytes (m : Memory) (a : Nat) (bs : List Byte) : rdBytes (wrBytes m a bs) a bs.length = bs := by
  apply List.ext_getElem
  · simp [length_rdBytes]
  · intro j h1 h2
    have := getD_rdBytes (wrBytes m a bs) a bs.length j h2
    rw [rd8_wrBytes, if_pos (by omega)] at this
    simpa [List.getD, h1, h2] using this

end Sys2Proof.Machine
end

