-- ==== Sys2Proof/Laws/Regs.lean ====
section
/-! SUPPORT. What writing registers does, and what an instruction that lies in the registers of its lanes leaves: `runRegs` once for
immediate and once for deferred results. -/

namespace Sys2Proof.Laws

open Sys2Proof.Machine Sys2Proof.Safety

/-! ## Keys and lanes -/

theorem groupOf_p_lt (s : State) : (groupOf s).p < 64 := Nat.mod_lt _ (by decide)

theorem mem_lanesOf {m : Word} {l : Nat} (h : l ∈ lanesOf m) : l < 32 := List.mem_range.1 (List.mem_filter.1 h).1

theorem lane_lt {s : State} {l : Nat} (h : l ∈ lanes s) : l < 32 := mem_lanesOf (List.mem_filter.1 h).1

theorem lane_live {s : State} {l : Nat} (h : l ∈ lanes s) : tfind s.threads ((groupOf s).tk l) = some (lane s l) := by
  have := (List.mem_filter.1 h).2
  obtain ⟨t, ht⟩ := Option.isSome_iff_exists.1 this
  simp [lane, threadAt, tget, ht]

theorem lanes_nodup (s : State) : (lanes s).Nodup := by
  unfold lanes activeLanes lanesOf
  exact (List.nodup_range.filter _).filter _

theorem tk_inj {g : Group} {l k : Nat} (h : g.tk l = g.tk k) : l = k := by
  simp only [Group.tk, tkey] at h; omega

theorem ckOfT_tk {g : Group} {l : Nat} (hp : g.p < 64) (hl : l < 32) : ckOfT (g.tk l) = g.ck := by
  simp only [Group.tk, tkey, pkey, ckOfT]; omega

theorem posOfT_tk {g : Group} {l : Nat} (hp : g.p < 64) (hl : l < 32) : posOfT (g.tk l) = g.p := by
  simp only [Group.tk, tkey, pkey, posOfT]; omega

theorem laneOfT_tk {g : Group} {l : Nat} (hl : l < 32) : laneOfT (g.tk l) = l := by
  simp only [Group.tk, tkey, pkey, laneOfT]; omega

theorem regKey_inj {ck p a b l k : Nat} (hl : l < 32) (hk : k < 32) (h : regKey ck p a l = regKey ck p b k) : a = b ∧ l = k := by
  simp only [regKey] at h; omega

/-! ## Writing one destination -/

@[simp] theorem writeDest_threads (s : State) (tk seq : Nat) (d : Dest) (v : Word) : (writeDest s tk seq d v).threads = s.threads := by
  cases d <;> simp only [writeDest] <;> (try split) <;> rfl

/-- Registers and troupes are all that a write of a destination changes. -/
theorem writeDest_frame (s : State) (tk seq : Nat) (d : Dest) (v : Word) :
    writeDest s tk seq d v = { s with regs := (writeDest s tk seq d v).regs, badRegs := (writeDest s tk seq d v).badRegs,
                                      cregs := (writeDest s tk seq d v).cregs, cregSeq := (writeDest s tk seq d v).cregSeq,
                                      cregLast := (writeDest s tk seq d v).cregLast, troupes := (writeDest s tk seq d v).troupes } := by
  cases d <;> simp only [writeDest] <;> (try split) <;> rfl

theorem writeDest_regs (s : State) (tk seq : Nat) (d : Dest) (v : Word) (k : Nat) :
    tget 0 (writeDest s tk seq d v).regs k =
      match d with
      | .alloc a => if regKey (ckOfT tk) (posOfT tk) a (laneOfT tk) = k then v else tget 0 s.regs k
      | _ => tget 0 s.regs k := by
  cases d with
  | zero => rfl
  | alloc a => simp [writeDest, tget_tset]
  | kreg n => simp [writeDest]
  | creg n => simp only [writeDest]; split <;> rfl

/-- A write of an allocation register makes it good (R165). -/
theorem writeDest_badRegs (s : State) (tk seq : Nat) (d : Dest) (v : Word) (k : Nat) :
    k ∈ (writeDest s tk seq d v).badRegs ↔ k ∈ s.badRegs ∧ ∀ a, d = .alloc a → k ≠ regKey (ckOfT tk) (posOfT tk) a (laneOfT tk) := by
  cases d with
  | zero => simp [writeDest]
  | alloc a => simp [writeDest]
  | kreg n => simp [writeDest]
  | creg n => simp only [writeDest]; split <;> simp

theorem writeDests_nil (s : State) (tk seq : Nat) : writeDests s tk seq [] = s := rfl

theorem writeDests_cons (s : State) (tk seq : Nat) (w : Dest × Word) (ws : List (Dest × Word)) :
    writeDests s tk seq (w :: ws) = writeDests (writeDest s tk seq w.1 w.2) tk seq ws := rfl

@[simp] theorem writeDests_threads (s : State) (tk seq : Nat) (ws : List (Dest × Word)) : (writeDests s tk seq ws).threads = s.threads := by
  induction ws generalizing s with
  | nil => rfl
  | cons w ws ih => rw [writeDests_cons, ih, writeDest_threads]

theorem writeDests_frame (s : State) (tk seq : Nat) (ws : List (Dest × Word)) :
    writeDests s tk seq ws = { s with regs := (writeDests s tk seq ws).regs, badRegs := (writeDests s tk seq ws).badRegs,
                                      cregs := (writeDests s tk seq ws).cregs, cregSeq := (writeDests s tk seq ws).cregSeq,
                                      cregLast := (writeDests s tk seq ws).cregLast, troupes := (writeDests s tk seq ws).troupes } := by
  induction ws generalizing s with
  | nil => rfl
  | cons w ws ih => rw [writeDests_cons, ih, writeDest_frame]

/-! ## The fates of lanes that pass -/

theorem take_one_nil {α : Type} {l : List α} (h : l = []) : l.take 1 = [] := by subst h; rfl

theorem hazardsIn_none {t : Thread} {r : Nat × Nat} (h : (fieldsOf r).all (fun n => !outstanding t n) = true) : hazardsIn t r = [] := by
  have hf : (fieldsOf r).filter (outstanding t) = [] := by
    apply List.filter_eq_nil_iff.2
    intro n hn
    have := List.all_eq_true.1 h n hn
    simpa using this
  simp [hazardsIn, hf]

theorem hazardOf_none {t : Thread} {rs : List (Nat × Nat)} (h : rs.all (fun r => (fieldsOf r).all (fun n => !outstanding t n)) = true) :
    hazardOf t rs = none := by
  have : rs.flatMap (hazardsIn t) = [] := by
    apply List.flatMap_eq_nil_iff.2
    intro r hr
    exact hazardsIn_none (List.all_eq_true.1 h r hr)
  simp [hazardOf, this, List.eraseDups, List.eraseDupsBy, List.eraseDupsBy.loop, pickHazard]

/-- The register named by number is a single one. -/
theorem indirectReg_one {s : State} {g : Group} {i : Instr} {l : Nat} {r : Nat × Nat} (h : r ∈ indirectReg s g i l) : r = (r.1, 1) := by
  unfold indirectReg at h
  split at h
  · dsimp only at h; split at h <;> simp at h; rw [h]
  · dsimp only at h; split at h <;> simp at h; rw [h]
  · simp at h

/-- A lane that passes reaches the instruction's own checks. -/
theorem preAct_none {i : Instr} {s : State} {l : Nat} (h : lanePasses i s l = true) : preAct s (groupOf s) i l = none := by
  simp only [lanePasses, noHazard, Bool.and_eq_true, Bool.or_eq_true, Bool.not_eq_true', beq_iff_eq, Option.isNone_iff_eq_none] at h
  obtain ⟨⟨⟨⟨⟨⟨h1, h0⟩, h2⟩, h3⟩, h5⟩, h4⟩, h6⟩ := h
  have hx : hazardIn s (groupOf s) i l = none := by
    have : (indirectReg s (groupOf s) i l).all (fun r => (fieldsOf r).all (fun n => !outstanding (lane s l) n)) = true := by
      refine List.all_eq_true.2 (fun r hr => ?_)
      have := List.all_eq_true.1 h0 r hr
      rw [indirectReg_one hr]
      simpa [fieldsOf] using this
    simp only [hazardIn, show threadAt s ((groupOf s).tk l) = lane s l from rfl, hazardOf_none h1, hazardOf_none this]
  unfold preAct
  simp only [show threadAt s ((groupOf s).tk l) = lane s l from rfl, hx, h2, h5, Bool.false_eq_true, if_false]
  have : (writesK i && (groupOf s).mask != (troupeAt s (groupOf s).ck (groupOf s).p).lmask) = false := by
    rcases h3 with h | h <;> simp [h]
  rw [this]
  simp only [Bool.false_eq_true, if_false]
  cases hr : (lane s l).region with
  | none => exact h6
  | some r => rw [hr] at h4; simp at h4; simp [h4, h6]

theorem ready_lane {i : Instr} {s : State} (h : Ready i s) {l : Nat} (hl : l ∈ lanes s) : lanePasses i s l = true := by
  simp only [Ready, allPass, Bool.and_eq_true] at h
  exact List.all_eq_true.1 h.2 l hl

theorem ready_wf {i : Instr} {s : State} (h : Ready i s) : i.wellFormed = true := by
  simp only [Ready, allPass, Bool.and_eq_true] at h
  exact h.1

/-- The lanes that reach the instruction's own checks are all that execute it. -/
theorem goLanes_eq {i : Instr} {s : State} (h : Ready i s) : goLanes s (groupOf s) i = lanes s := by
  unfold goLanes
  apply List.filter_eq_self.2
  intro l hl
  simp [preAct_none (ready_lane h hl)]

/-- The fates of lanes that all pass, where the effect lies in each lane. -/
theorem laneFates_pure (f : Nat → LaneAct) (s : State) (ls : List (Nat × Option LaneAct)) (h : ∀ x ∈ ls, x.2 = none) :
    laneFates (fun s' l => (s', f l)) s ls = (s, ls.map (fun x => (x.1, f x.1))) := by
  induction ls with
  | nil => rfl
  | cons x r ih =>
    obtain ⟨l, o⟩ := x
    have ho : o = none := h (l, o) (List.mem_cons_self ..)
    subst ho
    simp only [laneFates, ih (fun y hy => h y (List.mem_cons_of_mem _ hy)), List.map_cons]

theorem runRegs_eq {i : Instr} {s : State} (h : Ready i s) (f : Nat → LaneAct) :
    runRegs i s f = regionPass s (groupOf s) i ((lanes s).map (fun l => (l, f l)))
      (applyActs (groupOf s) i.marker (s.issueSeq + 1) (issued s) ((lanes s).map (fun l => (l, f l)))) := by
  unfold runRegs runWord
  have : laneFates (fun s' l => (s', f l)) (issued s) ((activeLanes s (groupOf s)).map (fun l => (l, preAct s (groupOf s) i l)))
      = (issued s, (lanes s).map (fun l => (l, f l))) := by
    rw [laneFates_pure]
    · simp [lanes]
    · intro x hx
      obtain ⟨l, hl, rfl⟩ := List.mem_map.1 hx
      exact preAct_none (ready_lane h hl)
  simp only [this]

/-! ## Immediate results -/

/-- The fields that a lane writes, as keys of its own registers. -/
def ownKey (s : State) (l n : Nat) : Nat := regKey (groupOf s).ck (groupOf s).p ((lane s l).wb.toNat + n) l

/-- What writing a lane's fields does to the module's registers. -/
theorem writeDests_regs (ck p l : Nat) (th : Thread) (tk seq : Nat) (hc : ckOfT tk = ck) (hp : posOfT tk = p) (hl : laneOfT tk = l) (hl' : l < 32)
    (ws : List (Nat × Word)) (hn : (ws.map (·.1)).Nodup) (s : State) :
    (∀ w ∈ ws, 0 < w.1 → w.1 < 112 → tget 0 (writeDests s tk seq (destsOf th ws)).regs (regKey ck p (th.wb.toNat + w.1) l) = w.2)
      ∧ ∀ k, (∀ w ∈ ws, 0 < w.1 → w.1 < 112 → k ≠ regKey ck p (th.wb.toNat + w.1) l) →
          tget 0 (writeDests s tk seq (destsOf th ws)).regs k = tget 0 s.regs k := by
  induction ws generalizing s with
  | nil => exact ⟨fun w hw => absurd hw (by simp), fun k _ => rfl⟩
  | cons w ws ih =>
    obtain ⟨n, v⟩ := w
    simp only [List.map_cons, List.nodup_cons] at hn
    by_cases h0 : n = 0
    · subst h0
      have hd : destsOf th ((0, v) :: ws) = destsOf th ws := by simp [destsOf, destOf]
      rw [hd]
      have := ih hn.2 s
      refine ⟨fun w hw h1 h2 => ?_, fun k hk => this.2 k (fun w hw => hk w (List.mem_cons_of_mem _ hw))⟩
      rcases List.mem_cons.1 hw with rfl | hw
      · exact absurd h1 (by simp)
      · exact this.1 w hw h1 h2
    · by_cases h1 : n < 112
      · have hd : destsOf th ((n, v) :: ws) = (.alloc (th.wb.toNat + n), v) :: destsOf th ws := by simp [destsOf, destOf, h0, h1]
        rw [hd, writeDests_cons]
        have := ih hn.2 (writeDest s tk seq (.alloc (th.wb.toNat + n)) v)
        have hfar : ∀ w ∈ ws, 0 < w.1 → w.1 < 112 → regKey ck p (th.wb.toNat + n) l ≠ regKey ck p (th.wb.toNat + w.1) l := by
          intro w hw _ _ he
          have := (regKey_inj hl' hl' he).1
          exact hn.1 (List.mem_map.2 ⟨w, hw, by omega⟩)
        refine ⟨fun w hw h2 h3 => ?_, fun k hk => ?_⟩
        · rcases List.mem_cons.1 hw with rfl | hw
          · rw [this.2 _ hfar, writeDest_regs]; simp [hc, hp, hl]
          · exact this.1 w hw h2 h3
        · rw [this.2 k (fun w hw => hk w (List.mem_cons_of_mem _ hw)), writeDest_regs]
          have : regKey ck p (th.wb.toNat + n) l ≠ k := fun e => hk (n, v) (List.mem_cons_self ..) (by omega) h1 e.symm
          simp [hc, hp, hl, this]
      · have hd : ∃ d, destsOf th ((n, v) :: ws) = (d, v) :: destsOf th ws ∧ ∀ a, d ≠ .alloc a := by
          by_cases h2 : n < 120
          · exact ⟨.kreg (n - 112), by simp [destsOf, destOf, h0, h1, h2], by simp⟩
          · exact ⟨.creg (n - 120), by simp [destsOf, destOf, h0, h1, h2], by simp⟩
        obtain ⟨d, hd, hd'⟩ := hd
        rw [hd, writeDests_cons]
        have := ih hn.2 (writeDest s tk seq d v)
        have hsame : ∀ k, tget 0 (writeDest s tk seq d v).regs k = tget 0 s.regs k := by
          intro k; rw [writeDest_regs]; cases d with
          | zero => rfl
          | alloc a => exact absurd rfl (hd' a)
          | kreg n => rfl
          | creg n => rfl
        refine ⟨fun w hw h2 h3 => ?_, fun k hk => ?_⟩
        · rcases List.mem_cons.1 hw with rfl | hw
          · exact absurd h3 (by simpa using h1)
          · exact this.1 w hw h2 h3
        · rw [this.2 k (fun w hw => hk w (List.mem_cons_of_mem _ hw)), hsame]

/-- What writing a lane's fields does to the spoiled registers. -/
theorem writeDests_badRegs (ck p l : Nat) (th : Thread) (tk seq : Nat) (hc : ckOfT tk = ck) (hp : posOfT tk = p) (hl : laneOfT tk = l)
    (ws : List (Nat × Word)) (s : State) (k : Nat) :
    k ∈ (writeDests s tk seq (destsOf th ws)).badRegs ↔
      k ∈ s.badRegs ∧ ∀ w ∈ ws, 0 < w.1 → w.1 < 112 → k ≠ regKey ck p (th.wb.toNat + w.1) l := by
  induction ws generalizing s with
  | nil => simp [destsOf, writeDests]
  | cons w ws ih =>
    obtain ⟨n, v⟩ := w
    simp only [List.forall_mem_cons]
    cases hd : destOf th n with
    | none =>
      have e : destsOf th ((n, v) :: ws) = destsOf th ws := by simp [destsOf, hd]
      have hm : n = 0 := by
        unfold destOf at hd; split at hd; assumption; split at hd; simp at hd; split at hd <;> simp at hd
      rw [e, ih]; simp [hm]
    | some d =>
      have e : destsOf th ((n, v) :: ws) = (d, v) :: destsOf th ws := by simp [destsOf, hd]
      rw [e, writeDests_cons, ih, writeDest_badRegs, hc, hp, hl, and_assoc]
      refine and_congr_right (fun _ => and_congr_left (fun _ => ⟨fun h h0 h1 => ?_, fun h a ha => ?_⟩))
      · refine h _ ?_
        unfold destOf at hd; rw [if_neg (by omega), if_pos h1] at hd; exact (Option.some.inj hd).symm
      · subst ha
        unfold destOf at hd
        split at hd; simp at hd
        split at hd
        · rename_i h0 h1
          cases Option.some.inj hd; exact h (Nat.pos_of_ne_zero h0) h1
        · split at hd <;> simp at hd

/-! ## k and c registers -/

theorem pkey_split {tk ck p : Nat} (hc : ckOfT tk = ck) (hp : posOfT tk = p) : pkey (ckOfT tk) (posOfT tk) = pkey ck p := by rw [hc, hp]

theorem troupeAt_updTroupe (s : State) (ck p : Nat) (f : Troupe → Troupe) (h : (tfind s.troupes (pkey ck p)).isSome) :
    troupeAt (updTroupe s ck p f) ck p = f (troupeAt s ck p) := by
  obtain ⟨t, ht⟩ := Option.isSome_iff_exists.1 h
  simp [troupeAt, tget, tfind_tupd, ht]

/-- What one write does to a k register and its write number. -/
theorem writeDest_kreg (s : State) (tk seq ck p : Nat) (hc : ckOfT tk = ck) (hp : posOfT tk = p) (d : Dest) (v : Word)
    (h : ∀ n, d = .kreg n → (tfind s.troupes (pkey ck p)).isSome) (n : Nat) :
    tget 0 (troupeAt (writeDest s tk seq d v) ck p).kregs n =
        (if d = .kreg n ∧ tget 0 (troupeAt s ck p).kseq n < seq then v else tget 0 (troupeAt s ck p).kregs n)
      ∧ tget 0 (troupeAt (writeDest s tk seq d v) ck p).kseq n =
        (if d = .kreg n ∧ tget 0 (troupeAt s ck p).kseq n < seq then seq else tget 0 (troupeAt s ck p).kseq n) := by
  cases d with
  | zero => simp [writeDest]
  | alloc a => simp [writeDest, troupeAt]
  | creg m => simp only [writeDest]; split <;> simp [troupeAt]
  | kreg m =>
    have hs := h m rfl
    simp only [writeDest, hc, hp]
    rw [troupeAt_updTroupe _ _ _ _ hs]
    by_cases hm : m = n
    · subst hm; by_cases hq : tget 0 (troupeAt s ck p).kseq m < seq <;> simp [hq]
    · have : ¬ (Dest.kreg m = Dest.kreg n) := by simpa using hm
      simp only [this, false_and, if_false]
      split
      · exact ⟨by rw [tget_tset_ne _ _ _ hm], by rw [tget_tset_ne _ _ _ hm]⟩
      · exact ⟨rfl, rfl⟩

/-- What one write does to the troupes: k registers and their write numbers alone. -/
theorem writeDest_troupes (s : State) (tk seq ck p : Nat) (hc : ckOfT tk = ck) (hp : posOfT tk = p) (d : Dest) (v : Word) :
    (∀ k, k ≠ pkey ck p → tfind (writeDest s tk seq d v).troupes k = tfind s.troupes k)
      ∧ { troupeAt (writeDest s tk seq d v) ck p with kregs := [], kseq := [] } = { troupeAt s ck p with kregs := [], kseq := [] }
      ∧ (tfind (writeDest s tk seq d v).troupes (pkey ck p)).isSome = (tfind s.troupes (pkey ck p)).isSome := by
  cases d with
  | zero => exact ⟨fun k _ => rfl, rfl, rfl⟩
  | alloc a => exact ⟨fun k _ => rfl, rfl, rfl⟩
  | creg m => simp only [writeDest]; split <;> exact ⟨fun k _ => rfl, rfl, rfl⟩
  | kreg m =>
    simp only [writeDest, hc, hp]
    refine ⟨fun k hk => ?_, ?_, ?_⟩
    · simp only [updTroupe_troupes]; rw [tfind_tupd_ne _ _ (fun e => hk e.symm)]
    · unfold troupeAt tget
      simp only [updTroupe_troupes]
      rw [tfind_tupd_self]
      cases tfind s.troupes (pkey ck p) with
      | none => rfl
      | some t => simp only [Option.map_some, Option.getD_some]; split <;> rfl
    · simp only [updTroupe_troupes]; rw [tfind_tupd_self]; simp

/-- A write of c register n by a section's instruction with issue number `seq` takes effect now (R133). -/
def cregOpen (s : State) (ck p seq n : Nat) : Prop :=
  tget 0 s.cregSeq ((ck * 8 + n) * 4 + p % 4) ≤ seq ∧ tget 0 s.cregLast (ck * 8 + n) ≤ cregStamp s ck p

/-- What one write does to a c register of the class, and to whether a later one of the same instruction takes effect. -/
theorem writeDest_creg (s : State) (tk seq ck p : Nat) (hc : ckOfT tk = ck) (hp : posOfT tk = p) (d : Dest) (v : Word) (n : Nat) :
    (cregOpen (writeDest s tk seq d v) ck p seq n ↔ cregOpen s ck p seq n)
      ∧ (cregOpen s ck p seq n → tget 0 (writeDest s tk seq d v).cregs (ck * 8 + n) = if d = .creg n then v else tget 0 s.cregs (ck * 8 + n))
      ∧ (¬ cregOpen s ck p seq n → tget 0 (writeDest s tk seq d v).cregs (ck * 8 + n) = tget 0 s.cregs (ck * 8 + n)) := by
  cases d with
  | zero => simp [writeDest]
  | alloc a => simp [writeDest, cregOpen, cregStamp, coreCycle, coreOf, clsAt]
  | kreg m => simp [writeDest, cregOpen, cregStamp, coreCycle, coreOf, clsAt]
  | creg m =>
    simp only [writeDest, hc, hp]
    by_cases hm : m = n
    · subst hm
      by_cases hq : tget 0 s.cregSeq ((ck * 8 + m) * 4 + p % 4) ≤ seq ∧ tget 0 s.cregLast (ck * 8 + m) ≤ cregStamp s ck p
      · rw [if_pos hq]
        refine ⟨⟨fun _ => hq, fun _ => ⟨?_, ?_⟩⟩, fun _ => by simp, fun h => absurd hq h⟩
        · simp
        · simp [cregStamp, coreCycle, coreOf, clsAt]
      · rw [if_neg hq]
        exact ⟨Iff.rfl, fun h => absurd h hq, fun _ => rfl⟩
    · have h1 : ¬ (Dest.creg m = Dest.creg n) := by simpa using hm
      have h2 : ck * 8 + m ≠ ck * 8 + n := by omega
      have h3 : (ck * 8 + m) * 4 + p % 4 ≠ (ck * 8 + n) * 4 + p % 4 := by omega
      simp only [h1, if_false]
      split
      · refine ⟨?_, fun _ => tget_tset_ne _ _ _ h2, fun _ => tget_tset_ne _ _ _ h2⟩
        simp only [cregOpen, cregStamp, coreCycle, coreOf, clsAt]
        rw [tget_tset_ne _ _ _ h2, tget_tset_ne _ _ _ h3]
      · exact ⟨Iff.rfl, fun _ => rfl, fun _ => rfl⟩

/-- c registers of other classes are not touched by a write of c0 to c7. -/
theorem writeDest_ccs (s : State) (tk seq ck : Nat) (hc : ckOfT tk = ck) (d : Dest) (v : Word) (hd : ∀ n, d = .creg n → n < 8) (k : Nat) (hk : k / 8 ≠ ck) :
    tget 0 (writeDest s tk seq d v).cregs k = tget 0 s.cregs k := by
  cases d with
  | zero => rfl
  | alloc a => rfl
  | kreg m => rfl
  | creg m =>
    have := hd m rfl
    simp only [writeDest, hc]
    split
    · exact tget_tset_ne _ _ _ (by omega)
    · rfl

/-! ## The writes of one lane -/

theorem given_cons (n m : Nat) (v : Word) (ws : List (Nat × Word)) : given ((m, v) :: ws) n = if m = n then some v else given ws n := by
  unfold given
  rw [List.find?_cons]
  by_cases h : m = n
  · simp [h]
  · have : (m == n) = false := by simpa using h
    simp [h, this]

theorem given_none {n : Nat} {ws : List (Nat × Word)} (h : n ∉ ws.map (·.1)) : given ws n = none := by
  induction ws with
  | nil => rfl
  | cons w ws ih =>
    obtain ⟨m, v⟩ := w
    simp only [List.map_cons, List.mem_cons, not_or] at h
    rw [given_cons, if_neg (fun e => h.1 e.symm), ih h.2]

theorem writeDests_kregs (tk seq ck p : Nat) (hc : ckOfT tk = ck) (hp : posOfT tk = p) (th : Thread) (ws : List (Nat × Word))
    (hn : (ws.map (·.1)).Nodup) (n : Nat) (hn8 : n < 8) (s : State)
    (h : (∃ m ∈ ws.map (·.1), 112 ≤ m ∧ m < 120) → (tfind s.troupes (pkey ck p)).isSome) :
    tget 0 (troupeAt (writeDests s tk seq (destsOf th ws)) ck p).kregs n =
        (if tget 0 (troupeAt s ck p).kseq n < seq then (given ws (112 + n)).getD (tget 0 (troupeAt s ck p).kregs n)
         else tget 0 (troupeAt s ck p).kregs n)
      ∧ tget 0 (troupeAt (writeDests s tk seq (destsOf th ws)) ck p).kseq n =
        (if tget 0 (troupeAt s ck p).kseq n < seq ∧ (given ws (112 + n)).isSome then seq else tget 0 (troupeAt s ck p).kseq n) := by
  induction ws generalizing s with
  | nil => simp [destsOf, writeDests, given]
  | cons w ws ih =>
    obtain ⟨m, v⟩ := w
    simp only [List.map_cons, List.nodup_cons] at hn
    cases hd : destOf th m with
    | none =>
      have e : destsOf th ((m, v) :: ws) = destsOf th ws := by simp [destsOf, hd]
      have hm : m = 0 := by
        unfold destOf at hd; split at hd; assumption; split at hd; simp at hd; split at hd <;> simp at hd
      have hg : given ((m, v) :: ws) (112 + n) = given ws (112 + n) := by rw [given_cons, if_neg (by omega)]
      rw [e, hg]
      exact ih hn.2 s (fun ⟨m', h1, h2⟩ => h ⟨m', List.mem_cons_of_mem _ h1, h2⟩)
    | some d =>
      have e : destsOf th ((m, v) :: ws) = (d, v) :: destsOf th ws := by simp [destsOf, hd]
      have hk : ∀ j, d = .kreg j → 112 ≤ m ∧ m < 120 ∧ j = m - 112 := by
        intro j hj; subst hj
        unfold destOf at hd; split at hd; simp at hd; split at hd; simp at hd
        split at hd
        · simp at hd; omega
        · simp at hd
      have hsome : ∀ j, d = .kreg j → (tfind s.troupes (pkey ck p)).isSome := by
        intro j hj; have := hk j hj
        exact h ⟨m, List.mem_cons_self .., this.1, this.2.1⟩
      have step := writeDest_kreg s tk seq ck p hc hp d v hsome n
      have tr := (writeDest_troupes s tk seq ck p hc hp d v).2.2
      have rest := ih hn.2 (writeDest s tk seq d v) (fun ⟨m', h1, h2⟩ => by
        rw [tr]; exact h ⟨m', List.mem_cons_of_mem _ h1, h2⟩)
      rw [e, writeDests_cons, rest.1, rest.2, step.1, step.2, given_cons]
      by_cases hmn : m = 112 + n
      · have hdk : d = .kreg n := by
          have : destOf th m = some (.kreg (m - 112)) := by
            unfold destOf; rw [if_neg (by omega), if_neg (by omega), if_pos (by omega)]
          rw [hd] at this; rw [Option.some.inj this, show m - 112 = n by omega]
        have hg : given ws (112 + n) = none := given_none (hmn ▸ hn.1)
        by_cases hq : tget 0 (troupeAt s ck p).kseq n < seq <;> simp [hdk, hmn, hg, hq]
      · have hdk : ¬ d = .kreg n := by
          intro hj; have := hk n hj; omega
        simp [hdk, hmn]

theorem writeDests_troupes (tk seq ck p : Nat) (hc : ckOfT tk = ck) (hp : posOfT tk = p) (ds : List (Dest × Word)) (s : State) :
    (∀ k, k ≠ pkey ck p → tfind (writeDests s tk seq ds).troupes k = tfind s.troupes k)
      ∧ { troupeAt (writeDests s tk seq ds) ck p with kregs := [], kseq := [] } = { troupeAt s ck p with kregs := [], kseq := [] }
      ∧ (tfind (writeDests s tk seq ds).troupes (pkey ck p)).isSome = (tfind s.troupes (pkey ck p)).isSome := by
  induction ds generalizing s with
  | nil => exact ⟨fun k _ => rfl, rfl, rfl⟩
  | cons w ws ih =>
    rw [writeDests_cons]
    have a := ih (writeDest s tk seq w.1 w.2)
    have b := writeDest_troupes s tk seq ck p hc hp w.1 w.2
    exact ⟨fun k hk => (a.1 k hk).trans (b.1 k hk), a.2.1.trans b.2.1, a.2.2.trans b.2.2⟩

theorem writeDests_cregs (tk seq ck p : Nat) (hc : ckOfT tk = ck) (hp : posOfT tk = p) (th : Thread) (ws : List (Nat × Word))
    (hn : (ws.map (·.1)).Nodup) (n : Nat) (s : State) :
    (cregOpen (writeDests s tk seq (destsOf th ws)) ck p seq n ↔ cregOpen s ck p seq n)
      ∧ (cregOpen s ck p seq n →
          tget 0 (writeDests s tk seq (destsOf th ws)).cregs (ck * 8 + n) = (given ws (120 + n)).getD (tget 0 s.cregs (ck * 8 + n)))
      ∧ (¬ cregOpen s ck p seq n → tget 0 (writeDests s tk seq (destsOf th ws)).cregs (ck * 8 + n) = tget 0 s.cregs (ck * 8 + n)) := by
  induction ws generalizing s with
  | nil => simp [destsOf, writeDests, given]
  | cons w ws ih =>
    obtain ⟨m, v⟩ := w
    simp only [List.map_cons, List.nodup_cons] at hn
    cases hd : destOf th m with
    | none =>
      have e : destsOf th ((m, v) :: ws) = destsOf th ws := by simp [destsOf, hd]
      have hm : m = 0 := by
        unfold destOf at hd; split at hd; assumption; split at hd; simp at hd; split at hd <;> simp at hd
      have hg : given ((m, v) :: ws) (120 + n) = given ws (120 + n) := by rw [given_cons, if_neg (by omega)]
      rw [e, hg]
      exact ih hn.2 s
    | some d =>
      have e : destsOf th ((m, v) :: ws) = (d, v) :: destsOf th ws := by simp [destsOf, hd]
      have hk : ∀ j, d = .creg j → 120 ≤ m ∧ j = m - 120 := by
        intro j hj; subst hj
        unfold destOf at hd; split at hd; simp at hd; split at hd; simp at hd
        split at hd
        · simp at hd
        · simp at hd; omega
      obtain ⟨s1, s2, s3⟩ := writeDest_creg s tk seq ck p hc hp d v n
      obtain ⟨r1, r2, r3⟩ := ih hn.2 (writeDest s tk seq d v)
      rw [e, writeDests_cons]
      refine ⟨r1.trans s1, fun h => ?_, fun h => ?_⟩
      · rw [r2 (s1.2 h), s2 h, given_cons]
        by_cases hmn : m = 120 + n
        · have hdk : d = .creg n := by
            have : destOf th m = some (.creg (m - 120)) := by
              unfold destOf; rw [if_neg (by omega), if_neg (by omega), if_neg (by omega)]
            rw [hd] at this; rw [Option.some.inj this, show m - 120 = n by omega]
          have hg : given ws (120 + n) = none := given_none (hmn ▸ hn.1)
          simp [hdk, hmn, hg]
        · have hdk : ¬ d = .creg n := by
            intro hj; have := hk n hj; omega
          simp [hdk, hmn]
      · rw [r3 (fun x => h (s1.1 x)), s3 h]

theorem writeDests_ccs (tk seq ck : Nat) (hc : ckOfT tk = ck) (th : Thread) (ws : List (Nat × Word)) (hb : ∀ w ∈ ws, w.1 < 128) (s : State) (k : Nat) (hk : k / 8 ≠ ck) :
    tget 0 (writeDests s tk seq (destsOf th ws)).cregs k = tget 0 s.cregs k := by
  induction ws generalizing s with
  | nil => rfl
  | cons w ws ih =>
    obtain ⟨m, v⟩ := w
    have hr := fun s => ih (fun w hw => hb w (List.mem_cons_of_mem _ hw)) s
    cases hd : destOf th m with
    | none =>
      have e : destsOf th ((m, v) :: ws) = destsOf th ws := by simp [destsOf, hd]
      rw [e, hr]
    | some d =>
      have e : destsOf th ((m, v) :: ws) = (d, v) :: destsOf th ws := by simp [destsOf, hd]
      rw [e, writeDests_cons, hr]
      apply writeDest_ccs s tk seq ck hc d v _ k hk
      intro j hj; subst hj
      have hm : m < 128 := hb (m, v) (List.mem_cons_self ..)
      unfold destOf at hd
      split at hd
      · exact absurd hd (by simp)
      · split at hd
        · exact absurd hd (by simp)
        · split at hd
          · exact absurd hd (by simp)
          · have := Option.some.inj hd
            injection this with e
            omega

/-! ## All lanes -/

/-- A state without what a register instruction can change. -/
def strip (s : State) : State :=
  { s with regs := [], badRegs := [], cregs := [], cregSeq := [], cregLast := [], troupes := [], threads := [] }

theorem eq_of_strip {s t : State} (h : strip t = strip s) :
    t = { s with regs := t.regs, badRegs := t.badRegs, cregs := t.cregs, cregSeq := t.cregSeq, cregLast := t.cregLast,
                 troupes := t.troupes, threads := t.threads } := by
  have e : t = { strip t with regs := t.regs, badRegs := t.badRegs, cregs := t.cregs, cregSeq := t.cregSeq, cregLast := t.cregLast,
                              troupes := t.troupes, threads := t.threads } := rfl
  rw [h] at e
  exact e

/-- A state without its threads. -/
def stripT (s : State) : State := { s with threads := [] }

theorem eq_of_stripT {s t : State} (h : stripT t = stripT s) : t = { s with threads := t.threads } := by
  have e : t = { stripT t with threads := t.threads } := rfl
  rw [h] at e
  exact e

theorem strip_writeDests (s : State) (tk seq : Nat) (ws : List (Dest × Word)) : strip (writeDests s tk seq ws) = strip s := by
  rw [writeDests_frame]; rfl

/-- The fates of lanes that each write `ws l` at once. -/
def doneActs (ls : List Nat) (ws : Nat → List (Nat × Word)) (pc : Nat → DWord) : List (Nat × LaneAct) :=
  ls.map (fun l => (l, LaneAct.done (ws l) (pc l)))

theorem uniformValue_done (n : Nat) (ls : List Nat) (ws : Nat → List (Nat × Word)) (pc : Nat → DWord) (hF : ∀ l k, (ws l).map (·.1) = (ws k).map (·.1)) :
    uniformValue n (doneActs ls ws pc) = ls.head?.bind (fun l => given (ws l) n) := by
  cases ls with
  | nil => rfl
  | cons l r =>
    simp only [doneActs, List.map_cons, uniformValue, List.head?_cons, Option.bind_some]
    show (given (ws l) n <|> uniformValue n (doneActs r ws pc)) = given (ws l) n
    cases h : given (ws l) n with
    | some v => rfl
    | none =>
      have hn : ∀ k, given (ws k) n = none := by
        intro k
        apply given_none
        rw [hF k l]
        intro hm
        obtain ⟨w, hw, rfl⟩ := List.mem_map.1 hm
        unfold given at h
        simp only [Option.map_eq_none_iff, List.find?_eq_none] at h
        exact h w hw (by simp)
      show uniformValue n (doneActs r ws pc) = none
      clear h
      induction r with
      | nil => rfl
      | cons k r ih =>
        simp only [doneActs, List.map_cons, uniformValue]
        show (given (ws k) n <|> uniformValue n (doneActs r ws pc)) = none
        rw [hn k]; exact ih

/-- A lane's writes with those of k registers made uniform. -/
def fixed (s : State) (ws : Nat → List (Nat × Word)) (l : Nat) : List (Nat × Word) :=
  (ws l).map (fun w => if 112 ≤ w.1 ∧ w.1 < 120 then (w.1, (kGiven s ws (w.1 - 112)).getD w.2) else w)

theorem fixed_fields (s : State) (ws : Nat → List (Nat × Word)) (l : Nat) : (fixed s ws l).map (·.1) = (ws l).map (·.1) := by
  simp only [fixed, List.map_map]
  apply List.map_congr_left
  intro w _; simp only [Function.comp]; split <;> rfl

theorem fixWrites_done (s : State) (ws : Nat → List (Nat × Word)) (pc : Nat → DWord) (hF : ∀ l k, (ws l).map (·.1) = (ws k).map (·.1)) (l : Nat) :
    fixWrites (doneActs (lanes s) ws pc) (ws l) = fixed s ws l := by
  unfold fixWrites fixed
  apply List.map_congr_left
  intro w _
  by_cases h : 112 ≤ w.1 ∧ w.1 < 120
  · rw [if_pos h]
    have : (decide (112 ≤ w.1) && decide (w.1 < 120)) = true := by simp [h.1, h.2]
    simp only [this, if_true]
    rw [uniformValue_done _ _ _ _ hF]
    have e : 112 + (w.1 - 112) = w.1 := by omega
    simp only [kGiven, e]
  · rw [if_neg h]
    have : (decide (112 ≤ w.1) && decide (w.1 < 120)) = false := by
      simp only [Bool.and_eq_false_iff, decide_eq_false_iff_not]
      by_cases h1 : 112 ≤ w.1
      · exact .inr (fun h2 => h ⟨h1, h2⟩)
      · exact .inl h1
    simp only [this]; rfl

/-- The state after some lanes have written and gone on. -/
def doneLanes (g : Group) (m : Bool) (seq : Nat) (ws : Nat → List (Nat × Word)) (pc : Nat → DWord) (s : State) (ls : List Nat) : State :=
  ls.foldl (fun s l => applyAct g m seq s (l, .done (ws l) (pc l))) s

theorem applyAct_done (g : Group) (m : Bool) (seq : Nat) (s : State) (l : Nat) (ws : List (Nat × Word)) (pc : DWord) :
    applyAct g m seq s (l, .done ws pc) = updThread (writeDests s (g.tk l) seq (destsOf (threadAt s (g.tk l)) ws)) (g.tk l) (goOn m pc) := rfl

/-- What some lanes have left, once they have written and gone on. -/
structure AfterLanes (s0 : State) (g : Group) (m : Bool) (seq : Nat) (ws : Nat → List (Nat × Word)) (pc : Nat → DWord) (ls : List Nat)
    (s t : State) : Prop where
  own : ∀ l ∈ ls, ∀ w ∈ ws l, 0 < w.1 → w.1 < 112 → tget 0 t.regs (regKey g.ck g.p ((threadAt s0 (g.tk l)).wb.toNat + w.1) l) = w.2
  others : ∀ k, (∀ l ∈ ls, ∀ w ∈ ws l, 0 < w.1 → w.1 < 112 → k ≠ regKey g.ck g.p ((threadAt s0 (g.tk l)).wb.toNat + w.1) l) →
    tget 0 t.regs k = tget 0 s.regs k
  kregs : ∀ n, n < 8 → tget 0 (troupeAt t g.ck g.p).kregs n =
    if tget 0 (troupeAt s g.ck g.p).kseq n < seq then (ls.head?.bind (fun l => given (ws l) (112 + n))).getD (tget 0 (troupeAt s g.ck g.p).kregs n)
    else tget 0 (troupeAt s g.ck g.p).kregs n
  cregs : ∀ n, (cregOpen s g.ck g.p seq n →
      tget 0 t.cregs (g.ck * 8 + n) = (ls.getLast?.bind (fun l => given (ws l) (120 + n))).getD (tget 0 s.cregs (g.ck * 8 + n)))
    ∧ (¬ cregOpen s g.ck g.p seq n → tget 0 t.cregs (g.ck * 8 + n) = tget 0 s.cregs (g.ck * 8 + n))
  mended : ∀ k, k ∈ t.badRegs ↔ k ∈ s.badRegs
    ∧ ∀ l ∈ ls, ∀ w ∈ ws l, 0 < w.1 → w.1 < 112 → k ≠ regKey g.ck g.p ((threadAt s0 (g.tk l)).wb.toNat + w.1) l
  ccs : ∀ k, k / 8 ≠ g.ck → tget 0 t.cregs k = tget 0 s.cregs k
  troupes : ∀ k, k ≠ pkey g.ck g.p → tfind t.troupes k = tfind s.troupes k
  troupe : { troupeAt t g.ck g.p with kregs := [], kseq := [] } = { troupeAt s g.ck g.p with kregs := [], kseq := [] }
  thread : ∀ l ∈ ls, tfind t.threads (g.tk l) = some (goOn m (pc l) (threadAt s0 (g.tk l)))
  threads : ∀ k, (∀ l ∈ ls, k ≠ g.tk l) → tfind t.threads k = tfind s.threads k
  rest : strip t = strip s

/-- What the lanes leave, by induction over them. -/
theorem doneLanes_spec (s0 : State) (g : Group) (hp : g.p < 64) (m : Bool) (seq : Nat) (ws : Nat → List (Nat × Word)) (pc : Nat → DWord)
    (hn : ∀ l, ((ws l).map (·.1)).Nodup) (hb : ∀ l, ∀ w ∈ ws l, w.1 < 128) (hF : ∀ l k, (ws l).map (·.1) = (ws k).map (·.1))
    (ls : List Nat) (s : State) (hls : ls.Nodup) (hlt : ∀ l ∈ ls, l < 32) (hlive : ∀ l ∈ ls, tfind s.threads (g.tk l) = some (threadAt s0 (g.tk l)))
    (hk : ∀ l ∈ ls, (∃ f ∈ (ws l).map (·.1), 112 ≤ f ∧ f < 120) → (tfind s.troupes (pkey g.ck g.p)).isSome) :
    AfterLanes s0 g m seq ws pc ls s (doneLanes g m seq ws pc s ls) := by
  induction ls generalizing s with
  | nil =>
    refine ⟨by simp, fun _ _ => rfl, fun n _ => ?_, fun n => ?_, fun k => ?_, fun _ _ => rfl, fun _ _ => rfl, rfl, by simp, fun _ _ => rfl, rfl⟩
    · simp [doneLanes]
    · simp [doneLanes]
    · simp [doneLanes]
  | cons l r ih =>
    have hl : l < 32 := hlt l (List.mem_cons_self ..)
    have hth : threadAt s (g.tk l) = threadAt s0 (g.tk l) := by
      simp [threadAt, tget, hlive l (List.mem_cons_self ..)]
    have hc := ckOfT_tk (g := g) hp hl
    have hpo := posOfT_tk (g := g) hp hl
    have hla := laneOfT_tk (g := g) hl
    simp only [List.nodup_cons] at hls
    let th := threadAt s0 (g.tk l)
    let u := writeDests s (g.tk l) seq (destsOf th (ws l))
    let s1 := updThread u (g.tk l) (goOn m (pc l))
    have hs1 : doneLanes g m seq ws pc s (l :: r) = doneLanes g m seq ws pc s1 r := by
      show doneLanes g m seq ws pc (applyAct g m seq s (l, .done (ws l) (pc l))) r = _
      rw [applyAct_done, hth]
    have uth : u.threads = s.threads := writeDests_threads ..
    have regs := writeDests_regs g.ck g.p l th (g.tk l) seq hc hpo hla hl (ws l) (hn l) s
    have kr := fun n hn8 => writeDests_kregs (g.tk l) seq g.ck g.p hc hpo th (ws l) (hn l) n hn8 s (hk l (List.mem_cons_self ..))
    have bad := fun k => writeDests_badRegs g.ck g.p l th (g.tk l) seq hc hpo hla (ws l) s k
    have cr := fun n => writeDests_cregs (g.tk l) seq g.ck g.p hc hpo th (ws l) (hn l) n s
    have ccs := fun k hk => writeDests_ccs (g.tk l) seq g.ck hc th (ws l) (hb l) s k hk
    have tr := writeDests_troupes (g.tk l) seq g.ck g.p hc hpo (destsOf th (ws l)) s
    have fr := writeDests_frame s (g.tk l) seq (destsOf th (ws l))
    have hfar : ∀ k ∈ r, g.tk l ≠ g.tk k := fun k hk e => hls.1 (tk_inj e ▸ hk)
    have rest := ih s1 hls.2 (fun k hk => hlt k (List.mem_cons_of_mem _ hk))
      (fun k hk => by
        show tfind (tupd u.threads (g.tk l) (goOn m (pc l))) (g.tk k) = _
        rw [tfind_tupd_ne _ _ (hfar k hk), uth, hlive k (List.mem_cons_of_mem _ hk)])
      (fun k hk1 hk2 => by
        show (tfind u.troupes (pkey g.ck g.p)).isSome
        rw [tr.2.2]; exact hk k (List.mem_cons_of_mem _ hk1) hk2)
    rw [hs1]
    obtain ⟨a1, a2, a3, a4, aB, a5, a6, a7, a8, a9, a10⟩ := rest
    refine ⟨?_, ?_, ?_, ?_, ?_, ?_, ?_, ?_, ?_, ?_, ?_⟩
    · intro k hk w hw h1 h2
      rcases List.mem_cons.1 hk with rfl | hk
      · rw [a2]
        · exact regs.1 w hw h1 h2
        · intro j hj w' _ _ _ e
          have := (regKey_inj hl (hlt j (List.mem_cons_of_mem _ hj)) e).2
          exact hls.1 (this ▸ hj)
      · exact a1 k hk w hw h1 h2
    · intro k hk
      rw [a2 k (fun j hj => hk j (List.mem_cons_of_mem _ hj))]
      exact regs.2 k (hk l (List.mem_cons_self ..))
    · intro n hn8
      have kk := kr n hn8
      have e1 : tget 0 (troupeAt s1 g.ck g.p).kregs n = tget 0 (troupeAt u g.ck g.p).kregs n := rfl
      have e2 : tget 0 (troupeAt s1 g.ck g.p).kseq n = tget 0 (troupeAt u g.ck g.p).kseq n := rfl
      rw [a3 n hn8, e1, e2, kk.1, kk.2]
      simp only [List.head?_cons, Option.bind_some]
      by_cases hq : tget 0 (troupeAt s g.ck g.p).kseq n < seq
      · cases hgv : given (ws l) (112 + n) with
        | some v => simp [hq]
        | none =>
          have : r.head?.bind (fun l => given (ws l) (112 + n)) = none := by
            cases r with
            | nil => rfl
            | cons k r =>
              simp only [List.head?_cons, Option.bind_some]
              apply given_none
              rw [hF k l]
              intro hm
              obtain ⟨w, hw, hw'⟩ := List.mem_map.1 hm
              unfold given at hgv
              simp only [Option.map_eq_none_iff, List.find?_eq_none] at hgv
              exact hgv w hw (by simp [hw'])
          simp [hq, this]
      · simp [hq]
    · intro n
      obtain ⟨c1, c2, c3⟩ := cr n
      have hs : cregOpen s1 g.ck g.p seq n ↔ cregOpen s g.ck g.p seq n := c1
      refine ⟨fun h => ?_, fun h => ?_⟩
      · rw [(a4 n).1 (hs.2 h), show tget 0 s1.cregs (g.ck * 8 + n) = tget 0 u.cregs (g.ck * 8 + n) from rfl, c2 h]
        cases r with
        | nil => simp
        | cons k r =>
          have hl2 : (l :: k :: r).getLast? = (k :: r).getLast? := by simp [List.getLast?_cons]
          rw [hl2]
          cases hgv : given (ws l) (120 + n) with
          | none => simp
          | some v =>
            obtain ⟨z, hz⟩ := Option.isSome_iff_exists.1 (show ((k :: r).getLast?).isSome by simp)
            have : ∃ v', given (ws z) (120 + n) = some v' := by
              cases hgz : given (ws z) (120 + n) with
              | some v' => exact ⟨v', rfl⟩
              | none =>
                have : given (ws l) (120 + n) = none := by
                  apply given_none
                  rw [hF l z]
                  intro hm
                  obtain ⟨w, hw, hw'⟩ := List.mem_map.1 hm
                  unfold given at hgz
                  simp only [Option.map_eq_none_iff, List.find?_eq_none] at hgz
                  exact hgz w hw (by simp [hw'])
                rw [this] at hgv; cases hgv
            obtain ⟨v', hv'⟩ := this
            simp [hz, hv']
      · rw [(a4 n).2 (fun x => h (hs.1 x)), show tget 0 s1.cregs (g.ck * 8 + n) = tget 0 u.cregs (g.ck * 8 + n) from rfl, c3 h]
    · intro k
      rw [aB k, show s1.badRegs = u.badRegs from rfl, bad k, and_assoc, List.forall_mem_cons]
    · intro k hk; rw [a5 k hk]; exact ccs k hk
    · intro k hk; rw [a6 k hk]; exact tr.1 k hk
    · rw [a7]; exact tr.2.1
    · intro k hk
      rcases List.mem_cons.1 hk with rfl | hk
      · rw [a9 _ (fun j hj => hfar j hj)]
        show tfind (tupd u.threads _ (goOn m _)) _ = _
        rw [tfind_tupd_self, uth, hlive _ (List.mem_cons_self ..)]; rfl
      · exact a8 k hk
    · intro k hk
      rw [a9 k (fun j hj => hk j (List.mem_cons_of_mem _ hj))]
      show tfind (tupd u.threads (g.tk l) (goOn m (pc l))) k = _
      rw [tfind_tupd_ne _ _ (fun e => hk l (List.mem_cons_self ..) e.symm), uth]
    · rw [a10]; exact strip_writeDests s (g.tk l) seq (destsOf th (ws l))

/-! ## What an immediate instruction leaves -/

theorem foldl_map' {α β γ : Type} (f : γ → β → γ) (h : α → β) (ls : List α) (s : γ) : (ls.map h).foldl f s = ls.foldl (fun s a => f s (h a)) s := by
  induction ls generalizing s with
  | nil => rfl
  | cons a r ih => exact ih (f s (h a))

theorem applyActs_done (s : State) (m : Bool) (seq : Nat) (b : State) (ws : Nat → List (Nat × Word)) (pc : Nat → DWord)
    (hF : ∀ l k, (ws l).map (·.1) = (ws k).map (·.1)) :
    applyActs (groupOf s) m seq b (doneActs (lanes s) ws pc) = doneLanes (groupOf s) m seq (fixed s ws) pc b (lanes s) := by
  unfold applyActs
  have : ∀ (ls : List Nat) (b : State),
      (doneActs ls ws pc).foldl (fun s' la => applyAct (groupOf s) m seq s' (la.1, fixAct (doneActs (lanes s) ws pc) la.2)) b
        = doneLanes (groupOf s) m seq (fixed s ws) pc b ls := by
    intro ls
    induction ls with
    | nil => intro b; rfl
    | cons l r ih =>
      intro b
      show (doneActs r ws pc).foldl _ (applyAct (groupOf s) m seq b (l, .done (fixWrites (doneActs (lanes s) ws pc) (ws l)) (pc l))) = _
      rw [fixWrites_done s ws pc hF l, ih]; rfl
  exact this (lanes s) b

/-- The region's record of the lanes that completed. -/
theorem regionPass_spec (b : State) (i : Instr) (acts : Nat → LaneAct) (hc : ∀ l, completes (acts l) = true) (ls : List Nat) (hn : ls.Nodup) (s : State) :
    let t := regionPass b (groupOf b) i (ls.map (fun l => (l, acts l))) s
    (∀ l ∈ ls, tfind t.threads ((groupOf b).tk l) = (tfind s.threads ((groupOf b).tk l)).map (fun u =>
        if (lane b l).region.isSome then { u with region := u.region.map (fun r => regionAfter r i (readReg b (groupOf b) l)) } else u))
      ∧ (∀ k, (∀ l ∈ ls, k ≠ (groupOf b).tk l) → tfind t.threads k = tfind s.threads k)
      ∧ stripT t = stripT s := by
  induction ls generalizing s with
  | nil => exact ⟨by simp, fun _ _ => rfl, rfl⟩
  | cons l r ih =>
    simp only [List.nodup_cons] at hn
    let s1 := if (lane b l).region.isSome then
      updThread s ((groupOf b).tk l) (fun t => { t with region := t.region.map (fun r => regionAfter r i (readReg b (groupOf b) l)) }) else s
    have hs1 : regionPass b (groupOf b) i ((l :: r).map (fun l => (l, acts l))) s = regionPass b (groupOf b) i (r.map (fun l => (l, acts l))) s1 := by
      show List.foldl _ (if (completes (acts l) && (lane b l).region.isSome) = true then _ else s) (r.map (fun l => (l, acts l))) = _
      rw [hc l, Bool.true_and]; rfl
    have one : (∀ k, k ≠ (groupOf b).tk l → tfind s1.threads k = tfind s.threads k)
        ∧ tfind s1.threads ((groupOf b).tk l) = (tfind s.threads ((groupOf b).tk l)).map (fun u =>
            if (lane b l).region.isSome then { u with region := u.region.map (fun r => regionAfter r i (readReg b (groupOf b) l)) } else u)
        ∧ stripT s1 = stripT s := by
      by_cases h : (lane b l).region.isSome = true
      · have e : s1 = updThread s ((groupOf b).tk l) (fun t => { t with region := t.region.map (fun r => regionAfter r i (readReg b (groupOf b) l)) }) := by
          simp only [s1, h, if_true]
        rw [e]
        refine ⟨fun k hk => ?_, ?_, rfl⟩
        · rw [updThread_threads, tfind_tupd_ne _ _ (fun x => hk x.symm)]
        · rw [updThread_threads, tfind_tupd_self]; simp only [h, if_true]
      · have e : s1 = s := by simp only [s1, h]; rfl
        rw [e]
        refine ⟨fun k _ => rfl, ?_, rfl⟩
        simp [h]
    have rest := ih hn.2 s1
    simp only [hs1]
    refine ⟨fun k hk => ?_, fun k hk => ?_, rest.2.2.trans one.2.2⟩
    · rcases List.mem_cons.1 hk with rfl | hk
      · rw [rest.2.1 _ (fun j hj e => by have := tk_inj e; subst this; exact hn.1 hj), one.2.1]
      · rw [rest.1 k hk, one.1 _ (fun e => hn.1 (tk_inj e ▸ hk))]
    · rw [rest.2.1 k (fun j hj => hk j (List.mem_cons_of_mem _ hj)), one.1 k (hk l (List.mem_cons_self ..))]

theorem threadAt_live {s : State} {tk : Nat} {t : Thread} (h : tfind s.threads tk = some t) : threadAt s tk = t := by
  simp [threadAt, tget, h]

/-- What completing leaves of a thread, with its region's record. -/
theorem completed_eq (m : Bool) (pc : DWord) (f : Region → Region) (t : Thread) :
    (if t.region.isSome then { goOn m pc t with region := (goOn m pc t).region.map f } else goOn m pc t) = completed m pc (t.region.map f) t := by
  unfold goOn markThread completed
  cases m <;> cases hp : t.pend.isEmpty <;> cases hr : t.region <;> simp_all

theorem fixed_mem {s : State} {ws : Nat → List (Nat × Word)} {l : Nat} {w : Nat × Word} (h : w ∈ fixed s ws l) : w.1 ∈ (ws l).map (·.1) := by
  rw [← fixed_fields s ws l]; exact List.mem_map.2 ⟨w, h, rfl⟩

theorem mem_fixed_low {s : State} {ws : Nat → List (Nat × Word)} {l : Nat} {w : Nat × Word} (h : w.1 < 112) : w ∈ fixed s ws l ↔ w ∈ ws l := by
  unfold fixed
  rw [List.mem_map]
  constructor
  · rintro ⟨v, hv, rfl⟩
    split at h
    · rename_i hc; simp only at h; omega
    · rename_i hc; simpa [hc] using hv
  · intro hw
    exact ⟨w, hw, by rw [if_neg (by omega)]⟩

theorem given_fixed_k (s : State) (ws : Nat → List (Nat × Word)) (l n : Nat) (h : n < 8) :
    given (fixed s ws l) (112 + n) = (given (ws l) (112 + n)).map (fun x => (kGiven s ws n).getD x) := by
  unfold fixed given
  induction ws l with
  | nil => rfl
  | cons w r ih =>
    simp only [List.map_cons, List.find?_cons]
    by_cases hw : w.1 = 112 + n
    · have e : 112 ≤ w.1 ∧ w.1 < 120 := by omega
      have e1 : w.1 - 112 = n := by omega
      have e4 : (w.1 == 112 + n) = true := by simpa using hw
      simp only [if_pos e, e1, e4, Option.map_some]
    · have e4 : (w.1 == 112 + n) = false := by simpa using hw
      have e3 : ((if 112 ≤ w.1 ∧ w.1 < 120 then (w.1, (kGiven s ws (w.1 - 112)).getD w.2) else w).1 == 112 + n) = false := by
        split <;> exact e4
      simp only [e3, e4]
      exact ih

theorem given_fixed_c (s : State) (ws : Nat → List (Nat × Word)) (l n : Nat) : given (fixed s ws l) (120 + n) = given (ws l) (120 + n) := by
  unfold fixed given
  induction ws l with
  | nil => rfl
  | cons w r ih =>
    simp only [List.map_cons, List.find?_cons]
    by_cases hw : w.1 = 120 + n
    · have e : ¬ (112 ≤ w.1 ∧ w.1 < 120) := by omega
      have e4 : (w.1 == 120 + n) = true := by simpa using hw
      simp only [if_neg e, e4]
    · have e4 : (w.1 == 120 + n) = false := by simpa using hw
      have e3 : ((if 112 ≤ w.1 ∧ w.1 < 120 then (w.1, (kGiven s ws (w.1 - 112)).getD w.2) else w).1 == 120 + n) = false := by
        split <;> exact e4
      simp only [e3, e4]
      exact ih

/-- Where a lane that passes writes a k register, the troupe is listed. -/
theorem troupe_listed {i : Instr} {s : State} (h : Ready i s) {l : Nat} (hl : l ∈ lanes s) (hw : writesK i = true) :
    (tfind s.troupes (pkey (groupOf s).ck (groupOf s).p)).isSome = true := by
  have hp := ready_lane h hl
  simp only [lanePasses, hw, Bool.not_true, Bool.false_or, Bool.and_eq_true, beq_iff_eq] at hp
  have hm := hp.1.1.1.2
  cases ht : tfind s.troupes (pkey (groupOf s).ck (groupOf s).p) with
  | some t => rfl
  | none =>
    have h0 : (groupOf s).mask = 0 := by rw [hm]; simp [troupeAt, tget, ht, Troupe.blank]
    have := (List.mem_filter.1 (List.mem_filter.1 hl).1).2
    simp [h0, inMask] at this

theorem onlyLanes_of {s t : State} (h : strip t = strip (issued s)) : OnlyLanes s t := eq_of_strip h

theorem onlyThreads_of {s t : State} (h : stripT t = stripT (issued s)) : OnlyThreads s t := eq_of_stripT h

theorem doneLanes_after {i : Instr} {s : State} (h : Ready i s) (ws : Nat → List (Nat × Word)) (pc : Nat → DWord)
    (hn : ∀ l, ((ws l).map (·.1)).Nodup) (hb : ∀ l, ∀ f ∈ (ws l).map (·.1), f < 128) (hF : ∀ l k, (ws l).map (·.1) = (ws k).map (·.1))
    (hK : ∀ l, (∃ f ∈ (ws l).map (·.1), 112 ≤ f ∧ f < 120) → writesK i = true) :
    AfterLanes s (groupOf s) i.marker (s.issueSeq + 1) (fixed s ws) pc (lanes s) (issued s)
      (doneLanes (groupOf s) i.marker (s.issueSeq + 1) (fixed s ws) pc (issued s) (lanes s)) := by
  have h1 : ∀ l, ((fixed s ws l).map (·.1)).Nodup := fun l => by rw [fixed_fields]; exact hn l
  have h2 : ∀ l, ∀ w ∈ fixed s ws l, w.1 < 128 := fun l w hw => hb l w.1 (fixed_mem hw)
  have h3 : ∀ l k, (fixed s ws l).map (·.1) = (fixed s ws k).map (·.1) := fun l k => by rw [fixed_fields, fixed_fields]; exact hF l k
  have h4 : ∀ l ∈ lanes s, tfind (issued s).threads ((groupOf s).tk l) = some (threadAt s ((groupOf s).tk l)) := fun l hl => by
    rw [issued_threads]; exact lane_live hl
  have h5 : ∀ l ∈ lanes s, (∃ f ∈ (fixed s ws l).map (·.1), 112 ≤ f ∧ f < 120) →
      (tfind (issued s).troupes (pkey (groupOf s).ck (groupOf s).p)).isSome := fun l hl hf => by
    rw [fixed_fields] at hf; rw [issued_troupes]; exact troupe_listed h hl (hK l hf)
  exact doneLanes_spec s (groupOf s) (groupOf_p_lt s) i.marker (s.issueSeq + 1) (fixed s ws) pc h1 h2 h3 (lanes s) (issued s)
    (lanes_nodup s) (fun l hl => lane_lt hl) h4 h5

theorem kGiven_fixed (s : State) (ws : Nat → List (Nat × Word)) (n : Nat) (hn8 : n < 8) :
    (lanes s).head?.bind (fun l => given (fixed s ws l) (112 + n)) = kGiven s ws n := by
  cases hl : (lanes s).head? with
  | none => simp [kGiven, hl]
  | some l =>
    have e3 : kGiven s ws n = given (ws l) (112 + n) := by simp [kGiven, hl]
    rw [Option.bind_some, given_fixed_k s ws l n hn8, e3]
    cases given (ws l) (112 + n) <;> rfl

theorem cGiven_fixed (s : State) (ws : Nat → List (Nat × Word)) (n : Nat) :
    (lanes s).getLast?.bind (fun l => given (fixed s ws l) (120 + n)) = cGiven s ws n := by
  unfold cGiven
  congr 1; funext l; exact given_fixed_c s ws l n

theorem immediate_of (i : Instr) (s u t : State) (ws : Nat → List (Nat × Word)) (pc : Nat → DWord)
    (D : AfterLanes s (groupOf s) i.marker (s.issueSeq + 1) (fixed s ws) pc (lanes s) (issued s) u)
    (p1 : ∀ l ∈ lanes s, tfind t.threads ((groupOf s).tk l) = (tfind u.threads ((groupOf s).tk l)).map (fun x =>
        if (lane s l).region.isSome then { x with region := x.region.map (fun r => regionAfter r i (readReg s (groupOf s) l)) } else x))
    (p2 : ∀ k, (∀ l ∈ lanes s, k ≠ (groupOf s).tk l) → tfind t.threads k = tfind u.threads k)
    (p3 : stripT t = stripT u) : Immediate i s t ws pc := by
  have q := eq_of_stripT p3
  have qr : t.regs = u.regs := by rw [q]
  have qc : t.cregs = u.cregs := by rw [q]
  have qt : t.troupes = u.troupes := by rw [q]
  have qtr : troupeAt t (groupOf s).ck (groupOf s).p = troupeAt u (groupOf s).ck (groupOf s).p := by unfold troupeAt; rw [qt]
  refine ⟨?_, ⟨?_, ?_, ?_, ?_, ?_, ?_, ?_, ?_⟩, ?_, ?_⟩
  · have e : strip t = strip (issued s) := by
      have : strip t = strip u := by rw [q]; rfl
      rw [this, D.rest]
    exact onlyLanes_of e
  · intro l hl w hw h1 h2
    rw [qr]; exact D.own l hl w ((mem_fixed_low h2).2 hw) h1 h2
  · intro k hk
    rw [qr]; exact D.others k (fun l hl w hw h1 h2 => hk l hl w ((mem_fixed_low h2).1 hw) h1 h2)
  · intro n hn8
    have d := D.kregs n hn8
    rw [kGiven_fixed s ws n hn8] at d
    rw [qtr, d]
    show (if tget 0 (troupeAt s (groupOf s).ck (groupOf s).p).kseq n < s.issueSeq + 1 then _ else _) = _
    by_cases hq : tget 0 (troupeAt s (groupOf s).ck (groupOf s).p).kseq n ≤ s.issueSeq
    · rw [if_pos (Nat.lt_succ_of_le hq), if_pos hq]; rfl
    · rw [if_neg (fun x => hq (Nat.le_of_lt_succ x)), if_neg hq]; rfl
  · intro n _
    have d := D.cregs n
    rw [cGiven_fixed s ws n] at d
    rw [qc]
    by_cases hq : cregOpen s (groupOf s).ck (groupOf s).p (s.issueSeq + 1) n
    · exact (d.1 hq).trans (if_pos hq).symm
    · exact (d.2 hq).trans (if_neg hq).symm
  · intro k
    rw [show t.badRegs = u.badRegs by rw [q], D.mended k]
    refine and_congr_right (fun _ => ⟨fun h l hl w hw h1 h2 => h l hl w ((mem_fixed_low h2).2 hw) h1 h2,
      fun h l hl w hw h1 h2 => h l hl w ((mem_fixed_low h2).1 hw) h1 h2⟩)
  · intro k hk; rw [qc]; exact D.ccs k hk
  · intro k hk; rw [qt]; exact D.troupes k hk
  · rw [qtr]; exact D.troupe
  · intro l hl
    rw [p1 l hl, D.thread l hl]
    exact congrArg some (completed_eq i.marker (pc l) (fun r => regionAfter r i (readReg s (groupOf s) l)) (lane s l))
  · intro k hk; rw [p2 k hk, D.threads k hk]; rfl

/-- R130 to R133, R136 and R137 in one: an instruction whose lanes each write registers at once. -/
theorem runRegs_done {i : Instr} {s : State} (h : Ready i s) (ws : Nat → List (Nat × Word)) (pc : Nat → DWord)
    (hn : ∀ l, ((ws l).map (·.1)).Nodup) (hb : ∀ l, ∀ f ∈ (ws l).map (·.1), f < 128) (hF : ∀ l k, (ws l).map (·.1) = (ws k).map (·.1))
    (hK : ∀ l, (∃ f ∈ (ws l).map (·.1), 112 ≤ f ∧ f < 120) → writesK i = true) :
    Immediate i s (runRegs i s (fun l => .done (ws l) (pc l))) ws pc := by
  have D := doneLanes_after h ws pc hn hb hF hK
  have P := regionPass_spec s i (fun l => LaneAct.done (ws l) (pc l)) (fun _ => rfl) (lanes s) (lanes_nodup s)
    (doneLanes (groupOf s) i.marker (s.issueSeq + 1) (fixed s ws) pc (issued s) (lanes s))
  have hrun : runRegs i s (fun l => .done (ws l) (pc l)) =
      regionPass s (groupOf s) i ((lanes s).map (fun l => (l, LaneAct.done (ws l) (pc l))))
        (doneLanes (groupOf s) i.marker (s.issueSeq + 1) (fixed s ws) pc (issued s) (lanes s)) := by
    rw [runRegs_eq h, ← applyActs_done s _ _ _ ws pc hF]; rfl
  rw [hrun]
  exact immediate_of i s _ _ ws pc D P.1 P.2.1 P.2.2

/-! ## What an instruction with deferred results leaves -/

/-- The fates of lanes that each leave the deferred result `ws l`. -/
def deferActs (ls : List Nat) (ws : Nat → List (Nat × Word)) : List (Nat × LaneAct) := ls.map (fun l => (l, LaneAct.defer (ws l)))

theorem given_none_of {F : List Nat} {n : Nat} {ws wk : List (Nat × Word)} (h1 : ws.map (·.1) = F) (h2 : wk.map (·.1) = F) (h : given ws n = none) :
    given wk n = none := by
  apply given_none
  rw [h2, ← h1]
  intro hm
  obtain ⟨w, hw, rfl⟩ := List.mem_map.1 hm
  unfold given at h
  simp only [Option.map_eq_none_iff, List.find?_eq_none] at h
  exact h w hw (by simp)

theorem uniformValue_defer (n : Nat) (ls : List Nat) (ws : Nat → List (Nat × Word)) (hF : ∀ l k, (ws l).map (·.1) = (ws k).map (·.1)) :
    uniformValue n (deferActs ls ws) = ls.head?.bind (fun l => given (ws l) n) := by
  cases ls with
  | nil => rfl
  | cons l r =>
    show (given (ws l) n <|> uniformValue n (deferActs r ws)) = given (ws l) n
    cases h : given (ws l) n with
    | some v => rfl
    | none =>
      show uniformValue n (deferActs r ws) = none
      induction r with
      | nil => rfl
      | cons k r ih =>
        show (given (ws k) n <|> uniformValue n (deferActs r ws)) = none
        rw [given_none_of (hF l l) (hF k l) h]; exact ih

theorem fixWrites_defer (s : State) (ws : Nat → List (Nat × Word)) (hF : ∀ l k, (ws l).map (·.1) = (ws k).map (·.1)) (l : Nat) :
    fixWrites (deferActs (lanes s) ws) (ws l) = fixed s ws l := by
  unfold fixWrites fixed
  apply List.map_congr_left
  intro w _
  by_cases h : 112 ≤ w.1 ∧ w.1 < 120
  · rw [if_pos h]
    have : (decide (112 ≤ w.1) && decide (w.1 < 120)) = true := by simp [h.1, h.2]
    simp only [this, if_true]
    rw [uniformValue_defer _ _ _ hF]
    have e : 112 + (w.1 - 112) = w.1 := by omega
    simp only [kGiven, e]
  · rw [if_neg h]
    have : (decide (112 ≤ w.1) && decide (w.1 < 120)) = false := by
      simp only [Bool.and_eq_false_iff, decide_eq_false_iff_not]
      by_cases h1 : 112 ≤ w.1
      · exact .inr (fun h2 => h ⟨h1, h2⟩)
      · exact .inl h1
    simp only [this]; rfl

/-- Threads changed one lane after another, each by its own function. -/
def eachLane (g : Group) (f : Nat → Thread → Thread) (s : State) (ls : List Nat) : State := ls.foldl (fun s l => updThread s (g.tk l) (f l)) s

theorem eachLane_spec (g : Group) (f : Nat → Thread → Thread) (ls : List Nat) (hn : ls.Nodup) (s : State) :
    (∀ l ∈ ls, tfind (eachLane g f s ls).threads (g.tk l) = (tfind s.threads (g.tk l)).map (f l))
      ∧ (∀ k, (∀ l ∈ ls, k ≠ g.tk l) → tfind (eachLane g f s ls).threads k = tfind s.threads k)
      ∧ stripT (eachLane g f s ls) = stripT s := by
  induction ls generalizing s with
  | nil => exact ⟨by simp, fun _ _ => rfl, rfl⟩
  | cons l r ih =>
    simp only [List.nodup_cons] at hn
    have rest := ih hn.2 (updThread s (g.tk l) (f l))
    have e : eachLane g f s (l :: r) = eachLane g f (updThread s (g.tk l) (f l)) r := rfl
    rw [e]
    refine ⟨fun k hk => ?_, fun k hk => ?_, rest.2.2⟩
    · rcases List.mem_cons.1 hk with rfl | hk
      · rw [rest.2.1 _ (fun j hj e => by have := tk_inj e; subst this; exact hn.1 hj), updThread_threads, tfind_tupd_self]
      · rw [rest.1 k hk, updThread_threads, tfind_tupd_ne _ _ (fun e => by have := tk_inj e; subst this; exact hn.1 hk)]
    · rw [rest.2.1 k (fun j hj => hk j (List.mem_cons_of_mem _ hj)), updThread_threads,
        tfind_tupd_ne _ _ (fun e => hk l (List.mem_cons_self ..) e.symm)]

theorem applyActs_defer (s : State) (m : Bool) (seq : Nat) (b : State) (ws : Nat → List (Nat × Word)) (hF : ∀ l k, (ws l).map (·.1) = (ws k).map (·.1)) :
    applyActs (groupOf s) m seq b (deferActs (lanes s) ws) =
      eachLane (groupOf s) (fun l t => goOn m (nextPc (groupOf s)) (addPend seq none (destsOf t (fixed s ws l)) t)) b (lanes s) := by
  unfold applyActs
  have : ∀ (ls : List Nat) (b : State),
      (deferActs ls ws).foldl (fun s' la => applyAct (groupOf s) m seq s' (la.1, fixAct (deferActs (lanes s) ws) la.2)) b
        = eachLane (groupOf s) (fun l t => goOn m (nextPc (groupOf s)) (addPend seq none (destsOf t (fixed s ws l)) t)) b ls := by
    intro ls
    induction ls with
    | nil => intro b; rfl
    | cons l r ih =>
      intro b
      show (deferActs r ws).foldl _ (applyAct (groupOf s) m seq b (l, .defer (fixWrites (deferActs (lanes s) ws) (ws l)))) = _
      rw [fixWrites_defer s ws hF l, ih]; rfl
  exact this (lanes s) b

theorem addPend_region (seq : Nat) (ws : List (Dest × Word)) (t : Thread) : (addPend seq none ws t).region = t.region := by
  unfold addPend; split <;> rfl

theorem addPend_eq (seq : Nat) (ws : List (Dest × Word)) (t : Thread) : addPend seq none ws t = holding seq ws t := rfl

theorem threads_of (i : Instr) (s u t : State) (f : Nat → Thread → Thread) (m : Bool) (pc : Nat → DWord)
    (hr : ∀ l, (f l (lane s l)).region = (lane s l).region)
    (d1 : ∀ l ∈ lanes s, tfind u.threads ((groupOf s).tk l) = (tfind (issued s).threads ((groupOf s).tk l)).map (fun x => goOn m (pc l) (f l x)))
    (d2 : ∀ k, (∀ l ∈ lanes s, k ≠ (groupOf s).tk l) → tfind u.threads k = tfind (issued s).threads k)
    (p1 : ∀ l ∈ lanes s, tfind t.threads ((groupOf s).tk l) = (tfind u.threads ((groupOf s).tk l)).map (fun x =>
        if (lane s l).region.isSome then { x with region := x.region.map (fun r => regionAfter r i (readReg s (groupOf s) l)) } else x))
    (p2 : ∀ k, (∀ l ∈ lanes s, k ≠ (groupOf s).tk l) → tfind t.threads k = tfind u.threads k) :
    Threads s t (fun l x => completed m (pc l) (recorded i s l) (f l x)) := by
  refine ⟨fun l hl => ?_, fun k hk => ?_⟩
  · rw [p1 l hl, d1 l hl, issued_threads, lane_live hl]
    have := completed_eq m (pc l) (fun r => regionAfter r i (readReg s (groupOf s) l)) (f l (lane s l))
    rw [hr l] at this
    exact congrArg some this
  · rw [p2 k hk, d2 k hk, issued_threads]

/-- R136 to R138 in one: an instruction whose lanes each leave a deferred result. -/
theorem runRegs_defer {i : Instr} {s : State} (h : Ready i s) (ws : Nat → List (Nat × Word)) (hF : ∀ l k, (ws l).map (·.1) = (ws k).map (·.1)) :
    Pending i s (runRegs i s (fun l => .defer (ws l))) ws := by
  have hrun : runRegs i s (fun l => .defer (ws l)) =
      regionPass s (groupOf s) i ((lanes s).map (fun l => (l, LaneAct.defer (ws l))))
        (eachLane (groupOf s) (fun l t => goOn i.marker (nextPc (groupOf s)) (addPend (s.issueSeq + 1) none (destsOf t (fixed s ws l)) t))
          (issued s) (lanes s)) := by
    rw [runRegs_eq h, ← applyActs_defer s _ _ _ ws hF]; rfl
  have D := eachLane_spec (groupOf s) (fun l t => goOn i.marker (nextPc (groupOf s)) (addPend (s.issueSeq + 1) none (destsOf t (fixed s ws l)) t))
    (lanes s) (lanes_nodup s) (issued s)
  have P := regionPass_spec s i (fun l => LaneAct.defer (ws l)) (fun _ => rfl) (lanes s) (lanes_nodup s)
    (eachLane (groupOf s) (fun l t => goOn i.marker (nextPc (groupOf s)) (addPend (s.issueSeq + 1) none (destsOf t (fixed s ws l)) t))
      (issued s) (lanes s))
  rw [hrun]
  refine ⟨onlyThreads_of (P.2.2.trans D.2.2), ?_⟩
  have T := threads_of i s _ _ (fun l t => addPend (s.issueSeq + 1) none (destsOf t (fixed s ws l)) t) i.marker (fun _ => nextPc (groupOf s))
    (fun l => addPend_region _ _ _) D.1 D.2.1 P.1 P.2.1
  refine ⟨fun l hl => ?_, T.2⟩
  exact T.1 l hl

/-! ## Traps -/

/-- Trap entry of a thread that is not in its handler, in a program that has one (R142). -/
theorem enterTrap_serves {s : State} {tk : Nat} {t : Thread} {c : Cause} {v epc : DWord} (hlive : tfind s.threads tk = some t)
    (h1 : ((launchOf s (ckOfT tk)).trapVec == 0xFFFFFFFF) = false) (h2 : t.inHandler = false) :
    enterTrap s tk c v epc false = setThread s tk
      { t with cause := BitVec.ofNat 8 c.code, tval := v, epc := epc, inHandler := true, pc := vectorOf s (ckOfT tk), out := 0, park := none,
               parkSeq := 0, markWait := false } := by
  have e (x : Thread) : launchOf (setThread s tk x) (ckOfT tk) = launchOf s (ckOfT tk) := rfl
  have e2 (x : Thread) : vectorOf (setThread s tk x) (ckOfT tk) = vectorOf s (ckOfT tk) := rfl
  unfold enterTrap
  simp only [threadAt_live hlive, h2, e, e2, h1, Bool.false_eq_true, if_false, Bool.false_or]
  unfold setThread updThread
  simp only [tupd_tput]

/-- Taking a trap to the program's handler (R142). -/
theorem trapAt_serves {s0 s : State} {l : Nat} {c : Cause} {v : DWord} (hp : (groupOf s0).p < 64) (hl : l < 32)
    (hr : s.residents = s0.residents) (hlive : tfind s.threads ((groupOf s0).tk l) = some (lane s0 l)) (hs : handlerServes s0 l = true) :
    (∀ k, tfind (trapAt s ((groupOf s0).tk l) c v (groupOf s0).pc false).threads k =
        if (groupOf s0).tk l = k then some (inTrap s0 c v (lane s0 l)) else tfind s.threads k)
      ∧ stripT (trapAt s ((groupOf s0).tk l) c v (groupOf s0).pc false) = stripT s := by
  simp only [handlerServes, Bool.and_eq_true, bne_iff_ne, ne_eq, Bool.not_eq_true', Option.isNone_iff_eq_none] at hs
  obtain ⟨⟨⟨h1, h2⟩, h3⟩, h4⟩ := hs
  have hc := ckOfT_tk (g := groupOf s0) hp hl
  have e : launchOf s (groupOf s0).ck = launchOf s0 (groupOf s0).ck := by unfold launchOf residentAt; rw [hr]
  have e2 : vectorOf s (groupOf s0).ck = vectorOf s0 (groupOf s0).ck := by unfold vectorOf residentAt; rw [hr]
  have h1' : ((launchOf s (ckOfT ((groupOf s0).tk l))).trapVec == 0xFFFFFFFF) = false := by rw [hc, e]; simpa using h1
  have key : trapAt s ((groupOf s0).tk l) c v (groupOf s0).pc false = setThread s ((groupOf s0).tk l) (inTrap s0 c v (lane s0 l)) := by
    unfold trapAt
    simp only [hlive, h4, h3, if_true]
    rw [enterTrap_serves hlive h1' h2, hc, e2]; rfl
  rw [key]
  exact ⟨fun k => by rw [setThread_threads, tfind_tput], rfl⟩

/-- R142 for an instruction whose lanes all trap. -/
theorem trapLanes_spec (s0 : State) (c : Cause) (v : Nat → DWord) (m : Bool) (seq : Nat) (all : List (Nat × LaneAct)) (ls : List Nat) (hn : ls.Nodup)
    (hlt : ∀ l ∈ ls, l < 32) (hs : ∀ l ∈ ls, handlerServes s0 l = true) (s : State) (hr : s.residents = s0.residents)
    (hlive : ∀ l ∈ ls, tfind s.threads ((groupOf s0).tk l) = some (lane s0 l)) :
    let t := (ls.map (fun l => (l, LaneAct.trap c (v l)))).foldl (fun s la => applyAct (groupOf s0) m seq s (la.1, fixAct all la.2)) s
    (∀ l ∈ ls, tfind t.threads ((groupOf s0).tk l) = some (inTrap s0 c (v l) (lane s0 l)))
      ∧ (∀ k, (∀ l ∈ ls, k ≠ (groupOf s0).tk l) → tfind t.threads k = tfind s.threads k) ∧ stripT t = stripT s := by
  induction ls generalizing s with
  | nil => exact ⟨by simp, fun _ _ => rfl, rfl⟩
  | cons l r ih =>
    simp only [List.nodup_cons] at hn
    have one := trapAt_serves (c := c) (v := v l) (groupOf_p_lt s0) (hlt l (List.mem_cons_self ..)) hr (hlive l (List.mem_cons_self ..))
      (hs l (List.mem_cons_self ..))
    have hr1 : (trapAt s ((groupOf s0).tk l) c (v l) (groupOf s0).pc false).residents = s0.residents := by
      have := congrArg (fun s : State => s.residents) one.2
      exact this.trans hr
    have rest := ih hn.2 (fun k hk => hlt k (List.mem_cons_of_mem _ hk)) (fun k hk => hs k (List.mem_cons_of_mem _ hk)) _ hr1
      (fun k hk => by
        rw [one.1, if_neg (fun e => by have := tk_inj e; subst this; exact hn.1 hk)]
        exact hlive k (List.mem_cons_of_mem _ hk))
    refine ⟨fun k hk => ?_, fun k hk => ?_, rest.2.2.trans one.2⟩
    · rcases List.mem_cons.1 hk with rfl | hk
      · exact (rest.2.1 _ (fun j hj e => by have := tk_inj e; subst this; exact hn.1 hj)).trans (by rw [one.1, if_pos rfl])
      · exact rest.1 k hk
    · exact (rest.2.1 k (fun j hj => hk j (List.mem_cons_of_mem _ hj))).trans
        (by rw [one.1, if_neg (fun e => hk l (List.mem_cons_self ..) e.symm)])

theorem regionPass_trap (b : State) (i : Instr) (c : Cause) (v : Nat → DWord) (ls : List Nat) (s : State) :
    regionPass b (groupOf b) i (ls.map (fun l => (l, LaneAct.trap c (v l)))) s = s := by
  induction ls with
  | nil => rfl
  | cons l r ih => exact ih

/-- An instruction that traps in every lane, where the program's handler serves. -/
theorem runRegs_trap {i : Instr} {s : State} (h : Ready i s) (c : Cause) (v : Nat → DWord) (hs : ∀ l ∈ lanes s, handlerServes s l = true) :
    Trapped s (runRegs i s (fun l => .trap c (v l))) c v := by
  rw [runRegs_eq h, regionPass_trap]
  have D := trapLanes_spec s c v i.marker (s.issueSeq + 1) ((lanes s).map (fun l => (l, LaneAct.trap c (v l)))) (lanes s) (lanes_nodup s)
    (fun l hl => lane_lt hl) hs (issued s) (issued_residents s) (fun l hl => by rw [issued_threads]; exact lane_live hl)
  exact ⟨onlyThreads_of D.2.2, D.1, D.2.1⟩

end Sys2Proof.Laws
end

