-- ==== Sys2Proof/Laws/Threads.lean ====
section
/-! SUPPORT. What the fates of lanes leave in their threads, once for every fate that writes no register at once: deferred results, parks,
traps that the handler serves, and the record of an open region. -/

namespace Sys2Proof.Laws

open Sys2Proof.Machine Sys2Proof.Safety

/-- A fate that changes nothing but its own thread. -/
def thin (s : State) (l : Nat) : LaneAct → Prop
  | .done ws _ => ws = []
  | .defer _ => True
  | .ticketed _ _ => True
  | .park _ => True
  | .deferPark _ _ => True
  | .trap _ _ => handlerServes s l = true
  | .abort _ _ => False
  | .gone => False

/-- The thread of lane l after such a fate; `all` are the fates of the instruction's lanes. -/
def leaves (i : Instr) (s : State) (all : List (Nat × LaneAct)) (l : Nat) (u : Thread) : LaneAct → Thread
  | .done _ pc => goOn i.marker pc u
  | .defer ws => goOn i.marker (next s) (holding (s.issueSeq + 1) (destsOf u (fixWrites all ws)) u)
  | .ticketed ds n => goOn i.marker (next s) (addPend (s.issueSeq + 1) (some n) (ds.map (fun d => ((destOf u d).getD .zero, 0))) u)
  | .park p => parkThread i.marker (s.issueSeq + 1) p u
  | .deferPark ws p => parkThread i.marker (s.issueSeq + 1) p (addPend (s.issueSeq + 1) none (destsOf u (fixWrites all ws)) u)
  | .trap c v => inTrap s c v (lane s l)
  | .abort _ _ => u
  | .gone => u

/-- One thin fate. -/
theorem applyAct_thin {i : Instr} {s b : State} {l : Nat} {all : List (Nat × LaneAct)} {a : LaneAct} {u : Thread} (hl : l < 32)
    (hb : tfind b.threads ((groupOf s).tk l) = some u) (hr : b.residents = s.residents) (ht : thin s l a)
    (hu : (∃ c v, a = .trap c v) → u = lane s l) :
    (∀ k, tfind (applyAct (groupOf s) i.marker (s.issueSeq + 1) b (l, fixAct all a)).threads k =
        if (groupOf s).tk l = k then some (leaves i s all l u a) else tfind b.threads k)
      ∧ stripT (applyAct (groupOf s) i.marker (s.issueSeq + 1) b (l, fixAct all a)) = stripT b := by
  cases a with
  | done ws pc =>
    cases (show ws = [] from ht)
    refine ⟨fun k => ?_, rfl⟩
    show tfind (updThread b ((groupOf s).tk l) (goOn i.marker pc)).threads k = _
    rw [updThread_threads, tfind_tupd]; split
    · rename_i h; subst h; rw [hb]; rfl
    · rfl
  | defer ws =>
    refine ⟨fun k => ?_, rfl⟩
    show tfind (updThread b ((groupOf s).tk l) _).threads k = _
    rw [updThread_threads, tfind_tupd]; split
    · rename_i h; subst h; rw [hb]; rfl
    · rfl
  | ticketed ds n =>
    refine ⟨fun k => ?_, rfl⟩
    show tfind (updThread b ((groupOf s).tk l) _).threads k = _
    rw [updThread_threads, tfind_tupd]; split
    · rename_i h; subst h; rw [hb]; rfl
    · rfl
  | park p =>
    refine ⟨fun k => ?_, rfl⟩
    show tfind (updThread b ((groupOf s).tk l) _).threads k = _
    rw [updThread_threads, tfind_tupd]; split
    · rename_i h; subst h; rw [hb]; rfl
    · rfl
  | deferPark ws p =>
    refine ⟨fun k => ?_, rfl⟩
    show tfind (updThread b ((groupOf s).tk l) _).threads k = _
    rw [updThread_threads, tfind_tupd]; split
    · rename_i h; subst h; rw [hb]; rfl
    · rfl
  | trap c v =>
    have hu' := hu ⟨c, v, rfl⟩
    exact trapAt_serves (groupOf_p_lt s) hl hr (hu' ▸ hb) ht
  | abort c d => exact absurd ht id
  | gone => exact absurd ht id

/-- The fates of several lanes, each thin. -/
theorem applyActs_thin {i : Instr} {s : State} (all : List (Nat × LaneAct)) (u : Nat → Thread) (f : Nat → LaneAct) (ls : List Nat) (hn : ls.Nodup)
    (hlt : ∀ l ∈ ls, l < 32) (ht : ∀ l ∈ ls, thin s l (f l)) (hu : ∀ l ∈ ls, (∃ c v, f l = .trap c v) → u l = lane s l)
    (b : State) (hb : ∀ l ∈ ls, tfind b.threads ((groupOf s).tk l) = some (u l)) (hr : b.residents = s.residents) :
    let t := (ls.map (fun l => (l, f l))).foldl (fun s' la => applyAct (groupOf s) i.marker (s.issueSeq + 1) s' (la.1, fixAct all la.2)) b
    (∀ l ∈ ls, tfind t.threads ((groupOf s).tk l) = some (leaves i s all l (u l) (f l)))
      ∧ (∀ k, (∀ l ∈ ls, k ≠ (groupOf s).tk l) → tfind t.threads k = tfind b.threads k) ∧ stripT t = stripT b := by
  induction ls generalizing b with
  | nil => exact ⟨by simp, fun _ _ => rfl, rfl⟩
  | cons l r ih =>
    simp only [List.nodup_cons] at hn
    have hl := List.mem_cons_self (a := l) (l := r)
    have one := applyAct_thin (i := i) (all := all) (hlt l hl) (hb l hl) hr (ht l hl) (hu l hl)
    have hr1 : (applyAct (groupOf s) i.marker (s.issueSeq + 1) b (l, fixAct all (f l))).residents = s.residents :=
      (congrArg (fun s : State => s.residents) one.2).trans hr
    have rest := ih hn.2 (fun k hk => hlt k (List.mem_cons_of_mem _ hk)) (fun k hk => ht k (List.mem_cons_of_mem _ hk))
      (fun k hk => hu k (List.mem_cons_of_mem _ hk)) _
      (fun k hk => by
        rw [one.1, if_neg (fun e => by have := tk_inj e; subst this; exact hn.1 hk)]
        exact hb k (List.mem_cons_of_mem _ hk)) hr1
    refine ⟨fun k hk => ?_, fun k hk => ?_, rest.2.2.trans one.2⟩
    · rcases List.mem_cons.1 hk with rfl | hk
      · exact (rest.2.1 _ (fun j hj e => by have := tk_inj e; subst this; exact hn.1 hj)).trans (by rw [one.1, if_pos rfl])
      · exact rest.1 k hk
    · exact (rest.2.1 k (fun j hj => hk j (List.mem_cons_of_mem _ hj))).trans
        (by rw [one.1, if_neg (fun e => hk l (List.mem_cons_self ..) e.symm)])

/-- What the pass over open regions does to one thread. -/
def passes (i : Instr) (s : State) (l : Nat) (a : LaneAct) (u : Thread) : Thread :=
  if completes a && (lane s l).region.isSome then { u with region := u.region.map (fun r => regionAfter r i (readReg s (groupOf s) l)) } else u

theorem regionPass_gen (s : State) (i : Instr) (f : Nat → LaneAct) (ls : List Nat) (hn : ls.Nodup) (b : State) :
    let t := regionPass s (groupOf s) i (ls.map (fun l => (l, f l))) b
    (∀ l ∈ ls, tfind t.threads ((groupOf s).tk l) = (tfind b.threads ((groupOf s).tk l)).map (passes i s l (f l)))
      ∧ (∀ k, (∀ l ∈ ls, k ≠ (groupOf s).tk l) → tfind t.threads k = tfind b.threads k)
      ∧ stripT t = stripT b := by
  induction ls generalizing b with
  | nil => exact ⟨by simp, fun _ _ => rfl, rfl⟩
  | cons l r ih =>
    simp only [List.nodup_cons] at hn
    let b1 := if (completes (f l) && (lane s l).region.isSome) = true then
      updThread b ((groupOf s).tk l) (fun t => { t with region := t.region.map (fun r => regionAfter r i (readReg s (groupOf s) l)) }) else b
    have hb1 : regionPass s (groupOf s) i ((l :: r).map (fun l => (l, f l))) b = regionPass s (groupOf s) i (r.map (fun l => (l, f l))) b1 := rfl
    have one : (∀ k, k ≠ (groupOf s).tk l → tfind b1.threads k = tfind b.threads k)
        ∧ tfind b1.threads ((groupOf s).tk l) = (tfind b.threads ((groupOf s).tk l)).map (passes i s l (f l))
        ∧ stripT b1 = stripT b := by
      by_cases h : (completes (f l) && (lane s l).region.isSome) = true
      · have e : b1 = updThread b ((groupOf s).tk l) (fun t => { t with region := t.region.map (fun r => regionAfter r i (readReg s (groupOf s) l)) }) := by
          simp only [b1, h, if_true]
        rw [e]
        refine ⟨fun k hk => ?_, ?_, rfl⟩
        · rw [updThread_threads, tfind_tupd_ne _ _ (fun x => hk x.symm)]
        · rw [updThread_threads, tfind_tupd_self]
          exact congrArg (fun f => (tfind b.threads ((groupOf s).tk l)).map f) (by funext u; exact (if_pos h).symm)
      · have e : b1 = b := by simp only [b1, h]; rfl
        rw [e]
        refine ⟨fun k _ => rfl, ?_, rfl⟩
        have : passes i s l (f l) = id := by funext u; simp only [passes, h]; rfl
        rw [this]; simp
    have rest := ih hn.2 b1
    simp only [hb1]
    refine ⟨fun k hk => ?_, fun k hk => ?_, rest.2.2.trans one.2.2⟩
    · rcases List.mem_cons.1 hk with rfl | hk
      · rw [rest.2.1 _ (fun j hj e => by have := tk_inj e; subst this; exact hn.1 hj), one.2.1]
      · rw [rest.1 k hk, one.1 _ (fun e => hn.1 (tk_inj e ▸ hk))]
    · rw [rest.2.1 k (fun j hj => hk j (List.mem_cons_of_mem _ hj)), one.1 k (hk l (List.mem_cons_self ..))]

/-- The thread after its fate and the record of its region. -/
def finishes (i : Instr) (s : State) (all : List (Nat × LaneAct)) (l : Nat) (u : Thread) : LaneAct → Thread
  | .done _ pc => completed i.marker pc (recorded i s l) u
  | .defer ws => completed i.marker (next s) (recorded i s l) (holding (s.issueSeq + 1) (destsOf u (fixWrites all ws)) u)
  | .ticketed ds n => completed i.marker (next s) (recorded i s l) (addPend (s.issueSeq + 1) (some n) (ds.map (fun d => ((destOf u d).getD .zero, 0))) u)
  | .park p => parkThread i.marker (s.issueSeq + 1) p u
  | .deferPark ws p => parkThread i.marker (s.issueSeq + 1) p (addPend (s.issueSeq + 1) none (destsOf u (fixWrites all ws)) u)
  | .trap c v => inTrap s c v (lane s l)
  | .abort _ _ => u
  | .gone => u

theorem addPend_region_gen (seq : Nat) (o : Option Nat) (ws : List (Dest × Word)) (t : Thread) : (addPend seq o ws t).region = t.region := by
  unfold addPend; split <;> rfl

theorem passes_leaves (i : Instr) (s : State) (all : List (Nat × LaneAct)) (l : Nat) (u : Thread) (a : LaneAct)
    (hu : u.region = (lane s l).region) : passes i s l a (leaves i s all l u a) = finishes i s all l u a := by
  have key : ∀ (pc : DWord) (v : Thread), v.region = (lane s l).region →
      (if (lane s l).region.isSome = true then { goOn i.marker pc v with region := (goOn i.marker pc v).region.map (fun r => regionAfter r i (readReg s (groupOf s) l)) } else goOn i.marker pc v)
        = completed i.marker pc (recorded i s l) v := by
    intro pc v hv
    have := completed_eq i.marker pc (fun r => regionAfter r i (readReg s (groupOf s) l)) v
    rw [hv] at this
    exact this
  cases a with
  | done ws pc => simp only [passes, completes, Bool.true_and, leaves, finishes]; exact key pc u hu
  | defer ws => simp only [passes, completes, Bool.true_and, leaves, finishes]; exact key _ _ (by rw [← addPend_eq, addPend_region, hu])
  | ticketed ds n => simp only [passes, completes, Bool.true_and, leaves, finishes]; exact key _ _ (by rw [addPend_region_gen, hu])
  | park p => rfl
  | deferPark ws p => rfl
  | trap c v => rfl
  | abort c d => rfl
  | gone => rfl

/-- The end of an instruction whose lanes' fates are all thin: `b` is what the effects of its lanes have left, `u` their threads there. -/
theorem ends_thin {i : Instr} {s : State} (f : Nat → LaneAct) (u : Nat → Thread) (ht : ∀ l ∈ lanes s, thin s l (f l))
    (hu : ∀ l ∈ lanes s, (u l).region = (lane s l).region ∧ ((∃ c v, f l = .trap c v) → u l = lane s l))
    (b : State) (hb : ∀ l ∈ lanes s, tfind b.threads ((groupOf s).tk l) = some (u l)) (hr : b.residents = s.residents) :
    let all := (lanes s).map (fun l => (l, f l))
    let t := regionPass s (groupOf s) i all (applyActs (groupOf s) i.marker (s.issueSeq + 1) b all)
    (∀ l ∈ lanes s, tfind t.threads ((groupOf s).tk l) = some (finishes i s all l (u l) (f l)))
      ∧ (∀ k, (∀ l ∈ lanes s, k ≠ (groupOf s).tk l) → tfind t.threads k = tfind b.threads k) ∧ stripT t = stripT b := by
  intro all t
  have A := applyActs_thin (i := i) (s := s) all u f (lanes s) (lanes_nodup s) (fun l hl => lane_lt hl) ht (fun l hl => (hu l hl).2) b hb hr
  have P := regionPass_gen s i f (lanes s) (lanes_nodup s) (applyActs (groupOf s) i.marker (s.issueSeq + 1) b all)
  refine ⟨fun l hl => ?_, fun k hk => ?_, P.2.2.trans A.2.2⟩
  · have h1 := P.1 l hl
    have h2 := A.1 l hl
    have h3 : tfind (applyActs (groupOf s) i.marker (s.issueSeq + 1) b all).threads ((groupOf s).tk l) = some (leaves i s all l (u l) (f l)) := h2
    rw [h3] at h1
    refine h1.trans ?_
    rw [Option.map_some, passes_leaves i s all l (u l) (f l) (hu l hl).1]
  · exact (P.2.1 k hk).trans (A.2.1 k hk)

/-- A lane's own effect, where it changes nothing but its thread, by `h`, and the fate `a` depends on the lane alone. -/
def Local (g : Group) (f : State → Nat → State × LaneAct) (h : Nat → Thread → Thread) (a : Nat → LaneAct) : Prop :=
  ∀ s l, (f s l).2 = a l ∧ stripT (f s l).1 = stripT s
    ∧ ∀ k, tfind (f s l).1.threads k = if g.tk l = k then (tfind s.threads k).map (h l) else tfind s.threads k

theorem local_upd (g : Group) (h : Nat → Thread → Thread) (a : Nat → LaneAct) : Local g (fun s l => (updThread s (g.tk l) (h l), a l)) h a :=
  fun s l => ⟨rfl, rfl, fun k => by rw [updThread_threads, tfind_tupd]⟩

theorem local_none (g : Group) (a : Nat → LaneAct) : Local g (fun s l => (s, a l)) (fun _ => id) a :=
  fun s l => ⟨rfl, rfl, fun k => by simp⟩

/-- The fates of lanes that all pass, where each lane's own effect is local. -/
theorem laneFates_local {g : Group} {f : State → Nat → State × LaneAct} {h : Nat → Thread → Thread} {a : Nat → LaneAct} (hf : Local g f h a)
    (ls : List Nat) (hn : ls.Nodup) (s : State) :
    let q := laneFates f s (ls.map (fun l => (l, none)))
    q.2 = ls.map (fun l => (l, a l)) ∧ stripT q.1 = stripT s
      ∧ (∀ l ∈ ls, tfind q.1.threads (g.tk l) = (tfind s.threads (g.tk l)).map (h l))
      ∧ ∀ k, (∀ l ∈ ls, k ≠ g.tk l) → tfind q.1.threads k = tfind s.threads k := by
  induction ls generalizing s with
  | nil => exact ⟨rfl, rfl, by simp, fun _ _ => rfl⟩
  | cons l r ih =>
    simp only [List.nodup_cons] at hn
    have one := hf s l
    have rest := ih hn.2 (f s l).1
    refine ⟨?_, rest.2.1.trans one.2.1, fun k hk => ?_, fun k hk => ?_⟩
    · show (l, (f s l).2) :: _ = _
      rw [one.1]; exact congrArg _ rest.1
    · rcases List.mem_cons.1 hk with rfl | hk
      · refine (rest.2.2.2 _ (fun j hj e => by have := tk_inj e; subst this; exact hn.1 hj)).trans ?_
        rw [one.2.2, if_pos rfl]
      · refine (rest.2.2.1 k hk).trans ?_
        rw [one.2.2, if_neg (fun e => by have := tk_inj e; subst this; exact hn.1 hk)]
    · refine (rest.2.2.2 k (fun j hj => hk j (List.mem_cons_of_mem _ hj))).trans ?_
      rw [one.2.2, if_neg (fun e => hk l (List.mem_cons_self ..) e.symm)]

/-- The lanes that pass, each with no fate yet. -/
theorem pre_none {i : Instr} {s : State} (h : Ready i s) :
    (activeLanes s (groupOf s)).map (fun l => (l, preAct s (groupOf s) i l)) = (lanes s).map (fun l => (l, none)) :=
  List.map_congr_left (fun l hl => by rw [preAct_none (ready_lane h hl)])

/-- An instruction that changes nothing but the threads of its lanes: `h` is its own effect on a thread, `a` the thread's fate. -/
theorem runWord_threads {i : Instr} {s : State} (hr : Ready i s) {f : State → Nat → State × LaneAct} {h : Nat → Thread → Thread}
    {a : Nat → LaneAct} (hf : Local (groupOf s) f h a) (ht : ∀ l ∈ lanes s, thin s l (a l))
    (hh : ∀ l ∈ lanes s, (h l (lane s l)).region = (lane s l).region ∧ ((∃ c v, a l = .trap c v) → h l (lane s l) = lane s l)) :
    OnlyThreads s (runWord i s f)
      ∧ Threads s (runWord i s f) (fun l u => finishes i s ((lanes s).map (fun l => (l, a l))) l (h l u) (a l)) := by
  have L := laneFates_local hf (lanes s) (lanes_nodup s) (issued s)
  let b := (laneFates f (issued s) ((lanes s).map (fun l => (l, none)))).1
  have hrun : runWord i s f = regionPass s (groupOf s) i ((lanes s).map (fun l => (l, a l)))
        (applyActs (groupOf s) i.marker (s.issueSeq + 1) b ((lanes s).map (fun l => (l, a l)))) := by
    unfold runWord
    simp only [pre_none hr]
    rw [L.1]
  have hE : ∀ l ∈ lanes s, tfind b.threads ((groupOf s).tk l) = some (h l (lane s l)) := by
    intro l hl
    refine (L.2.2.1 l hl).trans ?_
    rw [issued_threads, lane_live hl]; rfl
  have T := ends_thin (i := i) a (fun l => h l (lane s l)) ht hh b hE ((congrArg (fun s : State => s.residents) L.2.1).trans (issued_residents s))
  rw [hrun]
  refine ⟨onlyThreads_of (T.2.2.trans L.2.1), fun l hl => T.1 l hl, fun k hk => ?_⟩
  exact (T.2.1 k hk).trans ((L.2.2.2 k hk).trans (by rw [issued_threads]))

end Sys2Proof.Laws
end

