-- ==== Sys2Proof/Tests/Slice0.lean ====
section
/-! SUPPORT. Tests: ill-formed terms that the checks refuse, words of the specification's examples, results of its tables, and a state and
operands for the hypotheses of each statement. -/

namespace Sys2Proof.Tests

set_option maxRecDepth 100000
set_option Elab.async false

open Sys2Proof.Machine Sys2Proof.Safety

/-! ## Well-formedness (R251 to R256) -/

/-- One term for each check that it fails: odd pair, pair past 110, quad, pair index, scope, two pairs, width codes, hints, data register,
field length, DX format, status register, PHASE's scope, JALR's link, WINCNT's selector. -/
theorem test_wellFormed_refuses : ∀ i ∈ [Instr.add64 false 3 4 6, Instr.add64 false 112 4 6, Instr.slevt false 2, Instr.aadd false 56 1 1 2,
    Instr.aadd false 0 1 1 1, Instr.acasver false 0 1 3 2, Instr.ldg false 4 2 7 0 0, Instr.stg false 4 2 1 0 0, Instr.ldg false 4 2 4 3 0,
    Instr.lds false 4 2 4 1 0, Instr.ldp false 4 2 4 1 0, Instr.ldg false 5 2 5 0 0, Instr.bfx false 4 5 false 31 1, Instr.dxq false 4 5 3,
    Instr.atbeg false 112 0, Instr.phase false 1 4, Instr.jalr false 0 4, Instr.wincnt false 4 5 false 3, Instr.rand false 13 8 10],
    i.wellFormed = false := by decide

/-- The decoder refuses the words that those terms would have. -/
theorem test_decode_refuses : ∀ i ∈ [Instr.add64 false 3 4 6, Instr.slevt false 2, Instr.aadd false 56 1 1 2, Instr.aadd false 0 1 1 1,
    Instr.acasver false 0 1 3 2, Instr.ldg false 4 2 7 0 0, Instr.stg false 4 2 1 0 0, Instr.ldg false 4 2 4 3 0, Instr.bfx false 4 5 false 31 1,
    Instr.dxq false 4 5 3, Instr.atbeg false 112 0, Instr.phase false 1 4, Instr.jalr false 0 4, Instr.wincnt false 4 5 false 3],
    decodeTableWord 32 (encode i) = none := by decide +kernel

/-! ## Words (the specification's own examples beside its encoding tables) -/

theorem test_words_integer : ∀ e ∈ [(0x02A28205, Instr.mad false 10 4 5), (0x05418380, .clz false 6 7), (0x0680C205, .sltn false 3 4 5),
    (0x0902860E, .div false 10 12 14), (0x0C1028FF, .andi false 4 5 255), (0x1A102D68, .bfx false 4 5 true 11 8),
    (0x1C102968, .bfi false 4 5 11 8), (0x1E204040, .addxi false 8 8 64), (0x22200020, .lapc false 8 0x20), (0x34143806, .bltn false 5 7 6),
    (0x3A000038, .jal false 0x38), (0x3C000100, .jr false 2), (0x3C208500, .jalr false 2 10), (0x18201802, .shli false 8 3 2),
    (0x0A240040, .addi false 9 0 0x40), (0x2E58B808, .bne false 22 23 8)], decodeTableWord 32 e.1 = some e.2 := by decide +kernel

theorem test_words_control : ∀ e ∈ [(0x3E000000, Instr.nop false), (0x3E200000, .exit false), (0x3E400000, .yield false),
    (0x3E600011, .trapI false 17), (0x3E800000, .brk false), (0x3EA00000, .eret false), (0x3EC00200, .wbase false 4),
    (0x3EE00286, .chk false 5 6), (0x3F050403, .spawn false 20 8 3), (0x3F200000, .jenrol false 0), (0x3F400003, .jwait false 3),
    (0x3F600000, .jstrike false 0), (0x3F800000, .tickwait false), (0x4200301B, .wrcw false 6 0x01B), (0x400C0014, .rdcw false 3 0x014),
    (0x4058_0018, .rdcw false 22 0x018)], decodeTableWord 32 e.1 = some e.2 := by decide +kernel

theorem test_words_float : ∀ e ∈ [(0x2461C205, Instr.fma false 7 4 5), (0x24C18280, .fabs false 6 5), (0x27010305, .f2e4 false 4 6 5),
    (0x26014300, .ftoi false 5 6 0), (0x26414301, .itof false 5 6 1), (0x28214200, .frsq false 5 4), (0x28E1C205, .bfma2 false 7 4 5),
    (0x29228201, .dxq false 10 4 1), (0x29430501, .dxd false 12 10 1), (0x2A014300, .ballot false 5 6), (0x2A818207, .shflx false 6 4 7),
    (0x2B41C200, .redfadd false 7 4), (0x2BA18280, .movix false 6 5), (0x2BC14300, .movixw false 5 6), (0x2BE0C000, .lmask false 3)],
    decodeTableWord 32 e.1 = some e.2 := by decide +kernel

theorem test_words_memory : ∀ e ∈ [(0x44144441, Instr.ldg false 5 8 4 1 1), (0x4618457E, .stg false 6 8 5 1 0x3E), (0x48281D01, .lds false 10 3 5 0 1),
    (0x4C181480, .ldp false 6 2 4 2 0), (0x4E18143F, .stp false 6 2 4 0 0x3F), (0x46604400, .stg false 24 8 4 0 0), (0x50000400, .pf false 8),
    (0x50200400, .cwb false 8), (0x50400400, .cinv false 8), (0x50600400, .cflush false 8), (0x5201081D, .aadd false 2 4 3 5),
    (0x5321081D, .acas false 2 4 3 5), (0x5401081D, .aaddD false 2 4 3 5), (0x55810835, .acasver false 2 4 6 5), (0x5240081A, .aor false 0 4 3 2),
    (0x56100006, .atbeg false 4 6), (0x58000000, .atend false), (0x58200009, .atabort false 9), (0x58418000, .atstat false 6)],
    decodeTableWord 32 e.1 = some e.2 := by decide +kernel

theorem test_words_sync : ∀ e ∈ [(0x5A010000, Instr.fenceRel false 4), (0x5A218000, .fenceAcq false 6), (0x5A414000, .fenceAr false 5),
    (0x5A608500, .phase false 2 10), (0x5C050600, .bararv false 20 12 0), (0x5C250600, .barwait false 20 12 0),
    (0x5C450601, .barsync false 20 12 1), (0x5C614600, .barinit false 5 12 0), (0x5E014406, .waiteq false 5 8 6), (0x5E214406, .waitne false 5 8 6),
    (0x5E414406, .waitge false 5 8 6), (0x5E600502, .tlwait false 10 2), (0x5E830002, .tlread false 12 2), (0x5EA00383, .qpush false 7 3),
    (0x5EC1C003, .qpop false 7 3), (0x5EE28200, .qtake false 10 4)], decodeTableWord 32 e.1 = some e.2 := by decide +kernel

theorem test_words_engines : ∀ e ∈ [(0x60028200, Instr.copy false 10 4), (0x60200200, .copyg false 0 4), (0x60400200, .prefa false 0 4),
    (0x60600286, .fetchw false 5 6), (0x62000200, .put false 0 4), (0x62230200, .puts false 12 4), (0x62400200, .get false 0 4),
    (0x62628285, .wincnt false 10 5 true 1), (0xE408450B, .mloop true 2 0 1 10 11), (0x66000003, .slclr false 3),
    (0x66230282, .slrd false 12 5 0 2), (0x6623029A, .slrd false 12 5 3 2), (0x66430282, .slwr false 12 5 2), (0x66638282, .slstat false 14 5 2),
    (0x66840000, .slevt false 16), (0x66A00001, .fifoclr false 1), (0x6803040A, .rand false 12 8 10), (0x6821440A, .randf false 5 8 10)],
    decodeTableWord 32 e.1 = some e.2 := by decide +kernel

/-- Unassigned major and minor codes, fields that must be zero, and a table row of fewer bits (R257). -/
theorem test_words_refused : ∀ w ∈ [0, 63 * 2 ^ 25, 0x3E000001, 0x3FA00000, 0x5A010001, 0x28020003, 0x18000020, 0x66C00000],
    decodeTableWord 32 w = none := by decide +kernel

/-! ## Results (the specification's tables of examples) -/

/-- The one-lane program of `withFetchWord`, with registers of its thread set. -/
def demo (i : Instr) (rs : List (Nat × Word)) : State :=
  let s := State.reset.withFetchWord 32 (encode i)
  { s with regs := rs.foldl (fun t r => tset 0 t (regKey demoCk 0 r.1 0) r.2) s.regs }

/-- The thread of that program. -/
def tk0 : Nat := tkey demoCk 0 0

/-- Register n after the instruction, counting a deferred result as written. -/
def result (i : Instr) (rs : List (Nat × Word)) (n : Nat) : Option Word :=
  match exec i (demo i rs) with
  | .next t =>
    let later := ((threadAt t tk0).pend.flatMap (·.ws)).find? (fun w => w.1 == .alloc n)
    some ((later.map (·.2)).getD (tget 0 t.regs (regKey demoCk 0 n 0)))
  | _ => none

/-- The thread after the instruction. -/
def thread (i : Instr) (rs : List (Nat × Word)) : Thread :=
  match exec i (demo i rs) with
  | .next t => threadAt t tk0
  | _ => Thread.blank

/-- A step fetches the instruction at issue from memory, decodes it, and runs it. -/
theorem test_step_fetches : ∀ e ∈ [(Instr.add false 10 4 5, [(4, 7), (5, 8)]), (Instr.lui true 10 3, []), (Instr.redadd false 10 4, [(4, 9)])],
    (match step (demo e.1 e.2), exec e.1 (demo e.1 e.2) with
     | .next t, .next u => t.threads == u.threads && t.regs == u.regs && t.issue.isNone
     | _, _ => false) = true := by decide +kernel

theorem test_results_integer : ∀ e ∈ [(Instr.add false 10 4 5, 0x7FFFFFFF, 1, 0x80000000), (Instr.adds false 10 4 5, 0x7FFFFFFF, 1, 0x7FFFFFFF),
    (Instr.subs false 10 4 5, 0x80000000, 1, 0x80000000), (Instr.mulh false 10 4 5, 0xFFFFFFFF, 2, 0xFFFFFFFF),
    (Instr.mulhn false 10 4 5, 0xFFFFFFFF, 2, 1), (Instr.adif false 10 4 5, 0x80000000, 0x7FFFFFFF, 0xFFFFFFFF),
    (Instr.mad false 10 4 5, 0xFFFFFFFF, 0xFFFFFFFF, 11), (Instr.sub false 10 4 5, 1, 2, 0xFFFFFFFF), (Instr.mul false 10 4 5, 0x10001, 0x10001, 0x20001),
    (Instr.min false 10 4 5, 0xFFFFFFFF, 1, 0xFFFFFFFF), (Instr.max false 10 4 5, 0xFFFFFFFF, 1, 1), (Instr.minn false 10 4 5, 0xFFFFFFFF, 1, 1),
    (Instr.maxn false 10 4 5, 0xFFFFFFFF, 1, 0xFFFFFFFF)],
    result e.1 [(4, e.2.1), (5, e.2.2.1), (10, 10)] 10 = some e.2.2.2 := by decide +kernel

theorem test_results_logic : ∀ e ∈ [(Instr.and false 10 4 5, 12, 10, 8), (Instr.or false 10 4 5, 12, 10, 14), (Instr.xor false 10 4 5, 12, 10, 6),
    (Instr.andn false 10 4 5, 12, 10, 4), (Instr.shl false 10 4 5, 3, 33, 6), (Instr.shr false 10 4 5, 0x80000000, 31, 1),
    (Instr.shra false 10 4 5, 0x80000000, 31, 0xFFFFFFFF), (Instr.rotl false 10 4 5, 0x80000001, 1, 3), (Instr.sel false 10 4 5, 12, 10, 12),
    (Instr.popc false 10 4, 0xF0F0, 0, 8), (Instr.clz false 10 4, 0, 0, 32), (Instr.ctz false 10 4, 8, 0, 3), (Instr.brev false 10 4, 1, 0, 0x80000000),
    (Instr.seq false 10 4 5, 3, 3, 1), (Instr.sne false 10 4 5, 3, 3, 0), (Instr.slt false 10 4 5, 0xFFFFFFFF, 0, 1),
    (Instr.sle false 10 4 5, 4, 4, 1), (Instr.sltn false 10 4 5, 0xFFFFFFFF, 0, 0), (Instr.slen false 10 4 5, 4, 3, 0),
    (Instr.addi false 10 4 0x7FF, 0, 0, 0xFFFFFFFF), (Instr.andi false 10 4 0x7FF, 0xABCD1234, 0, 0xABCD1234), (Instr.ori false 10 4 1, 2, 0, 3),
    (Instr.xori false 10 4 0x7FF, 1, 0, 0xFFFFFFFE), (Instr.slti false 10 4 0x7FF, 0xFFFFFFFE, 0, 1), (Instr.sltni false 10 4 0x7FF, 0xFFFFFFFF, 0, 0),
    (Instr.muli false 10 4 0x7FE, 3, 0, 0xFFFFFFFA), (Instr.shli false 10 4 31, 3, 0, 0x80000000), (Instr.shri false 10 4 4, 0xF0, 0, 0xF),
    (Instr.shrai false 10 4 4, 0xFFFFFF00, 0, 0xFFFFFFF0), (Instr.rotli false 10 4 8, 0x12345678, 0, 0x34567812),
    (Instr.bfx false 10 4 true 11 8, 0x00ABC800, 0, 0xFFFFFBC8), (Instr.lui false 10 0x3FFFF, 0, 0, 0xFFFFC000)],
    result e.1 [(4, e.2.1), (5, e.2.2.1), (10, 1)] 10 = some e.2.2.2 := by decide +kernel

theorem test_results_wide : ∀ e ∈ [(Instr.div false 10 4 6, [(4, 0xFFFFFFF9), (5, 0xFFFFFFFF), (6, 2)], 0xFFFFFFFD, 0xFFFFFFFF),
    (Instr.rem false 10 4 6, [(4, 0xFFFFFFF9), (5, 0xFFFFFFFF), (6, 2)], 0xFFFFFFFF, 0xFFFFFFFF),
    (Instr.div false 10 4 6, [(4, 7)], 0xFFFFFFFF, 0xFFFFFFFF), (Instr.rem false 10 4 6, [(4, 7)], 7, 0),
    (Instr.divn false 10 4 6, [(4, 7)], 0xFFFFFFFF, 0xFFFFFFFF), (Instr.remn false 10 4 6, [(4, 7)], 7, 0),
    (Instr.div false 10 4 6, [(5, 0x80000000), (6, 0xFFFFFFFF), (7, 0xFFFFFFFF)], 0, 0x80000000),
    (Instr.add64 false 10 4 6, [(4, 0xFFFFFFFF), (6, 1)], 0, 1), (Instr.sub64 false 10 4 6, [(6, 1)], 0xFFFFFFFF, 0xFFFFFFFF),
    (Instr.mul64 false 10 4 6, [(4, 0xFFFFFFFF), (6, 0xFFFFFFFF)], 1, 0xFFFFFFFE), (Instr.addx false 10 4 6, [(6, 0xFFFFFFFF)], 0xFFFFFFFF, 0xFFFFFFFF),
    (Instr.addxn false 10 4 6, [(6, 0xFFFFFFFF)], 0xFFFFFFFF, 0), (Instr.shl64 false 10 4 6, [(4, 1), (6, 96)], 0, 1),
    (Instr.shr64 false 10 4 6, [(5, 1), (6, 32)], 1, 0), (Instr.shra64 false 10 4 6, [(5, 0x80000000), (6, 32)], 0x80000000, 0xFFFFFFFF),
    (Instr.addxi false 10 4 64, [(4, 0xFFFFFFC0)], 0, 1), (Instr.lapc false 10 0x20, [], 0x80, 0x41),
    (Instr.jal false 0x38, [], 0, 0)],
    result e.1 e.2.1 10 = some e.2.2.1 ∧ result e.1 e.2.1 11 = some e.2.2.2 := by decide +kernel

theorem test_results_wide_compare : ∀ e ∈ [(Instr.seq64 false 10 4 6, 0), (Instr.slt64 false 10 4 6, 1), (Instr.sltn64 false 10 4 6, 0)],
    result e.1 [(5, 0x80000000)] 10 = some e.2 := by decide +kernel

theorem test_bfi : result (.bfi false 4 5 11 8) [(4, 0xFFFFFFFF), (5, 0x123)] 4 = some 0xFFF123FF := by decide +kernel

theorem test_results_float : ∀ e ∈ [(Instr.fma false 10 4 5, 0x4B800000, 0x3F800000, 0x3F800000, 0x4B800000),
    (Instr.fma false 10 4 5, 0x4B800000, 0x3F800000, 0x40400000, 0x4B800002), (Instr.fma false 10 4 5, 0x3F800800, 0x3F800800, 0xBF800000, 0x3A000400),
    (Instr.fnma false 10 4 5, 0x3F800000, 0x3F800000, 0x3F800000, 0), (Instr.fadd false 10 4 5, 0x3F800000, 0x3F800000, 0, 0x40000000),
    (Instr.fsub false 10 4 5, 0x3F800000, 0x3F800000, 0, 0), (Instr.fmul false 10 4 5, 0x7F800000, 0, 0, 0x7FC00000),
    (Instr.fmin false 10 4 5, 0x80000000, 0, 0, 0x80000000), (Instr.fmax false 10 4 5, 0x7FC00000, 0x3F800000, 0, 0x3F800000),
    (Instr.fabs false 10 4, 0xFFC00000, 0, 0, 0x7FC00000), (Instr.fneg false 10 4, 0x3F800000, 0, 0, 0xBF800000),
    (Instr.fsgn false 10 4 5, 0x3F800000, 0xFFC00000, 0, 0xBF800000), (Instr.feq false 10 4 5, 0x80000000, 0, 0, 1),
    (Instr.flt false 10 4 5, 0x80000000, 0, 0, 0), (Instr.fle false 10 4 5, 0x7FC00000, 0, 0, 0), (Instr.fclass false 10 4, 0x80000001, 0, 0, 4),
    (Instr.f2e4 false 10 4 5, 0x447A0000, 0, 0, 0x7E), (Instr.ftoi false 10 4 0, 0xC0200000, 0, 0, 0xFFFFFFFE),
    (Instr.itof false 10 4 1, 0x01000003, 0, 0, 0x4B800001), (Instr.fton false 10 4 0, 0xBF800000, 0, 0, 0), (Instr.ntof false 10 4 0, 0xFFFFFFFF, 0, 0, 0x4F800000),
    (Instr.f2bf false 10 4 0, 0x3F808000, 0, 0, 0x3F80), (Instr.f2h false 10 4 0, 0x3F800000, 0, 0, 0x3C00), (Instr.f2e5 false 10 4 0, 0x3F800000, 0, 0, 0x3C),
    (Instr.bf2f false 10 4, 0x3F80, 0, 0, 0x3F800000), (Instr.h2f false 10 4, 0x3C00, 0, 0, 0x3F800000), (Instr.e42f false 10 4, 0x7E, 0, 0, 0x43E00000),
    (Instr.e52f false 10 4, 0x3C, 0, 0, 0x3F800000), (Instr.frcp false 10 4, 0x40400000, 0, 0, 0x3EAAAAAB), (Instr.frcp false 10 4, 0x00200000, 0, 0, 0x7F800000),
    (Instr.fsqrt false 10 4, 0x40000000, 0, 0, 0x3FB504F3), (Instr.frsq false 10 4, 0x40800000, 0, 0, 0x3F000000), (Instr.fexp2 false 10 4, 0xC3150000, 0, 0, 1),
    (Instr.fexp2 false 10 4, 0xC3160000, 0, 0, 0), (Instr.flog2 false 10 4, 0x80000000, 0, 0, 0xFF800000),
    (Instr.badd2 false 10 4 5, 0x3F803F80, 0x3BC03B80, 0, 0x3F813F80), (Instr.bmul2 false 10 4 5, 0x40004000, 0x3F804000, 0, 0x40004080),
    (Instr.bfma2 false 10 4 5, 0x3F803F80, 0x3F803F80, 0x3F803F80, 0x40004000), (Instr.bmax2 false 10 4 5, 0x7FC03F80, 0x3F804000, 0, 0x3F804000)],
    result e.1 [(4, e.2.1), (5, e.2.2.1), (10, e.2.2.2.1)] 10 = some e.2.2.2.2 := by decide +kernel

/-- Philox-4x32-10 of a zero key and counter (the generator's published first answer). -/
theorem test_random : ([12, 13, 14, 15].map (result (.rand false 12 8 10) []) = [some 0x6627E8D5, some 0xE169C58D, some 0xBC57AC4C, some 0x9B00DBD8])
    ∧ result (.randf false 12 8 10) [] 12 = some 0x3ECC4FD0 := by decide +kernel

/-- The published digests of the empty message. -/
theorem test_hashes : (sha384 []).take 8 = [0x38, 0xb0, 0x60, 0xa7, 0x51, 0xac, 0x96, 0x38]
    ∧ (shake256 []).take 8 = [0x46, 0xb9, 0xdd, 0x2b, 0x0b, 0xa8, 0x8d, 0x13] := by decide +kernel

/-! ## Control, troupes, memory and synchronisation -/

theorem test_branches : ∀ e ∈ [(Instr.beq false 4 5 4, 3, 3, 16), (Instr.bne false 4 5 4, 3, 3, 4), (Instr.blt false 4 5 0x7FF, 0xFFFFFFFF, 0, -4),
    (Instr.bge false 4 5 4, 0xFFFFFFFF, 0, 4), (Instr.bltn false 4 5 4, 0xFFFFFFFF, 0, 4), (Instr.bgen false 4 5 0, 5, 5, 0),
    (Instr.br false 0x1FFFFFF, 0, 0, -4), (Instr.jal false 0x38, 0, 0, 0xE0), (Instr.nop true, 0, 0, 4), (Instr.yield false, 0, 0, 4),
    (Instr.chk false 5 4, 3, 2, 4), (Instr.fenceRel false 5, 0, 0, 4), (Instr.fenceAcq false 5, 0, 0, 4), (Instr.fenceAr false 2, 0, 0, 4)],
    (thread e.1 [(4, e.2.1), (5, e.2.2.1)]).pc = BitVec.ofInt 64 (0x4100000000 + e.2.2.2) := by decide +kernel

/-- A jump through a register to itself writes the link after it has read the target (R272). -/
theorem test_jalr : (thread (.jalr false 2 2) [(2, 0x100), (3, 0x41)]).pc = 0x4100000100 ∧ result (.jalr false 2 2) [(2, 0x100), (3, 0x41)] 2 = some 4
    ∧ (thread (.jr false 4) [(4, 8)]).pc = 8 := by decide +kernel

/-- Traps to the vector at image offset 0x80: cause, cw.tval, cw.epc and H (R141, R142). -/
theorem test_traps : ∀ e ∈ [(Instr.trapI false 17, 0x0D, 17), (Instr.brk false, 0x0C, 0x3E800000), (Instr.eret false, 0x01, 0x3EA00000),
    (Instr.chk false 4 5, 0x0B, 9), (Instr.jr false 4, 0x03, 9), (Instr.wbase false 4, 0x07, 9), (Instr.wrcw false 4 0x007, 0x01, 0x42002007),
    (Instr.lds false 6 8 4 0 0, 0x06, 0x1000), (Instr.barinit false 4 4 0, 0x03, 9), (Instr.copy false 0 4, 0x03, 9),
    (Instr.fetchw false 4 4, 0x03, 9), (Instr.mloop false 0 0 1 4 8, 0x09, 9)],
    let t := thread e.1 [(4, 9), (8, 0x1000)]
    (t.cause, t.tval, t.epc, t.inHandler, t.pc) = (BitVec.ofNat 8 e.2.1, BitVec.ofNat 64 e.2.2, 0x4100000000, true, 0x4100000080) := by decide +kernel

theorem test_control_words : ∀ e ∈ [(Instr.rdcw false 10 0x000, 0), (Instr.rdcw false 10 0x005, 0), (Instr.rdcw false 10 0x011, 128),
    (Instr.rdcw false 10 0x012, 64), (Instr.rdcw false 10 0x021, 1), (Instr.rdcw false 10 0x7FF, 0), (Instr.rdcw false 10 0x020, 2048)],
    result e.1 [(10, 5)] 10 = some e.2 := by decide +kernel

theorem test_control_word_writes : (thread (.wrcw false 4 0x020) [(4, 5)]).binTimer = 32 ∧ (thread (.wrcw false 4 0x018) [(4, 0x1FF)]).cause = 0xFF
    ∧ (thread (.wrcw false 4 0x010) [(4, 0)]).pc = 0x4100000004 ∧ (thread (.wrcw false 4 0x023) [(4, 0x800)]).held = some 0 := by decide +kernel

/-- Several lanes of one troupe, with registers by lane. -/
def crowd (i : Instr) (ls : List Nat) (rs : List (Nat × Nat × Word)) : State :=
  let s := demo i []
  { s with
    regs := rs.foldl (fun t r => tset 0 t (regKey demoCk 0 r.2.1 r.1) r.2.2) s.regs,
    threads := ls.foldl (fun t l => tput t (tkey demoCk 0 l) (threadAt s tk0)) s.threads,
    troupes := tput s.troupes (pkey demoCk 0) { Troupe.blank with lmask := maskOf ls },
    issue := s.issue.map (fun g => { g with mask := maskOf ls }) }

/-- The value that register n of a lane is to receive. -/
def given (i : Instr) (s : State) (l n : Nat) : Option Word :=
  match exec i s with
  | .next t =>
    let later := ((threadAt t (tkey demoCk 0 l)).pend.flatMap (·.ws)).find? (fun w => w.1 == .alloc n)
    some ((later.map (·.2)).getD (tget 0 t.regs (regKey demoCk 0 n l)))
  | _ => none

def fiveLanes (i : Instr) : State := crowd i [0, 2, 4, 5, 7] [(0, 4, 3), (2, 4, 1), (4, 4, 4), (5, 4, 1), (7, 4, 5)]

/-- The example of R294: lanes 0, 2, 4, 5 and 7 with 3, 1, 4, 1 and 5. -/
theorem test_scans : [0, 2, 4, 5, 7].map (fun l => given (.scanadd false 10 4) (fiveLanes (.scanadd false 10 4)) l 10) = [some 3, some 4, some 8, some 9, some 14]
    ∧ [0, 2, 4, 5, 7].map (fun l => given (.scanaddx false 10 4) (fiveLanes (.scanaddx false 10 4)) l 10) = [some 0, some 3, some 4, some 8, some 9] := by
  decide +kernel

theorem test_votes : ∀ e ∈ [(Instr.redadd false 10 4, 14), (Instr.redmin false 10 4, 1), (Instr.redmax false 10 4, 5), (Instr.lmask false 10, 0xB5),
    (Instr.ballot false 10 4, 0xB5), (Instr.vany false 10 4, 1), (Instr.vall false 10 5, 0)],
    given e.1 (fiveLanes e.1) 5 10 = some e.2 := by decide +kernel

/-- Lane 2 reads 7, 2 + 5; lane 0 reads 5; up from 0 keeps its own; a lane without a thread reads 0 (R293). -/
theorem test_shuffles : given (.shfldn false 10 4 5) (crowd (.shfldn false 10 4 5) [0, 2, 7] [(2, 5, 5), (7, 4, 9)]) 2 10 = some 9
    ∧ given (.shflx false 10 4 5) (crowd (.shflx false 10 4 5) [0, 2] [(0, 5, 5), (5, 4, 9)]) 0 10 = some 0
    ∧ given (.shflup false 10 4 5) (crowd (.shflup false 10 4 5) [0] [(0, 5, 1), (0, 4, 6)]) 0 10 = some 6
    ∧ given (.shfl false 10 4 5) (crowd (.shfl false 10 4 5) [0, 3] [(0, 5, 35), (3, 4, 8)]) 0 10 = some 8 := by decide +kernel

/-- The example of R295: 2^24 in lane 0 and 1.0 in lanes 2 and 3. -/
theorem test_tree_sum : given (.redfadd false 10 4) (crowd (.redfadd false 10 4) (List.range 32) [(0, 4, 0x4B800000), (2, 4, 0x3F800000), (3, 4, 0x3F800000)]) 9 10
    = some 0x4B800001 := by decide +kernel

/-- The example of R290: the two blocks that its table gives, read back. -/
theorem test_dxd : [0, 1, 2, 3, 4, 5, 6, 8, 9, 13, 20].map (given (.dxd false 12 10 1) (crowd (.dxd false 12 10 1) (List.range 32)
      [(0, 10, 0x38F08AAC), (1, 10, 0x60A11F00), (2, 10, 8), (16, 10, 0xFF00DB7E)]) · 12)
    = [some 0x40400000, some 0xBFA00000, some 0x3F000000, some 0x3E800000, some 0x40F00000, some 0xC0C00000, some 0, some 0xC0700000, some 0x40000000,
       some 0x3F800000, some 0] := by decide +kernel

/-- And written: the values of that table, with lanes 16 to 31 at +0. -/
theorem test_dxq : [0, 1, 2, 3, 16, 17].map (given (.dxq false 10 4 1) (crowd (.dxq false 10 4 1) (List.range 16)
      (((List.range 16).zip [0x40400000, 0xBFA00000, 0x3F000000, 0x3E800000, 0x40F00000, 0xC0C00000, 0, 0, 0xC0700000, 0x40000000, 0x40800000,
        0x3F000000, 0x3FC00000, 0x3F800000, 0, 0]).map (fun x => (x.1, 4, x.2)))) · 10)
    = [some 0x38F08AAC, some 0x60A11F00, some 8, some 0, some 0, some 0] := by decide +kernel

theorem test_movix : result (.movix false 10 4) [(4, 7), (7, 99)] 10 = some 99 ∧ result (.movixw false 4 5) [(4, 7), (5, 99)] 7 = some 99 := by decide +kernel

/-- Scratch with some bytes. -/
def withBytes (s : State) (o : Nat) (bs : List Byte) : State := { s with scratch := wrBytes s.scratch (scratchKey demoCk o) bs }

/-- A byte of the class's scratch after the instruction. -/
def scratchAfter (i : Instr) (s : State) (o n : Nat) : Option Nat :=
  match exec i s with
  | .next t => some (scratchNat t demoCk o n)
  | _ => none

theorem test_scratch_loads : ∀ e ∈ [(Instr.lds false 10 4 0 0 0, 0xFFFFFF80), (Instr.lds false 10 4 1 0 0, 0x80), (Instr.lds false 10 4 2 0 0, 0xFFFFFF80),
    (Instr.lds false 10 4 3 0 0, 0xFF80), (Instr.lds false 10 4 4 0 0, 0x4321FF80)],
    given e.1 (withBytes (demo e.1 [(4, 0x11)]) 0x11 [0x80, 0xFF, 0x21, 0x43]) 0 10 = some e.2 := by decide +kernel

theorem test_stores : scratchAfter (.sts false 6 4 4 0 0x3F) (demo (.sts false 6 4 4 0 0x3F) [(4, 8), (6, 0xA1B2C3D4)]) 4 8 = some 0xA1B2C3D4
    ∧ scratchAfter (.stg false 6 4 2 0 0) (demo (.stg false 6 4 2 0 0) [(4, 8), (5, 0xFE00), (6, 0xA1B2C3D4)]) 8 4 = some 0xC3D4
    ∧ given (.sts false 6 4 4 0 0) (demo (.sts false 6 4 4 0 0) [(4, 0x80000000 + 20 * 128), (6, 77)]) 0 20 = some 77 := by decide +kernel

/-- A load of the program's own word, from the page that holds it. -/
theorem test_global_load : result (.ldg false 10 4 4 0 0) [(5, 0x41)] 10 = some 0x44282400 := by decide +kernel

theorem test_private : result (.ldp false 10 4 4 0 0) [(4, 8)] 10 = some 0 ∧ (thread (.ldp false 10 4 4 0 0) [(4, 64)]).cause = 0x05
    ∧ (thread (.stp false 10 4 4 0 0) [(4, 60)]).pc = 0x4100000004 := by decide +kernel

/-- A 32-bit atomic on scratch: the old value, and the location. -/
theorem test_atomics : ∀ e ∈ [(Instr.aadd false 5 4 3 2, 0xC), (.aand false 5 4 3 2, 1), (.aor false 5 4 3 2, 0xB), (.axor false 5 4 3 2, 0xA),
    (.amin false 5 4 3 2, 3), (.amax false 5 4 3 2, 9), (.aminn false 5 4 3 2, 3), (.amaxn false 5 4 3 2, 9), (.aswap false 5 4 3 2, 3),
    (.acas false 5 4 3 2, 9), (.acasgt false 5 4 3 2, 9), (.acasgtn false 5 4 3 2, 9), (.aaddD false 5 4 3 2, 0xC), (.aandD false 5 4 3 2, 1),
    (.aorD false 5 4 3 2, 0xB), (.axorD false 5 4 3 2, 0xA), (.aminD false 5 4 3 2, 3), (.amaxD false 5 4 3 2, 9), (.aminnD false 5 4 3 2, 3),
    (.amaxnD false 5 4 3 2, 9), (.aswapD false 5 4 3 2, 3), (.acasD false 5 4 4 2, 9), (.acasgtD false 5 4 4 2, 9), (.acasgtnD false 5 4 4 2, 9),
    (.acastag false 5 4 4 2, 9)],
    let s := withBytes (demo e.1 [(8, 0x10), (9, 0xFE00), (6, 3), (7, 0)]) 0x10 [9]
    scratchAfter e.1 s 0x10 8 = some e.2 ∧ given e.1 s 0 10 = some 9 := by decide +kernel

/-- The example of R308 in one lane: version 5 becomes 6 with the new payload. -/
theorem test_acasver : let i : Instr := .acasver false 2 4 6 5
    let s := withBytes (demo i [(8, 0x10), (9, 0xFE00), (13, 0x00050000), (14, 0x200)]) 0x10 [0, 1, 0, 0, 0, 0, 5, 0]
    scratchAfter i s 0x10 8 = some 0x0006000000000200 ∧ given i s 0 5 = some 0x00050000 := by decide +kernel

/-- The object of R314's example, at each of its rows: GEN, NEXT, ARRIVED and COUNT 2. -/
def barrierAt (i : Instr) (v : Nat) (t : Word) : State :=
  let s := withBytes (demo i [(12, 8), (20, t)]) 8 (bytesOfNat 8 v)
  { s with classes := tupd s.classes demoCk (fun c => { c with barSlots := [8] }) }

theorem test_barrier : ∀ e ∈ [(0x0000000000000002, 0, 0x0000000000010002, 0x10000), (0x0000000000010002, 0x10000, 0x0000000200010002, 0x10001),
    (0x0000000200010002, 0, 0x0001000100010002, 0x10000), (0x0001000100010002, 0x10001, 0x0001000300010002, 0x10002)],
    scratchAfter (.bararv false 20 12 0) (barrierAt (.bararv false 20 12 0) e.1 e.2.1) 8 8 = some e.2.2.1
      ∧ given (.bararv false 20 12 0) (barrierAt (.bararv false 20 12 0) e.1 e.2.1) 0 20 = some e.2.2.2 := by decide +kernel

/-- The thread after an instruction of a prepared state. -/
def threadOf (i : Instr) (s : State) : Thread :=
  match exec i s with
  | .next t => threadAt t tk0
  | _ => Thread.blank

theorem test_parks : (threadOf (.bararv false 20 12 0) (barrierAt (.bararv false 20 12 0) 0x0000000200010002 0x10001)).park = some (.arrival demoCk 8 0)
    ∧ (threadOf (.barsync false 20 12 0) (barrierAt (.barsync false 20 12 0) 0x0000000000000002 0)).park = some (.barWait demoCk 8 0 2)
    ∧ (threadOf (.phase false 2 12) (barrierAt (.phase false 2 12) 0x0000000000000002 0)).park = some (.barWait demoCk 8 0 2)
    ∧ (threadOf (.barwait false 20 12 0) (barrierAt (.barwait false 20 12 0) 0x0000000000000002 0x10000)).park = some (.barWait demoCk 8 0 2)
    ∧ (threadOf (.waiteq false 10 4 6) (demo (.waiteq false 10 4 6) [(4, 8), (5, 0xFE00), (6, 1)])).park = some (.monitor 0xFE0000000008)
    ∧ (threadOf (.tickwait false) (demo (.tickwait false) [])).park = some .tick
    ∧ (threadOf (.tlwait false 4 3) (demo (.tlwait false 4 3) [(4, 1)])).park = some (.timeline 3 1)
    ∧ (threadOf (.jwait false 1) (crowd (.jwait false 1) [0] [])).park = none
    ∧ (threadOf (.qpop false 10 0) (demo (.qpop false 10 0) [])).park = some (.notePop 0)
    ∧ (threadOf (.qtake false 10 4) (demo (.qtake false 10 4) [])).park = some (.queue 0) := by decide +kernel

theorem test_waits : given (.waitne false 10 4 6) (withBytes (demo (.waitne false 10 4 6) [(4, 8), (5, 0xFE00), (6, 1)]) 8 [7]) 0 10 = some 7
    ∧ given (.waitge false 10 4 6) (withBytes (demo (.waitge false 10 4 6) [(4, 8), (5, 0xFE00), (6, 0xFFFFFFFF)]) 8 [7]) 0 10 = some 7
    ∧ given (.tlread false 10 3) (demo (.tlread false 10 3) [(10, 5)]) 0 10 = some 0
    ∧ (threadOf (.barinit false 4 5 0) (demo (.barinit false 4 5 0) [(4, 2), (5, 16)])).pc = 0x4100000004 := by decide +kernel

/-- A class queue of 2 handles at scratch offset 4,096 − 136: the tail counter and the slot after a push (R319). -/
theorem test_push : scratchAfter (.qpush false 4 0) (demo (.qpush false 4 0) [(4, 0xABC)]) (3960 + 4) 4 = some 1
    ∧ scratchAfter (.qpush false 4 0) (demo (.qpush false 4 0) [(4, 0xABC)]) (3960 + 128) 4 = some 0xABC
    ∧ given (.qpop false 10 0) (withBytes (withBytes (demo (.qpop false 10 0) []) 3964 [1]) 4088 [0x5A]) 0 10 = some 0x5A := by decide +kernel

/-- A copy of 16 bytes of scratch block offset 64, numbered 1 on timeline 0; and what the matrix unit and the usher take. -/
theorem test_engines : let i : Instr := .copy false 10 4
    let s := withBytes (demo i [(4, 64)]) 64 ([1, 1, 0, 0, 1, 0, 0, 0] ++ bytesOfNat 8 0x4100000000 ++ bytesOfNat 8 0x400 ++ bytesOfNat 4 16)
    given i s 0 10 = some 1 ∧ (match exec i s with | .next t => t.reqs.length == 1 && absentAt t demoCk 8 == 1 | _ => false) = true := by decide +kernel

theorem test_matrix : (match exec (.slclr false 3) (demo (.slclr false 3) []) with | .next t => (matrixAt t 0).ticket == 1 && (matrixAt t 0).acts.length == 1 | _ => false) = true
    ∧ given (.slevt false 16) (demo (.slevt false 16) []) 0 16 = some 0
    ∧ (match exec (.fetchw false 4 5) (demo (.fetchw false 4 5) [(4, 2)]) with | .next t => (usherAt t 0).fetches.length == 1 | _ => false) = true := by
  decide +kernel

/-! ## States that meet the hypotheses of the statements -/

/-- A state with the thread of the program changed. -/
def withThread (s : State) (f : Thread → Thread) : State := { s with threads := tupd s.threads tk0 f }

/-- The program without a trap vector. -/
def unvectored (s : State) : State :=
  { s with residents := tupd s.residents demoRid (fun r => { r with launch := { r.launch with trapVec := 0xFFFFFFFF } }) }

/-- The page of the program writable as well, its memory class `mc`. -/
def writable (s : State) (mc : Nat) : State :=
  { s with dmem := wrNat s.dmem (s.cfg.hdmSize + 12288 + 8 * (demoVa / 4096 % 512)) 8 (mkEntry (demoFrame / 4096) mc 0 7 false false true true) }

/-- A deferred result of register 9. -/
def owed9 : Deferred := ⟨[(.alloc 9, 1)], none, 1⟩

theorem test_witness_IntegerArithmeticResults : (∀ e ∈ [Instr.add, .sub, .mul, .mulh, .mulhn, .mad, .min, .max, .minn, .maxn, .adif, .adds, .subs],
      Ready (e false 10 4 5) (demo (e false 10 4 5) []) ∧ Ready (e true 0 119 127) (demo (e true 0 119 127) []))
    ∧ (∀ e ∈ [Instr.addi, .andi, .ori, .xori, .slti, .sltni, .muli], Ready (e false 112 4 0x400) (demo (e false 112 4 0x400) []))
    ∧ ∀ e ∈ [Instr.shli, .shri, .shrai, .rotli], Ready (e true 120 4 31) (demo (e true 120 4 31) []) := by decide +kernel

theorem test_witness_LogicCountAndCompareResults :
    (∀ e ∈ [Instr.and, .or, .xor, .andn, .shl, .shr, .shra, .rotl, .sel, .seq, .sne, .slt, .sle, .sltn, .slen],
      Ready (e false 10 4 5) (demo (e false 10 4 5) []))
    ∧ ∀ e ∈ [Instr.popc, .clz, .ctz, .brev], Ready (e false 10 4) (demo (e false 10 4) []) := by decide +kernel

theorem test_witness_WideAndDivisionResults : ∀ e ∈ [Instr.add64, .sub64, .mul64, .addx, .addxn, .shl64, .shr64, .shra64, .seq64, .slt64, .sltn64,
    .div, .divn, .rem, .remn], Ready (e false 110 4 6) (demo (e false 110 4 6) []) := by decide +kernel

theorem test_witness_FieldAndAddressResults : ∀ i ∈ [Instr.bfx false 10 4 true 0 31, .bfi false 10 4 31 0, .addxi false 10 4 0x7FF, .lui false 10 0x3FFFF,
    .lapc false 10 0x20000], Ready i (demo i []) := by decide +kernel

theorem test_witness_BranchesAndJumps : (∀ e ∈ [Instr.beq, .bne, .blt, .bge, .bltn, .bgen], Ready (e false 4 5 0x400) (demo (e false 4 5 0x400) []))
    ∧ (∀ i ∈ [Instr.br false 0x1000000, .jal true 1], Ready i (demo i []))
    ∧ ∀ i ∈ [Instr.jr false 4, .jalr false 6 4], Ready i (demo i []) ∧ (∀ l ∈ lanes (demo i []), (pair (demo i []) l 4).toNat % 4 = 0)
      ∧ Ready i (demo i [(4, 2)]) ∧ ∀ l ∈ lanes (demo i [(4, 2)]), (pair (demo i [(4, 2)]) l 4).toNat % 4 ≠ 0 ∧ handlerServes (demo i [(4, 2)]) l = true := by
  decide +kernel

/-- EXIT by a lane with no result left, one with a result left, and the last lane of a spawned troupe. -/
theorem test_witness_NopYieldAndExit : (∀ i ∈ [Instr.nop false, .yield true, .exit false], Ready i (demo i []))
    ∧ (let s := demo (.exit false) []; lanes s = [0] ∧ (lane s 0).park = none ∧ (lane s 0).pend = [])
    ∧ (let s := withThread (demo (.exit false) []) (fun t => { t with pend := [owed9] }); Ready (.exit false) s ∧ lanes s = [0] ∧ (lane s 0).park = none
        ∧ (lane s 0).pend ≠ [])
    ∧ (let s := { demo (.exit false) [] with troupes := tput [] (pkey demoCk 0) { Troupe.blank with lmask := 1, spawned := true } }
      Ready (.exit false) s ∧ (troupeAt s (groupOf s).ck (groupOf s).p).spawned = true ∧ lanes s = [0] ∧ (lane s 0).park = none ∧ (lane s 0).pend = []
        ∧ ∀ l, l < 32 → inMask (troupeAt s (groupOf s).ck (groupOf s).p).lmask l = true → l = 0) := by decide +kernel

/-- A handler that serves, a trap in the handler, and a program without a vector. -/
theorem test_witness_TrapsAndTheReturn : (∀ i ∈ [Instr.trapI false 127, .brk false, .eret false], Ready i (demo i []) ∧ (∀ l ∈ lanes (demo i []), handlerServes (demo i []) l = true))
    ∧ (∀ i ∈ [Instr.trapI false 0, .brk false], ∀ h ∈ [true, false],
      let s := withThread (if h then demo i [] else unvectored (demo i [])) (fun t => { t with inHandler := h })
      Ready i s ∧ lanes s ≠ [] ∧ (∀ l ∈ lanes s, (lane s l).pend = [] ∧ (lane s l).region = none ∧ (lane s l).inHandler = h)
        ∧ (tfind s.residents (ridOf (groupOf s).ck)).isSome = true ∧ (residentAt s (ridOf (groupOf s).ck)).killPending = none
        ∧ (h = true ∨ (launchOf s (groupOf s).ck).trapVec = 0xFFFFFFFF))
    ∧ (let s := withThread (demo (.eret false) []) (fun t => { t with inHandler := true }); Ready (.eret false) s ∧ ∀ l ∈ lanes s, (lane s l).inHandler = true) := by
  decide +kernel

/-- The largest window of 128 registers is 0: 32 is past it. -/
theorem test_witness_WindowsAndBounds : (∀ i ∈ [Instr.wbase false 4, .wrcw false 4 0x010], Ready i (demo i []) ∧ goodWindow (demo i []) (reg (demo i []) 0 4) = true
      ∧ goodWindow (demo i [(4, 32)]) (reg (demo i [(4, 32)]) 0 4) = false ∧ Ready i (demo i [(4, 32)]) ∧ handlerServes (demo i [(4, 32)]) 0 = true)
    ∧ (let i : Instr := .chk false 4 5; Ready i (demo i [(5, 1)]) ∧ (reg (demo i [(5, 1)]) 0 4).toNat < (reg (demo i [(5, 1)]) 0 5).toNat
      ∧ Ready i (demo i []) ∧ ∀ l ∈ lanes (demo i []), handlerServes (demo i []) l = true) := by decide +kernel

theorem test_witness_RejoinMasks : ∀ i ∈ [Instr.jenrol false 7, .jstrike false 0, .jwait false 7], Ready i (demo i []) ∧ troupeLives (demo i []) = true := by
  decide +kernel

/-- A bin with room, no bin, all bins in use, a bad form, and bad entries. -/
theorem test_witness_SpawnTakesSlots : (let i : Instr := .spawn false 8 4 8
      let bin : Bin := ⟨demoCk, 0x100, List.replicate 31 ⟨[], []⟩, 0, false⟩
      let s := { demo i [(4, 0x100)] with bins := [(0, bin)] }
      let full := { demo i [] with bins := (List.range 16).map (fun n => (n, bin)) }
      (Ready i s ∧ spawnForm s 8 8 = true ∧ (∀ l ∈ lanes s, pair s l 4 = 0x100) ∧ tfind s.bins 0 = some bin ∧ bin.slots.length + (lanes s).length ≤ 32
        ∧ s.bins.find? (fun y => y.2.ck == (groupOf s).ck && y.2.entry == 0x100 && decide (y.2.slots.length < 32)) = some (0, bin))
      ∧ (Ready i (demo i []) ∧ spawnForm (demo i []) 8 8 = true ∧ lanes (demo i []) = [0] ∧ pair (demo i []) 0 4 = 0 ∧ (demo i []).bins = [])
      ∧ (Ready i full ∧ lanes full = [0] ∧ pair full 0 4 = 0 ∧ (∀ n, n < 16 → (tfind full.bins (coreOf full (groupOf full).ck * 16 + n)).isSome = true)
        ∧ full.bins.find? (fun y => y.2.ck == (groupOf full).ck && y.2.entry == pair full 0 4 && decide (y.2.slots.length < 32)) = none)
      ∧ ∀ v ∈ [[(4, 2)], [(5, 0x10000)]], Ready i (demo i v) ∧ handlerServes (demo i v) 0 = true
          ∧ ((pair (demo i v) 0 4).toNat % 4 ≠ 0 ∨ 2 ^ 48 ≤ (pair (demo i v) 0 4).toNat))
    ∧ (let i : Instr := .spawn false 8 4 9; Ready i (demo i []) ∧ spawnForm (demo i []) 8 9 = false ∧ ∀ l ∈ lanes (demo i []), handlerServes (demo i []) l = true) := by
  decide +kernel

theorem test_witness_ControlWordsReadAndWritten : (∀ n ∈ List.range 0x25, Ready (.rdcw false 10 (BitVec.ofNat 11 n)) (demo (.rdcw false 10 (BitVec.ofNat 11 n)) [])
      ∧ Ready (.wrcw false 4 (BitVec.ofNat 11 n)) (demo (.wrcw false 4 (BitVec.ofNat 11 n)) [])
      ∧ handlerServes (demo (.wrcw false 4 (BitVec.ofNat 11 n)) []) 0 = true)
    ∧ Ready (.rdcw false 10 0x7FF) (demo (.rdcw false 10 0x7FF) []) ∧ Ready (.wrcw false 10 0x7FF) (demo (.wrcw false 10 0x7FF) []) := by decide +kernel

/-- 1.0, whose exponent is 0, rounds to 2^23 spacings of 2^−23, which FP32 holds; 2^128 to 2^23 spacings of 2^105, which is past its largest. -/
theorem test_witness_ConversionRoundsByMode : (1 : Nat) ≠ 0 ∧ log2Is 1 0 0 ∧ roundsTo .rne false 1 (0 - (max 0 (1 - (fp32.bias : Int)) - fp32.m)) (2 ^ 23)
    ∧ magnitudeLe (2 ^ 23) (max 0 (1 - (fp32.bias : Int)) - fp32.m) fp32 = true
    ∧ log2Is 1 128 128 ∧ roundsTo .rne false 1 (128 - (max 128 (1 - (fp32.bias : Int)) - fp32.m)) (2 ^ 23)
    ∧ magnitudeLe (2 ^ 23) (max 128 (1 - (fp32.bias : Int)) - fp32.m) fp32 = false := by
  refine ⟨by decide, ?_, ?_, by decide +kernel, ?_, ?_, by decide +kernel⟩
  · unfold log2Is; decide
  · unfold roundsTo; decide
  · unfold log2Is; decide +kernel
  · unfold roundsTo; decide

theorem test_witness_FloatArithmeticResults : (∃ e g lo : Int, lo ≤ e ∧ lo ≤ g ∧ scaled false 1 e lo + scaled true 1 g lo = 0)
    ∧ (∀ e ∈ [Instr.fadd, .fsub, .fmul, .fma, .fnma, .fmin, .fmax, .fsgn, .feq, .flt, .fle, .badd2, .bmul2, .bfma2, .bmax2],
      Ready (e false 10 4 5) (demo (e false 10 4 5) []))
    ∧ ∀ e ∈ [Instr.fabs, .fneg, .fclass], Ready (e false 10 4) (demo (e false 10 4) []) :=
  ⟨⟨0, 0, 0, by decide, by decide, by decide⟩, by decide +kernel, by decide +kernel⟩

/-- FTOI of 1.0 rounds 1.0 to 1. -/
theorem test_witness_ConversionResults : (∀ e ∈ [Instr.itof, .ntof, .f2bf, .f2h, .f2e4, .f2e5, .ftoi, .fton], Ready (e false 10 4 6) (demo (e false 10 4 6) []))
    ∧ (∀ e ∈ [Instr.bf2f, .h2f, .e42f, .e52f], Ready (e false 10 4) (demo (e false 10 4) []))
    ∧ f32 0x3F800000 = .fin false (2 ^ 23) (-23) ∧ roundsTo (modeOf 0) false (2 ^ 23) (-23) 1 := by
  refine ⟨by decide +kernel, by decide +kernel, by decide +kernel, ?_⟩
  simp [roundsTo, modeOf]

/-- An operand of each class: NaNs, negatives, powers of two that fit and that do not, integers on either side of the range. -/
theorem test_witness_SpecialFunctionResults : (∀ e ∈ [Instr.frcp, .frsq, .fsqrt, .fexp2, .flog2], Ready (e false 10 4) (demo (e false 10 4) []))
    ∧ isNan 0xFF800001 = true ∧ floatLt 0x80000001 0 = true ∧ isPower 0xBF800000 true 0 ∧ isPower 0x00200000 false (-128) ∧ isPower 0x40800000 false (2 * 1)
    ∧ isInteger 0xC3160000 (-150) ∧ isInteger 0x43000000 128 ∧ isInteger 0xC3150000 (-149) :=
  ⟨by decide +kernel, by decide, by decide, ⟨_, _, rfl, by unfold sameMagnitude; decide +kernel⟩, ⟨_, _, rfl, by unfold sameMagnitude; decide +kernel⟩,
    ⟨_, _, rfl, by unfold sameMagnitude; decide +kernel⟩, ⟨_, _, _, rfl, by decide +kernel⟩, ⟨_, _, _, rfl, by decide +kernel⟩, ⟨_, _, _, rfl, by decide +kernel⟩⟩

theorem test_witness_RandomWordsArePhilox : Ready (.rand false 12 8 10) (demo (.rand false 12 8 10) [])
    ∧ Ready (.randf true 112 8 10) (demo (.randf true 112 8 10) []) := by decide +kernel

theorem test_witness_TroupeReductionResults : (∀ e ∈ [Instr.ballot, .vany, .vall, .redadd, .scanadd, .scanaddx, .redfadd, .redmin, .redmax],
      Ready (e false 10 4) (fiveLanes (e false 10 4)))
    ∧ Ready (.lmask false 115) (fiveLanes (.lmask false 115)) := by decide +kernel

/-- Lanes whose source is known, and one whose source a ticket is still to supply. -/
theorem test_witness_ShufflesAndIndexedMoves : (∀ e ∈ [Instr.shfl, .shflx, .shflup, .shfldn], let s := crowd (e false 10 4 5) [0, 31] [(0, 5, 31), (31, 5, 31)]
      Ready (e false 10 4 5) s ∧ lanes s = [0, 31] ∧ (seen s 4 0).isSome = true ∧ (seen s 4 31).isSome = true ∧ (seen s 4 1).isSome = true)
    ∧ (let i : Instr := .shfl false 10 4 5
      let s := withThread (demo i []) (fun t => { t with pend := [⟨[(.alloc 4, 0)], some 7, 1⟩] })
      Ready i s ∧ lanes s = [0] ∧ seen s 4 0 = none) := by decide +kernel

/-- The numbers that MOVIX and MOVIXW accept and trap on. -/
theorem test_witness_ShufflesAndIndexedMoves_movix : (let i : Instr := .movix false 10 4
      (∀ l ∈ lanes (demo i [(4, 127)]), (reg (demo i [(4, 127)]) l 4).toNat ≤ 127) ∧ Ready i (demo i [(4, 127)])
        ∧ Ready i (demo i [(4, 128)]) ∧ handlerServes (demo i [(4, 128)]) 0 = true)
    ∧ (let i : Instr := .movixw false 4 5
      (∀ v ∈ [[(4, 111)], [(4, 120)], [(4, 127)]], let s := demo i v; Ready i s ∧ ((reg s 0 4).toNat < 112 ∨ 119 < (reg s 0 4).toNat)
        ∧ (reg s 0 4).toNat ≤ 127 ∧ (lane s 0).region = none)
      ∧ ∀ v ∈ [[(4, 112)], [(4, 119)], [(4, 128)]], let s := demo i v; Ready i s ∧ handlerServes s 0 = true)
    ∧ ∀ i ∈ [Instr.movix false 10 4, .movixw false 4 5], let s := withThread (demo i [(4, 9)]) (fun t => { t with out := 512 })
      i.wellFormed = true ∧ lanes s ≠ [] ∧ ∀ l ∈ lanes s, handlerServes s l = true ∧ noHazard (lane s l) i = true ∧ (reg s l 4).toNat ≤ 127
        ∧ outstanding (lane s l) (reg s l 4).toNat = true := by decide +kernel

theorem test_witness_BlockQuantisationAcrossLanes : (∀ f ∈ [0, 1, 2], Ready (.dxq false 10 4 f) (fiveLanes (.dxq false 10 4 f)) ∧ Ready (.dxd false 10 4 f) (fiveLanes (.dxd false 10 4 f)))
    ∧ ∀ j, j < 17 → (seen (fiveLanes (.dxd false 10 4 2)) 4 j).isSome = true := by decide +kernel

/-! ### Memory -/

/-- Where answers are loads or stores, and no region is open, no hypothesis on accesses fails. -/
theorem plain_of_answers (s : State) (q : State × List (Nat × Access)) (bs : Nat → List Byte)
    (h : ∀ l ∈ lanes s, (lane s l).region = none ∧ answerOf q.2 l = .loaded (bs l)) (k : Bool) : plainAccess s k q := by
  intro l hl
  obtain ⟨hr, ha⟩ := h l hl
  exact ⟨hr, by simp [ha], fun _ => ⟨_, ha⟩, by simp [ha]⟩

theorem plain_of_stores (s : State) (q : State × List (Nat × Access))
    (h : ∀ l ∈ lanes s, (lane s l).region = none ∧ answerOf q.2 l = .stored) : plainAccess s false q := by
  intro l hl
  obtain ⟨hr, ha⟩ := h l hl
  exact ⟨hr, by simp [ha], by simp, by simp [ha]⟩

/-- The check that `ReachesBy` asks for, computed. -/
def reached (fab : Bool) (s : State) (va n : Nat) (kind : Kind) (pl : Place) : Bool :=
  decide (va < 2 ^ 48 ∧ ¬ (0xFE0000000000 ≤ va ∧ va < 0xFE0000000000 + 2 ^ 32) ∧ 0 < n ∧ va % 128 + n ≤ 128)
    && ((tget [] s.coreTlb (coreOf s (groupOf s).ck)).find? (serves fab s va kind)).any (fun t => decide (t.pages ∈ [1, 512, 262144] ∧ pl = placed t va))
    && decide (pl.host = true ∨ pl.bias = true → s.linkUp0 = true ∧ (s.port1Used = true → s.linkUp1 = true))

theorem reaches_iff (fab : Bool) (s : State) (va n : Nat) (kind : Kind) (pl : Place) : ReachesBy fab s va n kind pl ↔ reached fab s va n kind pl = true := by
  unfold ReachesBy reached
  simp only [Bool.and_eq_true, decide_eq_true_eq, Option.any_eq_true, and_assoc]

/-- The page of the program in its core's TLB, its memory class `mc`, and a place in it. -/
def warm (s : State) (mc : Nat) : State :=
  { s with coreTlb := [(0, [⟨demoCtx, demoVa / 4096, 1, BitVec.ofNat 64 (mkEntry (demoFrame / 4096) mc 0 7 false false true true), 0⟩])] }

def inPage (mc o : Nat) : Place := ⟨mc == 2, mc, 0, false, demoFrame + o⟩

/-- The last word of the allocation; an access one byte past it, and one on an absent line. -/
theorem test_witness_ScratchAndApertureAccesses : (∀ e ∈ [Instr.lds, .sts], let i := e false 6 4 4 0 0
      (Ready i (demo i [(4, 4092)]) ∧ (demo i [(4, 4092)]).badScratch = [] ∧ ∀ l ∈ lanes (demo i [(4, 4092)]), inScratch (demo i [(4, 4092)]) (scratchOffset (demo i [(4, 4092)]) l 4 4 0) (accessBytes 4))
      ∧ (let s := demo i [(4, 4093)]; Ready i s ∧ handlerServes s 0 = true ∧ scratchOffset s 0 4 4 0 < 2 ^ 31
          ∧ (launchOf s (groupOf s).ck).scratch < scratchOffset s 0 4 4 0 + accessBytes 4)
      ∧ (let s := { demo i [(4, 0)] with absent := [(demoCk * 2 ^ 25, 1)] }; Ready i s ∧ scratchOffset s 0 4 4 0 + accessBytes 4 ≤ (launchOf s (groupOf s).ck).scratch
          ∧ ∃ j, j < accessBytes 4 ∧ absentAt s (groupOf s).ck ((scratchOffset s 0 4 4 0 + j) / 128) ≠ 0)) := by
  unfold inScratch; decide +kernel

/-- The last register of the highest position, a register past the allocation, and widths and offsets that are not whole registers. -/
theorem test_witness_ScratchAndApertureAccesses_aperture : (∀ e ∈ [Instr.lds, .sts], let i := e false 6 4 4 0 0
      (let s := demo i [(4, 0x80000000 + 4 * (4 * 32768 + 127 * 32 + 31))]; Ready i s ∧ lanes s = [0] ∧ s.badRegs = [] ∧ (∀ x ∈ s.threads, x.2.region = none)
          ∧ apertureRegs s (scratchOffset s 0 4 4 0) (accessBytes 4))
      ∧ (let s := demo i [(4, 0x80000000 + 4 * 128 * 32)]; Ready i s ∧ handlerServes s 0 = true ∧ 2 ^ 31 ≤ scratchOffset s 0 4 4 0
          ∧ scratchOffset s 0 4 4 0 % 4 = 0 ∧ 4 ≤ accessBytes 4 ∧ ¬ apertureRegs s (scratchOffset s 0 4 4 0) (accessBytes 4))
      ∧ (let s := demo i [(4, 0x80000002)]; Ready i s ∧ handlerServes s 0 = true ∧ 2 ^ 31 ≤ scratchOffset s 0 4 4 0 ∧ scratchOffset s 0 4 4 0 % 4 ≠ 0))
    ∧ let s := demo (.lds false 6 4 3 0 0) [(4, 0x80000000)]; Ready (.lds false 6 4 3 0 0) s ∧ handlerServes s 0 = true ∧ accessBytes 3 < 4 := by
  unfold apertureRegs; decide +kernel

/-- The last word of a segment. -/
theorem test_witness_PrivateSegmentAccesses : let i : Instr := .ldp false 10 4 4 0 0; let s := demo i [(4, 60)]
    Ready i s ∧ plainAccess s (isK 10) (inOrder (fun s' l => ownAccess s' (groupOf s).ck (groupOf s).p l (segmentOffset s l 4 4 0) (accessBytes 4) .load)
      (issued s) (lanes s)) :=
  ⟨by decide +kernel, plain_of_answers _ _ (fun _ => [0, 0, 0, 0]) (by decide +kernel) _⟩

theorem test_witness_PrivateSegmentAccesses_store : let i : Instr := .stp false 10 4 4 0 0x3F; let s := demo i [(4, 64)]
    Ready i s ∧ plainAccess s false (inOrder (fun s' l => ownAccess s' (groupOf s).ck (groupOf s).p l (segmentOffset s l 4 4 0x3F) (accessBytes 4)
      (.store (storedBytes s l 10 4))) (issued s) (lanes s)) :=
  ⟨by decide +kernel, plain_of_stores _ _ (by decide +kernel)⟩

/-- An offset that is not aligned, and one past the end; the last word and the last quadword of a segment. -/
theorem test_witness_PrivateSegmentAccesses_bounds : (∃ o n : Nat, (o : Int) % (min n 4 : Nat) ≠ 0)
    ∧ (∃ s ck, (64 : Int) % (min 4 4 : Nat) = 0 ∧ ((launchOf s ck).ownBytes : Int) < 64 + (4 : Nat))
    ∧ ∀ e ∈ [(4, 60), (6, 48)], let w := BitVec.ofNat 3 e.1
      ∀ i ∈ [Instr.ldp false 12 4 w 0 0, .stp false 12 4 w 0 0], let s := demo i [(4, BitVec.ofNat 32 e.2)]
      Ready i s ∧ noRegion s ∧ unspoiled s ∧ ∀ l ∈ lanes s, inSegment s (groupOf s).ck (segmentOffset s l 4 w 0) (accessBytes w) :=
  ⟨⟨1, 4, by decide⟩, ⟨demo (.nop false) [], demoCk, by decide +kernel⟩, by unfold noRegion unspoiled inSegment; decide +kernel⟩

/-- The last word of the page. -/
theorem test_witness_GlobalLoadsAndStores : let i : Instr := .ldg false 10 4 4 0 0x3F; let s := demo i [(4, 0x1000), (5, 0x41)]
    Ready i s ∧ plainAccess s (isK 10) (inOrder (fun s' l => globalStep s (0 == 1) (globalAddress s l 4 4 0x3F) (accessBytes 4) .load s') (issued s) (lanes s)) :=
  ⟨by decide +kernel, plain_of_answers _ _ (fun _ => [0, 0, 0, 0]) (by decide +kernel) _⟩

theorem test_witness_GlobalLoadsAndStores_store : let i : Instr := .stg false 10 4 4 0 0; let s := writable (demo i [(4, 0x80), (5, 0x41)]) 0
    Ready i s ∧ plainAccess s false (inOrder (fun s' l => globalStep s (0 == 1) (globalAddress s l 4 4 0) (accessBytes 4) (.store (storedBytes s l 10 4)) s')
      (issued s) (lanes s)) :=
  ⟨by decide +kernel, plain_of_stores _ _ (by decide +kernel)⟩

/-- Every hint, at the last word of the page, of each memory class; and a line that no cache holds. -/
theorem test_witness_GlobalLoadsAndStores_reached : (∀ mc ∈ [0, 1, 2], ∀ h ∈ [(0 : BitVec 2), 1, 2], ∀ e ∈ [(Instr.ldg false 10 4 4 h 0x3F, Kind.read), (Instr.stg false 10 4 4 (if h = 2 then 0 else h) 0x3F, .write)],
      let s := warm (demo e.1 [(4, 0x1000), (5, 0x41)]) mc
      Ready e.1 s ∧ noRegion s ∧ unspoiled s ∧ ∀ l ∈ lanes s, Reaches s (globalAddress s l 4 4 0x3F) (accessBytes 4) e.2 (inPage mc 4092))
    ∧ let s := State.reset; let pl := inPage 0 124
      pl.pa < 2 ^ 60 ∧ pl.pa % 128 + 4 ≤ 128 ∧ holders s pl.host (pl.pa / 128) = [] ∧ tfind s.early (lineKey 0 pl.host (pl.pa / 128)) = none
        ∧ tfind s.rdc (rdcKey 0 (pl.pa / 128)) = none ∧ s.passing = [] ∧ goodLines s = true ∧ pl.mc ≤ 2 ∧ (pl.host = true ↔ pl.mc = 2) ∧ linksUp s = true ∧ settledAt s 0 pl := by
  simp only [Reaches, reaches_iff, noRegion, unspoiled, settledAt]; decide +kernel

/-- A word at the end of a line, in an empty machine. -/
theorem test_witness_StoreThenLoadOnOneCore : let s := State.reset; let bs : List Byte := [1, 2, 3, 4]; let pl := inPage 0 124
    pl.pa < 2 ^ 60 ∧ pl.pa % 128 + bs.length ≤ 128 ∧ bs ≠ [] ∧ goodLines s = true ∧ pl.mc ≤ 2 ∧ (pl.host = true ↔ pl.mc = 2) ∧ (true = true → linksUp s = true)
      ∧ settledAt s 0 pl ∧ (124 + pl.pa / 128 * 128) / 128 = pl.pa / 128 ∧ s.passing = [] ∧ tfind s.rdc (rdcKey 0 (pl.pa / 128)) = none := by
  unfold settledAt; decide +kernel

/-- A line of L1, clean, with its token and its tag. -/
def clean9 (mc : Nat) (bs : List Byte) : L1Line := ⟨0, [], mc, bs, List.replicate 128 false, mc != 0, true⟩

/-- Another core holds a COHERENT line, or a HOST line; or the storing core holds it, alone, for writing. -/
theorem test_witness_CoherentStoresAreSeen : ∀ mc ∈ [1, 2], ∀ h ∈ [0, 1], let bs : List Byte := [1, 2, 3, 4]; let pl := inPage mc 124
    let s := { State.reset with l1 := [(lineKey h pl.host (pl.pa / 128), clean9 mc (List.replicate 128 7))] }
    (pl.mc = 1 ∨ pl.mc = 2) ∧ (pl.host = true ↔ pl.mc = 2) ∧ pl.pa < 2 ^ 60 ∧ pl.pa % 128 + bs.length ≤ 128 ∧ bs ≠ [] ∧ goodLines s = true ∧ linksUp s = true
      ∧ s.passing = [] ∧ holdsToken s 0 pl = (h == 0) ∧ (holdsToken s 0 pl = true → soleCopy s 0 pl) ∧ tfind s.early (lineKey 1 pl.host (pl.pa / 128)) = none
      ∧ settledAt s 0 pl ∧ settledAt s 1 pl := by
  unfold soleCopy settledAt; decide +kernel

/-- A core of the same die, or of another, holds a clean copy whose tag is its phase; the storing core's die has a write on its way, and a third
core a store to perform. -/
theorem test_witness_ReleaseAcquirePassesMessages : ∀ e ∈ [(1, 3, 3), (64, 5, 4)], let bs : List Byte := [1, 2, 3, 4]; let pl := inPage 0 0; let k := e.1
    let s := { State.reset with l1 := [(lineKey k false 0x40000, clean9 0 (List.replicate 128 0))], rdc := [(rdcKey (k / 64) 0x40000, ⟨0, List.replicate 128 0⟩)],
                                passing := [⟨0, 0x40000, List.replicate 128 9, List.replicate 128 true⟩],
                                lateStores := [⟨7, pl, false, [5], 0⟩] }
    0 ≠ k ∧ 3 ≤ e.2.1 ∧ 3 ≤ e.2.2 ∧ (0 / 64 = k / 64 ∨ 4 ≤ e.2.2) ∧ pl.host = false ∧ pl.mc = 0 ∧ pl.pa < 2 ^ 60 ∧ pl.pa % 128 + bs.length ≤ 128 ∧ bs ≠ []
      ∧ goodLines s = true ∧ canonicalKeys s.l1 = true ∧ canonicalKeys s.rdc = true
      ∧ (∀ ln ∈ tfind s.l1 (lineKey k false (pl.pa / 128)), ln.mc = 0 ∧ ln.dirty = List.replicate 128 false ∧ ln.tag ≠ (corePhaseAt s k).p + 1)
      ∧ (∀ r ∈ tfind s.rdc (rdcKey (k / 64) (pl.pa / 128)), r.tag ≠ (rdcPhaseAt s (k / 64)).p + 1) ∧ tfind s.l1 (lineKey 0 false (pl.pa / 128)) = none
      ∧ (∀ w ∈ s.passing, w.line = pl.pa / 128 → w.die = 0 / 64) ∧ settledAt s 0 pl ∧ settledAt s k pl ∧ ∀ e ∈ s.lateStores, e.pl.pa < 2 ^ 60 := by
  unfold settledAt; decide +kernel

/-- A dirty PHASED line, with a store to it to perform. -/
theorem test_witness_ReleaseAndAcquireActByScope : let s := { State.reset with l1 := [(lineKey 3 false 9, { clean9 0 (List.replicate 128 1) with dirty := List.replicate 128 true })], lateStores := [⟨3, inPage 0 124, false, [5], 0⟩] }
    let u := settleCore s 3; canonicalKeys u.l1 = true ∧ ∀ x ∈ u.l1, x.2.mc = 0 → hostOfLine x.1 = false := by decide +kernel

/-- A line of the page, and the scratch aperture. -/
theorem test_witness_CacheControlEffects : ∀ e ∈ [Instr.cwb, .cinv, .cflush, .pf], let i := e false 4
    (∀ mc ∈ [0, 1, 2], let s := warm (demo i [(5, 0x41), (4, 4095)]) mc; Ready i s ∧ ∀ l ∈ lanes s, Reaches s (pair s l 4).toNat 1 .read (inPage mc 4095))
      ∧ let s := demo i [(5, 0xFE00)]; Ready i s ∧ ∀ l ∈ lanes s, 0xFE0000000000 ≤ (pair s l 4).toNat ∧ (pair s l 4).toNat < 0xFE0000000000 + 2 ^ 32 := by
  simp only [Reaches, reaches_iff]; decide +kernel

/-- A copy, clean or with a dirty byte, of device memory and of the host's, with a copy in the die's remote-data cache. -/
theorem test_witness_LineWriteBackIsByteMasked : ∀ mc ∈ [0, 1, 2], ∀ v ∈ [true, false], let pl := inPage mc 0
    let ln : L1Line := { clean9 mc (List.replicate 128 1) with dirty := v :: List.replicate 127 false }
    let s := { State.reset with l1 := [(lineKey 3 pl.host 0x40000, ln)], rdc := [(rdcKey 0 0x40000, ⟨0, List.replicate 128 5⟩)] }
    tfind s.l1 (lineKey 3 pl.host (pl.pa / 128)) = some ln ∧ ln.bytes.length = 128 ∧ ln.dirty.length = 128 ∧ ln.dirty.any id = v ∧ pl.pa < 2 ^ 60 ∧ s.passing = [] ∧ settledAt s 3 pl ∧ linksUp s = true
      ∧ unspoiled s ∧ (tfind s.rdc (rdcKey 0 (pl.pa / 128))).any (fun r => r.bytes.length == 128) = true ∧ (pl.host = false ∨ pl.mc = 2)
      ∧ lineKey 2 pl.host (pl.pa / 128) ≠ lineKey 3 pl.host (pl.pa / 128) ∧ lineOfKey (lineKey 3 pl.host 9) ≠ pl.pa / 128 := by
  unfold unspoiled settledAt; decide +kernel

/-- Every atomic, on the last word of scratch, in a lane whose traps its handler would serve, and on the last of a page: it completes in both; and
the locations that its clauses name. -/
theorem test_witness_AtomicsReturnOldAndUpdate :
    ∀ x ∈ ([Instr.aadd, .aand, .aor, .axor, .amin, .amax, .aminn, .amaxn, .aswap, .acas, .acasgt, .acasgtn].map (fun e => (e false 5 4 3 2, (4 : Word))))
        ++ ([Instr.aaddD, .aandD, .aorD, .axorD, .aminD, .amaxD, .aminnD, .amaxnD, .aswapD, .acasD, .acasgtD, .acasgtnD, .acasver, .acastag].map
          (fun e => (e false 5 4 6 5, (8 : Word)))),
      (let s := demo x.1 [(8, 4096 - x.2), (9, 0xFE00)];
        Ready x.1 s ∧ (∀ l ∈ lanes s, handlerServes s l = true) ∧ noRegion s ∧ s.badScratch = []
          ∧ ∀ l ∈ lanes s, atomAddr s l 4 % x.2.toNat = 0 ∧ 0xFE0000000000 ≤ atomAddr s l 4 ∧ inScratch s (atomAddr s l 4 - 0xFE0000000000) x.2.toNat)
      ∧ (let s := warm (demo x.1 [(8, 4096 - x.2), (9, 0x41)]) 1;
        Ready x.1 s ∧ noRegion s ∧ unspoiled s
          ∧ ∀ l ∈ lanes s, atomAddr s l 4 % x.2.toNat = 0 ∧ Reaches s (atomAddr s l 4) x.2.toNat .write (inPage 1 (4096 - x.2.toNat))) := by
  simp only [Reaches, reaches_iff, noRegion, unspoiled, inScratch]; decide +kernel

theorem test_witness_AtomicPlacesHoldTheResult : (let s := demo (.nop false) []; 4088 + 8 ≤ (launchOf s demoCk).scratch ∧ absentAt s demoCk (4088 / 128) = 0 ∧ 4088 % 8 = 0
      ∧ badScratchAt s demoCk 4088 8 = false)
    ∧ (∀ mc ∈ [0, 1, 2], let pl := inPage mc 120; pl.pa % 8 = 0 ∧ pl.pa < 2 ^ 60 ∧ pl.mc ≤ 2 ∧ (pl.host = true ↔ pl.mc = 2))
    ∧ goodLines State.reset = true ∧ holders State.reset false (demoFrame / 128) = [] ∧ State.reset.passing = []
    ∧ settledAt State.reset 0 (inPage 1 120) := by
  unfold settledAt; decide +kernel

/-! ### Fences, barriers, waits, queues and regions -/

/-- Fences that act, that wait for a sweep, and that wait for results: any for an acquire, a c register's for a release. -/
theorem test_witness_FencesReleaseAndAcquire : (∀ i ∈ [Instr.fenceRel false 6, .fenceAcq false 5, .fenceAr false 2], Ready i (demo i []) ∧ lanes (demo i []) = [0]
      ∧ sweepOwed (demo i []) (coreOf (demo i []) (groupOf (demo i [])).ck) 5 = false)
    ∧ (let i : Instr := .fenceAr false 5; let s := crowd i [0, 31] []; Ready i s ∧ lanes s = [0, 31] ∧ sweepOwed s (coreOf s (groupOf s).ck) 5 = false)
    ∧ (∀ i ∈ [Instr.fenceAcq false 5, .fenceAr false 5], let s := { demo i [] with corePhase := [(0, ⟨1, true⟩)] }
      Ready i s ∧ lanes s ≠ [] ∧ sweepOwed s (coreOf s (groupOf s).ck) 5 = true)
    ∧ ∀ e ∈ [(Instr.fenceRel, false, (2 : BitVec 3), Dest.creg 7), (Instr.fenceAcq, true, 1, .alloc 20), (Instr.fenceAr, true, 1, .creg 0)],
      let s := withThread (demo (e.1 false e.2.2.1) []) (fun t => { t with pend := [⟨[(e.2.2.2, 1)], none, 1⟩] })
      (e.1 false e.2.2.1).wellFormed = true ∧ noRegion s ∧ lanes s ≠ [] ∧ (if e.2.1 then 1 else 2) ≤ e.2.2.1.toNat ∧ sweepOwed s (coreOf s (groupOf s).ck) e.2.2.1.toNat = false
        ∧ ∀ l ∈ lanes s, (lane s l).pend.any (fun d => d.ws.any (fun w => match w.1 with | .creg _ => true | _ => false) || (e.2.1 && d.waits.isNone)) = true := by
  unfold noRegion; decide +kernel

/-- An object in place; and the three ways that none is. -/
theorem test_witness_BarrierPhases : (∀ i ∈ [Instr.bararv false 20 12 0, .barsync false 20 12 0, .barwait false 20 12 0, .phase false 2 12],
      let s := barrierAt i 2 0x10000; let ck := barrierClass s false
      Ready i s ∧ (∀ l ∈ lanes s, barrierStands s ck (reg s l 12).toNat) ∧ (∀ l ∈ lanes s, handlerServes s l = true) ∧ isK 20 = false
        ∧ sweepOwed s (coreOf s (groupOf s).ck) 2 = false)
    ∧ (∀ i ∈ [Instr.bararv false 20 12 0, .barsync false 20 12 0, .barwait false 20 12 0, .phase false 2 12], ∀ v ∈ [[(12, 4)], [(12, 4096)], [(12, 4088)]],
      let s := demo i v; Ready i s ∧ handlerServes s 0 = true ∧ (barrierTrap s i (barrierClass s false) (reg s 0 12).toNat).isSome = true)
    ∧ (let i : Instr := .barinit false 4 12 0; let s := demo i [(12, 4088), (4, 32767)]; Ready i s ∧ (∀ l ∈ lanes s, handlerServes s l = true)
      ∧ ∀ l ∈ lanes s, (reg s l 12).toNat % 8 = 0 ∧ (reg s l 12).toNat + 8 ≤ (launchOf s (barrierClass s false)).scratch
        ∧ absentAt s (barrierClass s false) ((reg s l 12).toNat / 128) = 0) := by
  unfold barrierStands; decide +kernel

/-- A word of scratch, a word of device memory, and addresses that trap; and a line that only the reading core holds, dirty. -/
theorem test_witness_MonitorsAndCountsAreAwaited : (∀ e ∈ [Instr.waiteq, .waitne, .waitge], let i := e false 10 4 6
      (let s := demo i [(4, 4092), (5, 0xFE00)]; Ready i s ∧ (∀ l ∈ lanes s, handlerServes s l = true) ∧ isK 10 = false
        ∧ ∀ l ∈ lanes s, 0xFE0000000000 ≤ (pair s l 4).toNat ∧ (pair s l 4).toNat % 4 = 0 ∧ inScratch s ((pair s l 4).toNat - 0xFE0000000000) 4)
      ∧ (∀ mc ∈ [0, 1, 2], let s := warm (demo i [(5, 0x41), (4, 4092)]) mc; Ready i s ∧ lanes s = [0] ∧ (pair s 0 4).toNat % 4 = 0 ∧ noRegion s ∧ unspoiled s
        ∧ Reaches s (pair s 0 4).toNat 4 .read (inPage mc 4092))
      ∧ (let s := demo i [(5, 0x10000)]; Ready i s ∧ handlerServes s 0 = true ∧ 2 ^ 48 ≤ (pair s 0 4).toNat)
      ∧ (let s := demo i [(4, 2)]; Ready i s ∧ handlerServes s 0 = true ∧ (pair s 0 4).toNat < 2 ^ 48 ∧ (pair s 0 4).toNat % 4 ≠ 0))
    ∧ (∀ mc ∈ [0, 1], let pl := inPage mc 124; let s := { State.reset with l1 := [(lineKey 3 false (pl.pa / 128), { clean9 mc (List.replicate 128 1) with dirty := List.replicate 128 true })] }
      pl.host = false ∧ pl.pa < 2 ^ 60 ∧ pl.pa % 128 + 4 ≤ 128 ∧ goodLines s = true ∧ s.passing = [] ∧ settledAt s 3 pl ∧ ∀ k ∈ holders s false (pl.pa / 128), k = lineKey 3 false (pl.pa / 128))
    ∧ ∀ i ∈ [Instr.tickwait false, .tlwait false 4 7, .tlread false 10 0], Ready i (demo i []) := by
  simp only [Reaches, reaches_iff, noRegion, unspoiled, inScratch, settledAt]; decide +kernel

/-- Two lanes, with room for both, for one, and for none; with a handle for each, for one, and for none; and a queue without room at all. -/
theorem test_witness_NoteQueuesAreFifo : (∀ n ∈ [(0 : Byte), 1, 2], let i : Instr := .qpush false 4 0; let s := withBytes (crowd i [0, 31] []) 3964 [n]
      Ready i s ∧ lanes s = [0, 31] ∧ (noteDecl s demoCk 0).cap = 2 ∧ (handlesIn s demoCk 0).length = n.toNat
        ∧ (∀ l ∈ lanes s, earlierWaiter s demoCk 0 (waitSeq s (groupOf s) l) true = false)
        ∧ ringTurns s demoCk 0 ((lanes s).take ((noteDecl s demoCk 0).cap - (handlesIn s demoCk 0).length)).length)
    ∧ (∀ n ∈ [(0 : Byte), 1, 2], let i : Instr := .qpop false 10 0; let s := withBytes (crowd i [0, 31] []) 3964 [n]
      Ready i s ∧ lanes s = [0, 31] ∧ (noteDecl s demoCk 0).cap ≠ 0 ∧ (handlesIn s demoCk 0).length = n.toNat
        ∧ sweepOwed s (coreOf s demoCk) (noteScope (noteDecl s demoCk 0)) = false
        ∧ ∀ l ∈ lanes s, earlierWaiter s demoCk 0 (waitSeq s (groupOf s) l) false = false)
    ∧ ∀ i ∈ [Instr.qpush false 4 1, .qpop false 10 15], Ready i (demo i []) ∧ (noteDecl (demo i []) demoCk 1).cap = 0
        ∧ (noteDecl (demo i []) demoCk 15).cap = 0 ∧ ∀ l ∈ lanes (demo i []), handlerServes (demo i []) l = true := by
  unfold ringTurns; decide +kernel

/-- A queue of 16 items with a control block at queue 3, its tail word holding `tail`, of flags `qf`. -/
def queued (tail qf : Nat) (held : Bool) : State :=
  let s := warm (writable (demo (.qtake false 10 4) [(4, 3)]) 1) 1
  { s with dmem := wrNat s.dmem (demoFrame + 256) 8 tail, cbs := [(3, ⟨9, demoCtx, 2, 4, 5, qf, true, demoVa, demoVa + 256, 3, held⟩)] }

/-- An item, a full queue, a tail out of range on either side, an empty queue, a held one, a tick-aligned one, one of a host's producer, another
context's, one not armed, one not there, and an index out of range. -/
theorem test_witness_QueueItemsAreClaimedOnce : (∀ e ∈ [(3, 0, false), (18, 0, false), (19, 0, false), (1, 0, false), (2, 0, false), (18, 0, true), (0, 1, false), (3, 2, false)],
      let s := queued e.1 e.2.1 e.2.2
      Ready (.qtake false 10 4) s ∧ lanes s = [0] ∧ handlerServes s 0 = true ∧ noRegion s ∧ unspoiled s ∧ (reg s 0 4).toNat < 2 ^ 20
        ∧ (tfind s.cbs (reg s 0 4).toNat).map (fun cb => (cb.armed, cb.tailVa)) = some (true, demoVa + 256) ∧ (clsAt s demoCk).ctx = demoCtx
        ∧ Reaches s (demoVa + 256) 8 .read (inPage 1 256) ∧ Reaches s (demoVa + 264) 8 .write (inPage 1 264)
        ∧ sweepOwed s (coreOf s demoCk) (if e.2.1 = 2 then 6 else 5) = false)
    ∧ (∀ v ∈ [[(4, 3)], [(4, 0x100000)]], let s := demo (.qtake false 10 4) v
      Ready (.qtake false 10 4) s ∧ handlerServes s 0 = true ∧ (2 ^ 20 ≤ (reg s 0 4).toNat ∨ tfind s.cbs (reg s 0 4).toNat = none))
    ∧ ∀ f ∈ [fun c : ControlBlock => { c with ctx := 77 }, fun c => { c with armed := false }], let s := queued 3 0 false; let s := { s with cbs := tupd s.cbs 3 f }
      Ready (.qtake false 10 4) s ∧ handlerServes s 0 = true ∧ (reg s 0 4).toNat = 3
        ∧ (tfind s.cbs 3).any (fun c => c.armed != decide (c.ctx = (clsAt s demoCk).ctx)) = true := by
  simp only [Reaches, reaches_iff, noRegion, unspoiled]; decide +kernel

/-- A region with one store of 4 bytes, its status in register 9; and one with nothing in it. -/
def region9 (v : Byte) : Region :=
  ⟨9, 0x4100000040, [], 0, false, [], [], [], [], [⟨demoVa + 128, false, demoFrame + 128, 4, [v, 0, 0, 0], none⟩]⟩

/-- The instruction in that region, at address demoVa + 128 of a COHERENT page. -/
def inRegion (i : Instr) (r : Region) : State :=
  withThread (warm (writable (demo i [(4, 128), (5, 0x41)]) 1) 1) (fun t => { t with region := some r })

theorem test_witness_RegionsOpenAbortAndBuffer : (let i : Instr := .atbeg false 9 8; let s := demo i []
      Ready i s ∧ (∀ l ∈ lanes s, (lane s l).pend = []) ∧ regionsOpen s (coreOf s demoCk) + (lanes s).length ≤ 64)
    ∧ (let i : Instr := .atbeg false 9 8; let s := withThread (demo i []) (fun t => { t with pend := [⟨[(.alloc 20, 1)], none, 1⟩] })
      Ready i s ∧ 0 ∈ lanes s ∧ (lane s 0).pend ≠ [])
    ∧ (let i : Instr := .atabort false 127; let s := inRegion i (region9 1); Ready i s ∧ (∀ l ∈ lanes s, (lane s l).region = some (region9 1))
      ∧ (region9 1).status.toNat < 112 ∧ (region9 1).ckWb.toNat + 112 ≤ 1024 ∧ ∀ e ∈ (region9 1).ckRegs, e.1 < 1024)
    ∧ (let i : Instr := .atstat false 10; Ready i (demo i []) ∧ Ready i (inRegion i (region9 1)))
    ∧ ∀ e ∈ [(Instr.stg false 6 4 4 0 0, Kind.write, region9 1), (Instr.ldg false 6 4 4 0 0, .read, region9 1), (Instr.ldg false 6 4 4 0 0, .read, { region9 1 with stores := [] })],
      let s := inRegion e.1 e.2.2
      Ready e.1 s ∧ lanes s = [0] ∧ (lane s 0).region = some e.2.2 ∧ unspoiled s ∧ globalAddress s 0 4 4 0 % accessBytes 4 = 0
        ∧ ReachesBy true s (globalAddress s 0 4 4 0) (accessBytes 4) e.2.1 (inPage 1 128) ∧ e.2.2.stores.length + 2 ≤ 8 ∧ e.2.2.inputs = [] ∧ e.2.2.reads = []
        ∧ e.2.2.tags = [] ∧ e.2.2.constraints = []
        ∧ ∀ b ∈ e.2.2.stores, (b.host, b.pa, b.size, b.data.length) = (false, (inPage 1 128).pa, 4, 4) := by
  simp only [reaches_iff, unspoiled]; decide +kernel

/-- A region that has read the line at demoVa with the snapshot `snap`, and relies on its word being 5 if `bound`. -/
def reader (snap : List Byte) (rigid bound : Bool) : Region :=
  { region9 1 with rigid := rigid, reads := [⟨demoVa + 128, false, (demoFrame + 128) / 128, snap⟩], inputs := [⟨demoVa + 128, false, demoFrame + 128, false⟩],
                   tags := [(10, ⟨0, 1, false⟩)],
                   constraints := if bound then [⟨.eq, .tagged ⟨0, 0, false⟩, .plain 5, false, true⟩] else [] }

/-- What a region ends with: the count of its changed lines, and the constraint that its fresh inputs break. -/
def ending (r : Region) : Nat × Option Nat :=
  let s := inRegion (.atend false) r; let core := coreOf s demoCk
  let s1 := storePagesOf (issued s) core demoCtx r.stores
  let p := placesNow s1.1 core demoCtx (r.reads.map (fun x => (x.va, x.host, x.line * 128)))
  let q := placesNow p.1 core demoCtx (r.inputs.map (fun x => (x.va, x.host, x.pa)))
  let s2 := takeTokens q.1 core ((p.2 ++ (match s1.2 with | .inr st => st.map (·.1) | _ => [])).foldr insertLine [])
  let fresh := (q.2.zip r.inputs).map (fun x => BitVec.ofNat 64 (wordOfBytes (lineBytes s2 core x.1 (if x.2.wide then 8 else 4))))
  (((p.2.zip r.reads).filter (fun x => lineBytes s2 core ({ x.1 with pa := x.1.pa / 128 * 128 } : Place) 128 != x.2.snap)).length, firstBroken fresh r.constraints)

/-- No change; a change in a rigid region, one that breaks a constraint, and one that is repaired. -/
theorem test_witness_RegionsCommitRepairOrAbort : (∀ r ∈ [reader (List.replicate 128 0) false false, reader [] true false, reader [] false true, reader [] false false],
      let s := inRegion (.atend false) r
      Ready (.atend false) s ∧ lanes s = [0] ∧ (lane s 0).pend = [] ∧ (lane s 0).region = some r ∧ r.status.toNat < 112 ∧ unspoiled s ∧ linksUp s = true
        ∧ (match (storePagesOf (issued s) (coreOf s demoCk) demoCtx r.stores).2 with | .inr st => st.length == 1 | _ => false) = true)
    ∧ ending (reader (List.replicate 128 0) false false) = (0, none) ∧ ending (reader [] true false) = (1, none)
    ∧ ending (reader [] false true) = (1, some 0) ∧ ending (reader [] false false) = (1, none) ∧ canonicalKeys (reader [] false false).tags = true := by
  unfold unspoiled; decide +kernel

/-! ### Engines, fabric and the matrix unit -/

/-- A record of the kind, parent and so on that its fields give, standing as `m` says. -/
def booked (s : State) (id : Nat) (fields : List (Nat × List Byte)) (m : MarkState) (plan : List Nat) (phase : Nat) : State :=
  let r := fields.foldl (fun r f => r.take f.1 ++ f.2 ++ r.drop (f.1 + f.2.length)) (List.replicate 128 0)
  { s with book := tput s.book id { Entry.blank with want := some r, built := some r, copy := r, stand := { Entry.blank.stand with state := m },
                                                     plan := plan, phase := phase } }

/-- A copy of 16 bytes from demoVa to scratch, by a block at offset 64; and a request of it that has begun. -/
def copyBytes (kind dest : Byte) (tail : List Byte) : List Byte :=
  [kind, dest, 0, 0, 1, 0, 0, 0] ++ bytesOfNat 8 (if kind == 2 then 0 else demoVa) ++ bytesOfNat 8 (if dest == 1 then 0x400 else 0) ++ bytesOfNat 4 16
    ++ List.replicate 24 0 ++ tail

def request9 : Request :=
  ⟨0, demoCk, copyBlockOf (copyBytes 1 1 (List.replicate 12 0)), 0, 0, 1, true, true, [], 0, false, false, 0, false, false, none⟩

/-- The three instructions with their blocks, a full queue, and offsets that trap. -/
theorem test_witness_CopyRequestsAreNumberedAndQueued : (∀ e ∈ [(Instr.copy, 1, copyBytes 1 1 (List.replicate 12 0)),
        (.copy, 1, copyBytes 1 2 (List.replicate 12 0)), (.copyg, 2, copyBytes 2 1 ([1, 0, 0, 0] ++ bytesOfNat 8 demoVa)), (.prefa, 3, copyBytes 3 3 (List.replicate 12 0))],
      let i := e.1 false 10 4; let s := withBytes (demo i [(4, 64)]) 64 e.2.2
      Ready i s ∧ lanes s = [0] ∧ copyCheck s i (groupOf s) e.2.1 4 0 = none ∧ queueLen s (coreOf s demoCk) < 64
        ∧ retainedFor s demoCk (effectiveBlock (copyBlockOf e.2.2)).fifo < 4
        ∧ (let s := { s with reqs := (List.range 64).map (fun n => (n, request9)) }
          Ready i s ∧ lanes s = [0] ∧ copyCheck s i (groupOf s) e.2.1 4 0 = none ∧ 64 ≤ queueLen s (coreOf s demoCk)))
    ∧ ∀ i ∈ [Instr.copy false 10 4, .copyg false 0 4, .prefa false 10 4], ∀ v ∈ [[(4, 4092)], [(4, 4040)]], Ready i (demo i v) ∧ lanes (demo i v) = [0]
        ∧ handlerServes (demo i v) 0 = true ∧ ((reg (demo i v) 0 4).toNat % 8 ≠ 0 ∨ (launchOf (demo i v) demoCk).scratch < (reg (demo i v) 0 4).toNat + 64) := by
  decide +kernel

/-- The page of the program as REMOTE memory, of window 5, whose record is CONVERGED. -/
def remote (s : State) (peer : Bool) : State :=
  { booked s 7 [(2, [3]), (12, [1])] .converged [] 0 with
    dmem := wrNat s.dmem (s.cfg.hdmSize + 12288 + 8 * (demoVa / 4096 % 512)) 8 (mkEntry 5 3 0 7 false false true true),
    windows := [(5, ⟨7, demoCtx, peer, demoVa, 4096, 7, 9, 0, false, 2, [], 2, 4, 1⟩)] }

/-- Each operation with its block; a mailbox that waits for nothing; and each counter, with a value that is reached and one that is not, at a first
issue and where the lanes were parked. -/
theorem test_witness_FabricOperationsAndCounters : (∀ e ∈ [(Instr.put, 1, [0, 0, 0, 0, 0, 0, 0, 0]), (.puts, 2, bytesOfNat 8 demoVa), (.get, 3, [0, 0, 0, 0, 0, 0, 0, 0])],
      let i := e.1 false 10 4
      let s := remote (withBytes (demo i [(4, 64)]) 64 ([BitVec.ofNat 8 e.2.1, 0, 0, 0, 1, 0, 0, 0] ++ bytesOfNat 8 0xFE0000000200 ++ bytesOfNat 8 demoVa ++ bytesOfNat 4 16
        ++ List.replicate 12 0 ++ e.2.2)) true
      Ready i s ∧ lanes s = [0] ∧ fabCheck s i (groupOf s) e.2.1 4 0 = none ∧ queueLen s (coreOf s demoCk) < 64 ∧ (tfind s.windows 5).isSome = true
        ∧ (fabWindow (issued s) (coreOf s demoCk) (clsAt s demoCk).ctx (fabBlockOf (rdBytes s.scratch (scratchKey demoCk 64) 64))).2 = .inr 5)
    ∧ (let i : Instr := .fetchw false 5 6; let s := demo i [(5, 9), (6, 4064)]; Ready i s ∧ queueLen s (coreOf s demoCk) + (lanes s).length ≤ 64
      ∧ (lanes s).Pairwise (fun k l => reg s k 6 ≠ reg s l 6)
      ∧ ∀ l ∈ lanes s, (reg s l 6).toNat % 32 = 0 ∧ (reg s l 6).toNat + 32 ≤ (launchOf s demoCk).scratch ∧ mailboxBusy s demoCk (reg s l 6).toNat = false)
    ∧ ∀ x ∈ [(0, true), (1, false), (2, true)], ∀ d ∈ [[(5, 5), (10, 1)], [(5, 5), (10, 9)]], let i : Instr := .wincnt false 10 5 true x.1; let s := remote (demo i d) x.2
      Ready i s ∧ lanes s = [0] ∧ (reg s 0 5).toNat = 5 ∧ (tfind s.windows 5).map (fun w => (w.peer, w.ctx)) = some (x.2, (clsAt s demoCk).ctx) ∧ isK 10 = false
        ∧ converged s 7 = true ∧ (lane s 0).parkSeq = 0
        ∧ (let s := withThread s (fun t => { t with parkSeq := 3, was := some (.wincnt 5 x.1.toNat 9) })
          Ready i s ∧ lanes s = [0] ∧ (lane s 0).parkSeq ≠ 0 ∧ (lane s 0).was = some (.wincnt 5 x.1.toNat 9)) := by
  decide +kernel

/-- A loop of the matrix unit. -/
def loop9 : Loop := ⟨9, 2, 0, 1, 0, 0, 3, 0, 4, true⟩

/-- The program in a handler, which names the handler slate alone, once code outside it has cleared slate 2 or not. -/
def handling (i : Instr) (h : Nat) (dirty : Bool) : State :=
  let s := withThread (demo i []) (fun t => { t with inHandler := true })
  { s with residents := tupd s.residents demoRid (fun r => { r with hslate := h }),
           mats := [(0, { Matrix.blank with slates := [(2, { Slate.blank with fromH0 := dirty })] })] }

/-- The program in a launch without MATRIX. -/
def withoutMatrix (i : Instr) : State :=
  let s := demo i []; { s with residents := tupd s.residents demoRid (fun r => { r with launch := { r.launch with matrix := false } }) }

/-- A valid word with room and with four loops, lanes that differ, and an invalid word; a launch without MATRIX; and a handler's slates. -/
theorem test_witness_MatrixLoopsAreAccepted : let i : Instr := .mloop false 7 0 3 4 5
    (let s := demo i [(5, 0xFFFFFFFF)]; Ready i s ∧ lanes s = [0] ∧ (launchOf s demoCk).matrix = true ∧ (∀ k ∈ lanes s, ownerOk s (groupOf s) k 7 = true)
        ∧ fwOk (reg s 0 4) = true ∧ (matrixAt s (coreOf s demoCk)).loops.length < 4)
    ∧ (let s := { demo i [] with mats := [(0, { Matrix.blank with loops := List.replicate 4 loop9 })] }
      Ready i s ∧ lanes s = [0] ∧ fwOk (reg s 0 4) = true ∧ (∀ k ∈ lanes s, ownerOk s (groupOf s) k 7 = true) ∧ 4 ≤ (matrixAt s (coreOf s demoCk)).loops.length)
    ∧ (let s := crowd i [0, 31] [(31, 4, 1)]; Ready i s ∧ lanes s = [0, 31] ∧ (∀ k ∈ lanes s, handlerServes s k = true) ∧ reg s 31 4 ≠ reg s 0 4)
    ∧ (let s := demo i [(4, 9)]; Ready i s ∧ lanes s = [0] ∧ (∀ k ∈ lanes s, handlerServes s k = true) ∧ fwOk (reg s 0 4) = false)
    ∧ (let s := withoutMatrix i; Ready i s ∧ lanes s = [0] ∧ (launchOf s demoCk).matrix = false ∧ ∀ k ∈ lanes s, handlerServes s k = true)
    ∧ ∀ e ∈ [(1, false), (2, true)], let i : Instr := .mloop false 2 0 3 4 5; let s := handling i e.1 e.2
      Ready i s ∧ lanes s = [0] ∧ (launchOf s demoCk).matrix = true ∧ InHandlers s ∧ fwOk (reg s 0 4) = true ∧ slateClosed s 2 := by
  unfold InHandlers slateClosed; decide +kernel

/-- An empty log, and one with an entry; a launch without MATRIX; and a handler's slates. -/
theorem test_witness_SlateInstructionsTakeTickets : (∀ i ∈ [Instr.slclr false 7, .slrd false 12 5 0 2, .slstat false 14 5 2, .slwr false 12 5 2, .fifoclr false 3, .slevt false 16],
      Ready i (demo i []) ∧ lanes (demo i []) = [0] ∧ (launchOf (demo i []) demoCk).matrix = true ∧ (lane (demo i []) 0).inHandler = false
        ∧ (∀ l ∈ lanes (demo i []), ownerOk (demo i []) (groupOf (demo i [])) l 7 = true ∧ ownerOk (demo i []) (groupOf (demo i [])) l 2 = true)
        ∧ (matrixAt (demo i []) 0).log = [])
    ∧ (let i : Instr := .slevt false 16; let s := { demo i [] with mats := [(0, { Matrix.blank with log := [⟨1, 2, 3, 4, 5, 6⟩] })] }
      Ready i s ∧ lanes s ≠ [] ∧ (matrixAt s (coreOf s demoCk)).log ≠ [])
    ∧ (∀ i ∈ [Instr.slclr false 7, .slrd false 12 5 0 2, .slstat false 14 5 2, .slwr false 12 5 2, .fifoclr false 3, .slevt false 16], let s := withoutMatrix i
      Ready i s ∧ lanes s ≠ [] ∧ (launchOf s (groupOf s).ck).matrix = false ∧ ∀ k ∈ lanes s, handlerServes s k = true)
    ∧ ∀ i ∈ [Instr.slclr false 2, .slrd false 12 5 0 2, .slstat false 14 5 2, .slwr false 12 5 2, .fifoclr false 3], ∀ e ∈ [(1, false), (2, true)],
      let s := handling i e.1 e.2; Ready i s ∧ lanes s ≠ [] ∧ (launchOf s (groupOf s).ck).matrix = true ∧ InHandlers s ∧ slateClosed s 2 := by
  unfold InHandlers slateClosed; decide +kernel

/-! ### The step, the encodings and the invariants -/

/-- A word that decodes, one that does not, an event of the agenda in a module that does not run, and a fetch that hits and one that misses. -/
theorem test_witness_StepRunsTheDecodedInstruction : (∀ w ∈ [0x3E000000, 0], let s := State.reset.withFetchWord 32 w
      s.issue = some (groupOf s) ∧ runs s ∧ (fetchWord s (groupOf s)).2 = .word (BitVec.ofNat 32 w))
    ∧ (let s := { State.reset with frozen := true, agenda := [Instr.scanShift] }; s.issue = none ∧ (nextEvent s).2 = some .scanShift)
    ∧ (∀ ic ∈ [[], [(icacheKey 0 false 0x40000, List.replicate 128 0)]], let s := { State.reset.withFetchWord 32 0 with icache := ic }; let g := groupOf s; let u := translate s (coreOf s g.ck) (clsAt s g.ck).ctx g.pc.toNat .exec false
      g.pc.toNat % 4 = 0 ∧ g.pc.toNat < 2 ^ 48 ∧ ¬ (0xFE0000000000 ≤ g.pc.toNat ∧ g.pc.toNat < 0xFE0000000000 + 2 ^ 32)
        ∧ (∃ e ∈ [mkEntry (demoFrame / 4096) 0 0 5 false false true false], ∃ x ∈ [s.cfg.hdmSize + 12288 + 8 * (demoVa / 4096 % 512)],
            u.2 = .leaf e 0 x ∧ (placeOf e 0 g.pc.toNat).pa = demoFrame ∧ demoFrame % 128 = g.pc.toNat % 128 ∧ linkDenied u.1 (placeOf e 0 g.pc.toNat) = false)
        ∧ (tfind s.icache (icacheKey (coreOf s g.ck) false (demoFrame / 128)) = none ∨ tfind s.icache (icacheKey (coreOf s g.ck) false (demoFrame / 128)) = some (List.replicate 128 0))
        ∧ u.1.l1 = [] ∧ unspoiled u.1) := by
  unfold runs unspoiled; decide +kernel

theorem test_witness_DecodeAndEncodeAgree : event (.jalr true 2 110) = false ∧ (Instr.jalr true 2 110).wellFormed = true
    ∧ (0x3E000000 : Nat) < 2 ^ 32 ∧ decode 0x3E000000 = .instr (.nop false) := by decide +kernel

/-- A store of a byte that is listed, with a cached line in its way, steps to a next state. -/
theorem test_witness_MemoryStaysCanonical : let s := { demo (.sts false 6 4 0 0 0) [(6, 7)] with l1 := [(lineKey 0 false 1, clean9 0 (List.replicate 128 1))] }
    memoryWf s = true ∧ goodLines s = true ∧ (match step s with | .next t => t.scratch == [(scratchKey demoCk 0, 7)] | _ => false) = true := by decide +kernel

theorem test_witness_CachedLinesStayWhole : let s := writable (demo (.stg false 6 4 0 0 0) [(5, 0x41), (6, 7)]) 0
    goodLines s = true ∧ (match step s with | .next t => t.lateStores.length == 1 | _ => false) = true := by decide +kernel

theorem test_witness_FrozenModuleStandsStill : let s := { State.reset with frozen := true, agenda := [Instr.scanShift, .perst] }
    Frozen (still s) s ∧ (match step s with | .next t => t.agenda == [Instr.perst] | _ => false) = true := by
  unfold Frozen; decide +kernel

/-- A register outstanding, one that MOVIX or MOVIXW names, a partial mask, no region, and a word that decodes to nothing. -/
theorem test_witness_ChecksBeforeTheEffect : (let i : Instr := .add false 112 4 5; let s := withThread (demo i []) (fun t => { t with out := 16 })
      event i = false ∧ i.wellFormed = true ∧ lanes s ≠ [] ∧ ∀ l ∈ lanes s, handlerServes s l = true ∧ noHazard (lane s l) i = false)
    ∧ (∀ i ∈ [Instr.movix false 113 4, .movixw false 4 5], let s := withThread (demo i [(4, 127)]) (fun t => { t with out := BitVec.ofNat 1040 (2 ^ 1039) })
      i.wellFormed = true ∧ ∀ l ∈ lanes s, handlerServes s l = true ∧ noHazard (lane s l) i = true ∧ (reg s l 4).toNat = 127 ∧ outstanding (lane s l) 127 = true)
    ∧ (let i : Instr := .add false 112 4 5; let s := crowd i [0, 31] []; let s := { s with issue := s.issue.map (fun g => { g with mask := 1 }) }
      event i = false ∧ i.wellFormed = true ∧ lanes s = [0] ∧ writesK i = true ∧ (groupOf s).mask ≠ (troupeAt s (groupOf s).ck (groupOf s).p).lmask
        ∧ ∀ l ∈ lanes s, handlerServes s l = true ∧ noHazard (lane s l) i = true ∧ indirectReg s (groupOf s) i l = [])
    ∧ ∀ i ∈ [Instr.atend false, .atabort false 0, .illegalWord 0], lanes (demo i []) = [0] ∧ handlerServes (demo i []) 0 = true := by decide +kernel

/-! ### Events -/

/-- The program between two instructions. -/
def idle : State := { demo (.nop false) [] with issue := none }

theorem test_witness_ResetsClocksAndTelemetry : runs State.reset ∧ State.reset.hold ≠ some .power ∧ State.reset.hold ≠ some .thermal
    ∧ ({ State.reset with frozen := true } : State).frozen = true ∧ (∀ h ∈ [Hold.power, .thermal], ({ State.reset with hold := some h } : State).hold = some h) := by
  unfold runs; decide

/-- A playbill at the top of the host's memory below the exported part, one in it, one too short, one that straddles; a port 1 that is down. -/
theorem test_witness_LinksDvsecAndMailbox : (let s := { State.reset with dvsec := { Dvsec.reset with baseHi := 0x7FFFF, baseLo := 0xFFFFF, count := 32 } }
      runs s ∧ s.linkUp0 = true ∧ linksUp s = true ∧ s.dvsec.pben = false ∧ latchable s (s.dvsec.baseHi.toNat * 2 ^ 32 + s.dvsec.baseLo.toNat * 2 ^ 12) s.dvsec.count.toNat)
    ∧ latchable State.reset State.reset.hdmBase (2 ^ 20) ∧ ¬ latchable State.reset 0 1 ∧ ¬ latchable State.reset 0 (2 ^ 20 + 1)
    ∧ ¬ latchable State.reset (State.reset.hdmBase - 4096) 64
    ∧ let s := { State.reset with port1Used := true }; runs s ∧ s.linkUp0 = true ∧ linksUp s = false ∧ s.port1Used = true := by
  unfold runs latchable; decide +kernel

/-- A mapping of one page; its record in a state. -/
def map9 : Map := ⟨1, demoVa, 4096, 0, 0, 0, 7, 0, 0, 0, [(demoVa / 4096, demoFrame)], true, [], []⟩

def mapped (s : State) : State := { booked s 7 [(2, [2])] .converged [] 0 with maps := [(7, map9)] }

/-- A mailbox with a Discovery object and with a request for the responder; a mapping that the host holds, and one whose bias is to change while a
snoop gets no answer. -/
theorem test_witness_LinksDvsecAndMailbox_exchange : (let s := { State.reset with dvsec := { Dvsec.reset with pben := true, mbwr := [1, 3, 1], mbctl := 2 } }
      runs s ∧ s.linkUp0 = true ∧ s.dvsec.pben = true ∧ s.dvsec.mbwr = [1, 3, 1] ∧ (1 : Word).toNat % 2 ^ 24 = 1 ∧ (3 : Word).toNat % 2 ^ 18 = 3 ∧ (1 : Word).toNat % 256 ≤ 1)
    ∧ (let s := { State.reset with dvsec := { Dvsec.reset with mbwr := [0x10001, 4, 5, 6] } }
      runs s ∧ s.linkUp0 = true ∧ s.dvsec.mbwr = 0x10001 :: 4 :: [5, 6] ∧ (0x10001 : Word).toNat % 2 ^ 24 = 0x010001 ∧ (4 : Word).toNat % 2 ^ 18 = ([5, 6] : List Word).length + 2)
    ∧ (let s := { mapped State.reset with biasHolders := [demoFrame / 64 + 63] }
      runs s ∧ linksUp s = true ∧ tfind s.maps 7 = some map9 ∧ recKind (builtOf s 7) = 2 ∧ snoopsHost s map9 = true ∧ (strickenPass s (.bisnp 7 0)).isNone = true)
    ∧ let s := { mapped State.reset with mishap := some (.bisnp 7 0), frames := [(demoFrame / 4096, ⟨0, true, 8⟩)] }
      s.mishap = some (.bisnp 7 0) ∧ flipping s map9 false ≠ [] := by
  unfold runs; decide +kernel

/-- A request for the last byte of the chain, and one for the fourth measurement. -/
theorem test_witness_LinksDvsecAndMailbox_spdm : let s := State.reset
    (∃ (o : Nat) (r : List Byte), 4 ≤ r.length ∧ littleEndian 2 (fun j => r.getD j 0) = o ∧ o < (certChain s).length) ∧ (0x10 : Byte).toNat % 16 = 0
      ∧ ∃ v, (measurements s)[4 - 1]? = some v ∧ v.length = 2 :=
  ⟨⟨3, [3, 0, 255, 255], by decide, by decide, by simp [certChain, bytesOfNat]⟩, by decide, ⟨_, rfl, rfl⟩⟩

/-- The last byte of the exported part and one past it; a line that one core holds dirty, and a byte without an answer; lines of a playbill in the exported part, in host memory with its filter's lines and without;
and a queue that is waited for. -/
theorem test_witness_HostAccesses : (let s := State.reset; s.cfg.hdmSize < (s.cfg.hdmSize - 1) + 2 ∧ (s.cfg.hdmSize - 1) + 1 ≤ s.cfg.hdmSize ∧ runs s
        ∧ linksUp s = true ∧ goodLines s = true ∧ s.passing = [] ∧ ((s.cfg.hdmSize - 1) + 1 ≤ s.cfg.mkoff ∨ s.cfg.mkoff + 2 ^ 25 ≤ s.cfg.hdmSize - 1)
        ∧ (s.hdmBase - 1 < s.hdmBase ∨ s.hdmBase + s.cfg.hdmSize ≤ s.hdmBase - 1))
    ∧ ¬ (runs { State.reset with linkUp0 := false } ∧ linksUp { State.reset with linkUp0 := false } = true)
    ∧ (∀ w ∈ [[], [(3, [3])]], let s := { State.reset with playbill := some (0, 2), watch := w }
      runs s ∧ linksUp s = true ∧ touches s 255 1 3 ∧ ¬ touches s 255 1 2 ∧ ¬ playbillInDevice s ∧ (3 ∈ tget [] s.watch (3 % 8) ↔ w ≠ []) ∧ 255 + 1 ≤ 128 * 2)
    ∧ (let s := { State.reset with playbill := some (State.reset.hdmBase + 2 ^ 26, 2) }
      playbillInDevice s ∧ touches s (s.hdmBase + 2 ^ 26 + 64) 1 1 ∧ 2 ^ 26 + 65 ≤ s.cfg.hdmSize ∧ s.cfg.mkoff + 2 ^ 25 ≤ 2 ^ 26 + 64)
    ∧ (let s := withThread { queued 2 0 false with issue := none } (fun t => { t with park := some (.queue 3) })
      runs s ∧ linksUp s = true ∧ (tfind s.cbs 3).map (·.armed) = some true ∧ (tfind s.threads tk0).map (·.park) = some (some (.queue 3)))
    ∧ (let s := { State.reset with badDev := [77] }; holders s false (77 / 128) = [] ∧ 77 + 1 ≤ s.cfg.hdmSize)
    ∧ (let s := { State.reset with l1 := [(lineKey 3 false 0, { clean9 1 (List.replicate 128 1) with dirty := List.replicate 128 true })] }
      dirtyOnce s ∧ goodLines s = true ∧ s.badDev = []) := by
  refine ⟨by unfold runs; decide +kernel, by unfold runs; decide +kernel, ?_, ⟨⟨_, _, rfl, by decide +kernel⟩, ⟨_, _, rfl, by decide +kernel⟩, by decide +kernel⟩,
    by unfold runs; decide +kernel, by decide +kernel, ?_, by decide +kernel⟩
  rotate_left
  · rintro x b c ⟨k, _, ln, h, _, rfl⟩ ⟨k', _, ln', h', _, rfl⟩
    simp only [tfind] at h h'
    split at h <;> split at h' <;> simp_all
  simp only [List.mem_cons, List.not_mem_nil, or_false, forall_eq_or_imp, forall_eq]
  refine ⟨⟨by unfold runs; decide, by decide, ⟨_, _, rfl, by decide⟩, ?_, ?_, by decide, by decide⟩, ⟨by unfold runs; decide, by decide, ⟨_, _, rfl, by decide⟩, ?_, ?_, by decide, by decide⟩⟩
  all_goals
    rintro ⟨b, k, h, h'⟩
    cases h
    revert h'; decide +kernel

/-- The same with a thread in lane 31 as well, which `f` makes of lane 0's. -/
def beside (s : State) (f : Thread → Thread) : State := { s with threads := tput s.threads (tk0 + 31) (f { threadAt s tk0 with pend := [] }) }

/-- Two troupes of the class in the section of seat 0, of which the second may have starved or have issued last. -/
def pairOf (starved : Bool) (last : Nat) : State :=
  let u := threadAt idle tk0; let k := pkey demoCk 0
  { idle with threads := [(tkey demoCk 0 0, u), (tkey demoCk 4 0, { u with starved := starved })], cores := [(0, ⟨8, [(0, k + last)], [(0, 7)]⟩)],
              troupes := [(k, { Troupe.blank with lmask := 1 }), (k + 4, { Troupe.blank with lmask := 1, order := 1 })] }

/-- The program's section has a group to issue: the only one, the starved one, the one that issued last, and the older one; its thread has not issued
for 256 cycles. -/
theorem test_witness_IssueChoosesReadyLanes : slotFree idle 0 0 = true
    ∧ (∀ e ∈ [(idle, 0), (pairOf true 0, 4), (pairOf false 4, 4), (pairOf false 9, 0)], chooseGroup e.1 0 0 = some ⟨demoCk, e.2, 1, BitVec.ofNat 64 demoVa⟩
        ∧ ∀ t ∈ e.1.troupes, t.2.order < 2 ^ 127)
    ∧ (let s := { idle with cores := [(0, ⟨256, [], []⟩)] }
      runs s ∧ (tfind s.threads tk0).map (fun u => (ready u, u.readySince)) = some (true, 0) ∧ active s (ckOfT tk0) = true ∧ 0 + 256 ≤ cycleOf s tk0) := by
  unfold runs; decide +kernel

/-- What an instruction owes in lanes 0 and 31. -/
def owedAt (d : Dest × Dest) (l : Nat) : List (Dest × Word) :=
  if l = 0 then [(d.1, 1)] else if l = 31 then [(d.2, 2), (.alloc 11, 3)] else []

/-- Results of one instruction in two lanes, to the thread's registers, to a k register and to a c register. -/
theorem test_witness_ResultsAreWritten : ∀ d ∈ [(Dest.alloc 9, Dest.alloc 9), (.alloc 1023, .alloc 10), (.kreg 7, .kreg 7), (.creg 7, .creg 7)],
      let s := beside (withThread idle (fun t => { t with pend := [⟨owedAt d 0, none, 1⟩] })) (fun t => { t with pend := [⟨owedAt d 31, none, 1⟩] })
      runs s ∧ (tfind s.threads tk0).map (fun u => (u.pend[0]?).map (fun d => (d.waits, d.seq))) = some (some (none, 1))
        ∧ (∀ l, l < 32 → ((tfind s.threads (tkey (ckOfT tk0) (posOfT tk0) l)).map (·.pend.filter (·.seq == 1))).getD [] = if owedAt d l = [] then [] else [⟨owedAt d l, none, 1⟩])
        ∧ (∀ l, l < 32 → ((owedAt d l).map (·.1)).Nodup) ∧ (tfind s.troupes (tk0 / 32)).isSome = true
        ∧ tget 0 (troupeAt s (ckOfT tk0) (posOfT tk0)).kseq 7 < 1 ∧ tget 0 s.cregSeq ((ckOfT tk0 * 8 + 7) * 4 + posOfT tk0 % 4) ≤ 1
        ∧ tget 0 s.cregLast (ckOfT tk0 * 8 + 7) ≤ cregStamp s (ckOfT tk0) (posOfT tk0) := by
  unfold runs; decide +kernel

/-- A marker's wait to end in two lanes, a condition that holds, a monitor, a barrier's phase that is complete, and a trap that waited. -/
theorem test_witness_ResultsAreWrittenAndParksEnd : (let s := beside (withThread idle (fun t => { t with markWait := true })) (fun t => { t with markWait := true })
      mayWake s tk0 = true ∧ ∀ l ∈ [0, 31], (tfind s.threads (tkey (ckOfT tk0) (posOfT tk0) l)).map (fun u => (u.markWait, u.pend, u.pc)) = some (true, [], (threadAt s tk0).pc))
    ∧ (∀ p ∈ [Park.results, .monitor 0x4100000000], let s := withThread idle (fun t => { t with park := some p })
      mayWake s tk0 = true ∧ (tfind s.threads tk0).map (fun u => (u.markWait, deliverable u, u.park)) = some (false, false, some p)
        ∧ s.reqs = [])
    ∧ (let s := withBytes (beside (withThread idle (fun t => { t with park := some (.barWait demoCk 8 0 2) })) (fun t => { t with park := some (.barWait demoCk 8 1 2) })) 8 (bytesOfNat 8 0x0001000100010002)
      mayWake s tk0 = true ∧ (tfind s.threads tk0).map (fun u => (u.markWait, u.park)) = some (false, some (.barWait demoCk 8 0 2))
        ∧ sweepOwed s (coreOf s (ckOfT tk0)) 2 = false ∧ phasePast (barrierIn s demoCk 8) 0 = true
        ∧ (tfind s.threads (tk0 + 31)).map (phaseOver s) = some false)
    ∧ (let s := withThread idle (fun t => { t with park := some (.trapEntry .align 9 0x4100000000 false) })
      mayWake s tk0 = true ∧ (tfind s.threads tk0).map (fun u => (u.markWait, u.pend, u.inHandler)) = some (false, [], false) ∧ (launchOf s (ckOfT tk0)).trapVec ≠ 0xFFFFFFFF) := by
  decide +kernel

/-- A lane that waits behind lanes of which none does. -/
theorem heldBehind_of (s : State) (tk : Nat) (t : Thread) (hp : t.park = some .behind)
    (h : ∀ l, l < laneOfT tk → (tfind s.threads (tkey (ckOfT tk) (posOfT tk) l)).all (fun u => u.pc != t.pc || (u.park.isNone && !u.markWait)) = true) :
    HeldBehind s tk t (fun _ => False) :=
  ⟨hp, fun l hl u hu hpc hw => by have := h l hl; rw [hu] at this; simp [hpc] at this; simp_all⟩

/-- Waits that are over: for results, of a fence, for a line, a count, an arrival, a loop, a request, a region, a sweep and a seat; and two lanes, of
which the upper one is held behind the lower. -/
theorem test_witness_WaitsAreOver : let s := idle; let u (p : Park) := { threadAt s tk0 with park := some p }
    WaitOver s tk0 (u .results) ∧ WaitOver s tk0 (u (.fence true)) ∧ WaitOver s tk0 (u (.absent demoCk 0)) ∧ WaitOver s tk0 (u (.timeline 7 0))
      ∧ WaitOver s tk0 (u (.arrival demoCk 8 1)) ∧ WaitOver s tk0 (u .loops) ∧ WaitOver s tk0 (u .regions) ∧ WaitOver s tk0 (u .sweep)
      ∧ WaitOver s tk0 (u .spawn) ∧ WaitOver s tk0 (u .engine)
      ∧ let s := beside idle (fun t => { t with park := some .behind }); mayWake s (tk0 + 31) = true
        ∧ HeldBehind s (tk0 + 31) (threadAt s (tk0 + 31)) (fun _ => False) := by
  have none_below (u : Thread) : noneMarkedBelow idle tk0 u := fun l h => absurd h (by simp [laneOfT, tk0, tkey])
  refine ⟨?_, ?_, ?_, ?_, ?_, ?_, ?_, ?_, ?_, ?_, by decide +kernel, heldBehind_of _ _ _ (by decide +kernel) (by decide +kernel)⟩
  case refine_9 => exact none_below _
  case refine_10 => exact ⟨by decide +kernel, none_below _⟩
  all_goals unfold WaitOver; dsimp only; decide +kernel

theorem test_witness_SignalsSweepsWalksAndTicks_threads : (let s := withThread idle (fun t => { t with held := some 5 })
      mayWake s tk0 = true ∧ (tfind s.threads tk0).map (fun u => (deliverable u, u.held, u.pend, u.park)) = some (true, some 5, [], none)
        ∧ (launchOf s (ckOfT tk0)).trapVec ≠ 0xFFFFFFFF)
    ∧ (let s := withThread idle (fun t => { t with park := some (.translation 0x4200000000 .read) })
      mayWake s tk0 = true ∧ (tfind s.threads tk0).map (fun u => (u.markWait, u.park, u.inHandler)) = some (false, some (.translation 0x4200000000 .read), false)
        ∧ (tfind s.threads tk0).map (fun u => (u.pend, u.region)) = some ([], none)
        ∧ peekWalk s (clsAt s (ckOfT tk0)).ctx 0x4200000000 .read = .miss ∧ willBeMapped s (clsAt s (ckOfT tk0)).ctx 0x4200000000 = false) := by
  decide +kernel

theorem test_witness_SignalsSweepsWalksAndTicks : (
      let s := { idle with corePhase := [(511, ⟨3, true⟩)], rdcPhase := [(7, ⟨3, true⟩)],
                           l1 := [(lineKey 511 false 8, { clean9 0 (List.replicate 128 1) with tag := 1 }), (lineKey 511 false 9, { clean9 0 (List.replicate 128 1) with tag := 1, dirty := List.replicate 128 true })] }
      runs s ∧ (corePhaseAt s 511).owed = true ∧ canonicalKeys s.l1 = true ∧ (rdcPhaseAt s 7).owed = true)
    ∧ (let s := withThread idle (fun t => { t with park := some (.translation 0x4100000000 .read) })
      runs s ∧ walkWanted s 0 demoCtx demoVa (kindOf 0) = true ∧ (∃ root ∈ [s.cfg.hdmSize], rootOf s demoCtx = some root
        ∧ ∃ e ∈ [mkEntry (demoFrame / 4096) 0 0 5 false false true false], e < 2 ^ 64
          ∧ walkAt s.dmem demoVa (kindOf 0) false 4 root = .leaf e 0 (s.cfg.hdmSize + 12288 + 8 * (demoVa / 4096 % 512))))
    ∧ (let s := withThread { idle with timebase := 100000 } (fun t => { t with park := some .tick })
      runs s ∧ (tfind s.ctxs demoCtx).map (fun c => (c.tickOn, decide (c.nextAt ≤ s.timebase))) = some (true, true)
        ∧ (tfind s.threads tk0).map (·.park) = some (some .tick) ∧ (clsAt s (ckOfT tk0)).ctx = demoCtx)
    ∧ (∀ x ∈ [(⟨demoCk, 0x4100000000, List.replicate 32 ⟨List.replicate 8 5, []⟩, 0, false⟩ : Bin), ⟨demoCk, 0x4100000000, [⟨[7], []⟩], 0, true⟩, ⟨demoCk, 0x4100000000, [⟨[7], []⟩], 0, false⟩],
      let s := { idle with bins := [(0, x)] }
      runs s ∧ tfind s.bins 0 = some x ∧ issuing s x.ck = true ∧ freeSeat s x.ck (0 % 4) = some 4 ∧ x.slots.length ≤ 32 ∧ (∀ sl ∈ x.slots, sl.args.length ≤ 8)
        ∧ (x.slots.length = 32 ∨ x.expired = true ∨ x.until_ ≤ coreCycle s (coreOf s x.ck))) := by
  unfold runs; decide +kernel

/-- A tick with a tick-aligned queue armed, its tail word in a page of PHASED memory. -/
theorem test_witness_SignalsSweepsWalksAndTicks_tail : let cb : ControlBlock := ⟨9, demoCtx, 2, 4, 5, 1, true, demoVa, demoVa + 256, 0, false⟩
    let s := { idle with timebase := 100000, cbs := [(3, cb)] }
    runs s ∧ canonicalKeys s.cbs = true ∧ (cb.ctx = demoCtx ∧ cb.armed = true ∧ cb.qflags % 2 = 1) ∧ cb.tailVa < 2 ^ 48
      ∧ (∃ e lv a, peekWalk s demoCtx cb.tailVa .read = .leaf e lv a)
      ∧ ∀ e lv a, peekWalk s demoCtx cb.tailVa .read = .leaf e lv a → rdNat s.dmem a 8 = e ∧ eMC e = 0 ∧ linkDenied s (placeOf e lv cb.tailVa) = false := by
  have h : peekWalk { idle with timebase := 100000, cbs := [(3, ⟨9, demoCtx, 2, 4, 5, 1, true, demoVa, demoVa + 256, 0, false⟩)] } demoCtx (demoVa + 256) .read
      = .leaf (mkEntry (demoFrame / 4096) 0 0 5 false false true false) 0 (idle.cfg.hdmSize + 12288 + 8 * (demoVa / 4096 % 512)) := by decide +kernel
  refine ⟨by unfold runs; decide +kernel, by decide +kernel, by decide +kernel, by decide +kernel, ⟨_, _, _, h⟩, ?_⟩
  intro e lv a h'
  rw [h] at h'
  cases h'
  decide +kernel

/-- A launch with one unit on an empty module, where the first core takes it or is out of service, an usher with work and one without, a class that has ended under each policy, and one asked
to leave its core, with its save block set aside or to be found. -/
theorem test_witness_ClassesArePlacedMovedAndEnded : (∀ j ∈ [0, 1], let s := { State.reset with vacant := List.range j, ctxs := idle.ctxs, residents := [(demoRid, { demoResident with placedOnce := [] })], ushers := [(0, { Usher.blank with queue := [⟨demoRid, [0]⟩] })] }
      runs s ∧ (usherAt s 0).rr < 64 ∧ headOf s (usherAt s 0) = some (.unit ⟨demoRid, [0]⟩) ∧ levelsOf (residentAt s demoRid).launch 3 = [] ∧ extentOf (residentAt s demoRid).launch 0 ≤ 32
        ∧ (∀ m, m < j → fitNew s demoRid (0 * 64 + ((usherAt s 0).rr + m) % 64) (!(clsAt s (ckOf demoRid 0)).segBase.isEmpty) = none)
        ∧ (fitNew s demoRid (0 * 64 + ((usherAt s 0).rr + j) % 64) (!(clsAt s (ckOf demoRid 0)).segBase.isEmpty)).isSome = true)
    ∧ (let s := { State.reset with residents := [(demoRid, { demoResident with launch := { demoLaunch with dies := 3 } })], ushers := [(0, { Usher.blank with queue := [⟨demoRid, [0]⟩, ⟨demoRid, [1]⟩] })] }
      runs s ∧ (usherAt s 1).resume = [] ∧ (usherAt s 1).queue = [] ∧ (usherAt s 1).idle = false ∧ askAround s 1 (fun x => binds s x.rid 1) = some (0, ⟨demoRid, [1]⟩)
        ∧ (usherAt s 2).idle = false ∧ askAround s 2 (fun x => binds s x.rid 2) = none)
    ∧ (∀ p ∈ [0, 1, 2], let s := { idle with threads := [], residents := [(demoRid, { demoResident with policy := p })] }
      runs s ∧ classDone s demoCk = true ∧ (tfind s.residents (clsAt s demoCk).rid).map (fun r => (r.policy, r.n, r.ended)) = some (p, 1, 0) ∧ levelsOf (launchOf s demoCk) 3 = [])
    ∧ ∀ b ∈ [none, some (4096, 8192)], let s := { idle with classes := [(demoCk, { demoCls with stopping := true, save := b })], ctxs := tupd idle.ctxs demoCtx (fun c => { c with saveArea := 0x4200000000, saveSize := 2 ^ 18 }) }
      runs s ∧ (clsAt s demoCk).placed = true ∧ (clsAt s demoCk).stopping = true ∧ (clsAt s demoCk).quiesced = false ∧ canStop s demoCk = true
        ∧ (((clsAt s demoCk).save.map (·.1)).or (saveFit s (clsAt s demoCk).ctx (saveBytes s demoCk))).isSome = true
        ∧ (∀ e ∈ s.threads, ckOfT e.1 = demoCk → e.2.region = none) := by
  unfold runs; decide +kernel

/-- A request for a FIFO that waits for an address, in a machine with a MAPPING to come. -/
def fed (va : Nat) (kills : Table Nat) (restartable : Bool) : State :=
  { booked idle 7 [(2, [2, 1]), (12, [1]), (0x20, bytesOfNat 8 0x4200000000), (0x28, bytesOfNat 8 4096)] .pending [] 0 with
    reqs := [(0, { request9 with blk := { request9.blk with dest := 2 }, waits := some (BitVec.ofNat 64 va, .read) })],
    residents := [(demoRid, { demoResident with kills := kills, launch := { demoLaunch with restartable := restartable } })] }

/-- A first class placed of 16, which is a sixteenth part, and of 32, which is none. -/
theorem test_witness_KillsRelaunchesAndWithdrawals_placed : ∀ n ∈ [16, 32], let s := booked idle demoRid [(2, [4])] .converging [] 0
    let s := { s with book := tupd s.book demoRid (fun x => { x with stand := { x.stand with step := 2 } }), residents := [(demoRid, { demoResident with n := n, placedOnce := [] })] }
    (tfind s.residents demoRid).map (fun r => (r.n, r.placedOnce)) = some (n, []) ∧ (entryAt s demoRid).stand.state = .converging ∧ (entryAt s demoRid).stand.step = 2
      ∧ recQuiet (wantOf s demoRid) = false ∧ 1 < n ∧ ((∃ k ∈ List.range 16, 1 ≤ k ∧ 1 = (k * n + 15) / 16) ↔ n = 16) := by decide +kernel

/-- A program to be killed, with its classes all placed and with none; feed faults in the aperture, where nothing will be mapped, and where a record will
map; a third kill, and a program that does not restart. -/
theorem test_witness_KillsRelaunchesAndWithdrawals : (∀ ps ∈ [[0], []], let s := { idle with residents := [(demoRid, { demoResident with killPending := some 0xFFFF, placedOnce := ps })] }
      runs s ∧ (tfind s.residents demoRid).map (fun r => (r.killPending, r.n)) = some (some (BitVec.ofNat 16 0xFFFF), 1)) := by
  unfold runs; decide +kernel

theorem test_witness_KillsRelaunchesAndWithdrawals_feed : (∀ e ∈ [((0xFE0000000000 : Nat), ([] : Table Nat), true), (0x4300000000, [], true), (0x4200000000, [], true), (0x4200000000, [(0, 2)], true), (0x4200000000, [], false)],
      let s := fed e.1 e.2.1 e.2.2
      runs s ∧ (tfind s.reqs 0).map (fun r => (r.blk.dest, r.ck, r.waits)) = some (2, demoCk, some (BitVec.ofNat 64 e.1, .read)) ∧ active s demoCk = true
        ∧ (tfind s.residents (clsAt s demoCk).rid).isSome = true
        ∧ (inAperture e.1 = true ∨ (peekWalk s demoCtx e.1 .read = .miss ∧ willBeMapped s demoCtx e.1 = decide (e.1 = 0x4200000000)))) := by
  unfold runs; decide +kernel

/-- A withdrawal from no program, from one without a class left, and of a class that waits. -/
theorem test_witness_KillsRelaunchesAndWithdrawals_fetch : ∀ e ∈ [(9, []), (7, []), (7, [(⟨7, [0, 1]⟩ : UnitOfWork)])],
      let f : Fetch := ⟨0, demoCk, e.1, 4064⟩
      let s := { booked idle 7 [(2, [5]), (12, [1])] .converged [] 0 with
        ushers := [(0, { Usher.blank with queue := e.2, fetches := [f, ⟨0, demoCk, 9, 0⟩] })],
        residents := [(demoRid, demoResident), (7, { demoResident with n := 2, placedOnce := [] })] }
      let s := { s with book := tupd s.book 7 (fun x => { x with stand := { x.stand with step := 3 } }) }
      runs s ∧ (usherAt s 0).fetches = f :: [⟨0, demoCk, 9, 0⟩] ∧ fetchable s f.rid = decide (e.1 = 7) ∧ (∀ g ∈ [(⟨0, demoCk, 9, 0⟩ : Fetch)], g.ck ≠ f.ck ∨ g.mailbox ≠ f.mailbox)
        ∧ (e.1 = 7 → (residentAt s f.rid).ctx = (clsAt s f.ck).ctx ∧ (withdraw f.rid (usherAt s 0).queue).isSome = !e.2.isEmpty
          ∧ askAround s 0 (fun x => x.rid == f.rid && binds s x.rid 0) = none ∧ (tfind s.residents f.rid).map (fun r => (r.placedOnce, r.policy)) = some ([], 0)
          ∧ (∀ d ∈ [2, 3, 4], (levelsOf (residentAt s f.rid).launch d).length ≤ 1) ∧ ∀ v ∈ (residentAt s f.rid).launch.levels, v.domain ≤ 5) := by
  unfold runs; decide +kernel

/-- A request of 256 bytes from the page of the program, to what `dest` names. -/
def request256 (src dest dst : Nat) : Request :=
  { request9 with blk := { request9.blk with src := src, dest := dest, dst := dst, size0 := 256 } }

/-- The piece at which a request stands: its place, and what `movePiece` does with it. -/
def piece (s : State) (r : Request) : Nat × Piece :=
  ((match (engineMeets s (coreOfReq s r / 64) r.ck (srcOf r r.rows) 8 .read).2 with | .place pl => pl.pa | _ => 0), (movePiece s r).2)

/-- Requests for scratch, for memory, for a FIFO with room and one that is full, and for a cache; pieces that end a request, that end at a line, and that
end before a word that they would write in part; and those that are spoiled, not permitted, or wait. -/
theorem test_witness_CopyRequestsMoveAndComplete : piece idle request9 = (demoFrame, .moved 16) ∧ request9.rows + 16 = totalOf request9
    ∧ piece idle (request256 demoVa 1 0x400) = (demoFrame, .moved 128) ∧ piece idle (request256 (demoVa + 4) 1 0x400) = (demoFrame + 4, .moved 120)
    ∧ piece (writable idle 0) (request256 demoVa 0 (demoVa + 1024)) = (demoFrame, .moved 128) ∧ piece idle (request256 demoVa 2 0) = (demoFrame, .moved 128)
    ∧ piece idle (request256 demoVa 3 0) = (demoFrame, .moved 128) ∧ idle.badDev = [] ∧ idle.passing = []
    ∧ (∀ d ∈ [0, 1, 2], (piece { writable idle 0 with badDev := [demoFrame] } (request256 demoVa d (if d = 0 then demoVa + 1024 else 0))).2 = .spoiled)
    ∧ (let s := booked idle 7 [(2, [2, 1]), (12, [1]), (0x20, bytesOfNat 8 0x4200000000), (0x28, bytesOfNat 8 4096)] .pending [] 0
      ∀ d ∈ [1, 2, 3], (match (movePiece s (request256 (2 ^ 50) d 0)).2, (movePiece s (request256 0x4200000000 d 0)).2 with | .fail _ _, .wait _ _ => true | _, _ => false) = true) := by
  decide +kernel

/-- The program with `n` bytes in FIFO 0 of its core. -/
def filled (n : Nat) : State := { idle with mats := [(0, { Matrix.blank with fifos := [(0, ⟨List.replicate n 0, 0⟩)] })] }

theorem filled_room (n : Nat) : 65536 - (fifoAt (matrixAt (filled n) (coreOfReq (filled n) (request256 demoVa 2 0))) 0).bytes.length = 65536 - n := by
  show 65536 - (List.replicate n (0 : Byte)).length = 65536 - n
  rw [List.length_replicate]

/-- A FIFO without room. -/
theorem test_witness_CopyRequestsMoveAndComplete_full :
    65536 - (fifoAt (matrixAt (filled 65536) (coreOfReq (filled 65536) (request256 demoVa 2 0))) 0).bytes.length = 0 := filled_room 65536

/-- Requests to start: one that has begun and one that has not, a gathering one with its table, and one for a FIFO behind another that has moved; and a
request that has moved. -/
theorem test_witness_CopyRequestsMoveAndComplete_starts : (∀ d ∈ [1, 2], ∀ b ∈ [true, false], let r := { request256 demoVa d 0 with begun := b }
      let s := { idle with reqs := [(0, { r with moved := true }), (1, r)] }
      runs s ∧ tfind s.reqs 1 = some r ∧ r.moved = false ∧ active s r.ck = true ∧ r.waits = none ∧ (matrixAt s (coreOf s r.ck)).acts = []
        ∧ (∀ e ∈ s.reqs, e.1 < 1 → e.2.moved = true) ∧ r.rows < totalOf r ∧ (readTable s r 0).2 = ([], none) ∧ tfind (readTable s r 0).1.reqs 1 = some r)
    ∧ (readTable idle { request256 0 1 0x400 with begun := false, blk := copyBlockOf (copyBytes 2 1 ([2, 0, 0, 0] ++ bytesOfNat 8 demoVa)) } 2).2.2 = none
    ∧ (let r := { request9 with moved := true }; let s := { idle with reqs := [(0, r)] }; runs s ∧ tfind s.reqs 0 = some r ∧ r.moved = true ∧ r.completed = false
      ∧ linesOf r.blk r.lrFirst r.lrLast = [8]) := by
  unfold runs; decide +kernel

/-- A matrix unit with a loop of `n` steps of format word `w`, its two FIFOs full of the byte b, over slate 2, whose rows are r. -/
def unit9 (w : Word) (n : Nat) (b : Byte) (r : Row) : Matrix :=
  { Matrix.blank with loops := [{ loop9 with remaining := n, fmt := w }], fifos := [(0, ⟨List.replicate 8192 b, 0⟩), (1, ⟨List.replicate 8192 b, 0⟩)],
                      slates := [(2, { Slate.blank with rows := [(0, r)] })] }

/-- A loop at its end, one with steps to apply, and one of MODE 1 that would renormalise. -/
theorem test_witness_MatrixUnitSteps : ∀ e ∈ [((0 : Word), 0, Row.blank, false), (0, 1, Row.blank, false), (0, 2, Row.blank, false),
        (0x00000100, 1, { Row.blank with z := false, e := -1000 }, true)],
      let u := unit9 e.1 e.2.1 0x3C e.2.2.1; let s := { idle with mats := [(0, u)] }; let lp := { loop9 with remaining := e.2.1, fmt := e.1 }
      runs s ∧ fwOk e.1 = true ∧ (matrixAt s 0).loops.find? (fun x => x.ticket == 9) = some lp ∧ matrixClass s 0 = some demoCk ∧ loopHeld u lp = false ∧ (nextChunks u lp).isSome = true
        ∧ u.staged = [] ∧ (∀ x ∈ u.loops, x.ticket = 9) ∧ u.log = [] ∧ (fwMode e.1 == 1 && (List.range 32).any (fun i => wouldShift (rowAt (slateAt u 2) i) (((nextChunks u lp).map (fun c => (stepProducts e.1 c.1 c.2.1).getD i ([], false))).getD ([], false)).1)) = e.2.2.2 := by
  unfold runs; decide +kernel

/-- Rows that make room, that must renormalise for a product or a sum, and that overflow, with a product of top 2. -/
theorem test_witness_MatrixUnitSteps_rows : ∀ e ∈ [((0 : Int), (5 : BitVec 48), false), (-60, 5, false), (0, BitVec.ofInt 48 (2 ^ 46 - 1), false), (32767, BitVec.ofInt 48 (2 ^ 46 - 1), true)],
    let r : Row := { Row.blank with z := false, e := e.1, m := List.replicate 32 e.2.1 }; let ps : Products := [(31, 3, 0), (31, 1, -4)]
    r.o = false ∧ isTop 2 ps ∧ r.m.length = 32 ∧ -32768 ≤ r.e ∧ (stepRow r ps false).1.o = e.2.2 := by
  unfold isTop; decide +kernel

/-- A clear, a write, a read, a status and a clear of a FIFO with a request that it releases and one that it does not. -/
theorem test_witness_MatrixUnitSteps_acts : ∀ e ∈ [(ActKind.clear, [12]), (.write 31 [(3, 0x3F800000)], [12]), (.read 31 2, [12]), (.stat 31, [12, 13]), (.fifoClear 1 1, [12])],
    let a : Act := ⟨9, 7, e.1, [tk0], true⟩; let p : Deferred := ⟨e.2.map (fun n => (Dest.alloc n, 0)), some 9, 1⟩
    let r := request256 demoVa 2 0; let r := { r with retained := true, blk := { r.blk with fifo := 1 } }
    let s := withThread { idle with mats := [(0, { Matrix.blank with acts := [a] })], reqs := [(0, r), (1, r)] } (fun t => { t with pend := [p] })
    runs s ∧ (matrixAt s 0).acts.find? (fun x => x.ticket == 9) = some a ∧ matrixClass s 0 = some demoCk ∧ actHeld (matrixAt s 0) a = false
      ∧ (tfind s.threads tk0).map (·.pend) = some [p] ∧ canonicalKeys s.reqs = true ∧ r.ck = demoCk ∧ r.blk.dest = 2 ∧ r.retained = true ∧ r.completed = false := by
  unfold runs; decide +kernel

/-- The products of that write. -/
theorem test_witness_MatrixUnitSteps_write : f32 0x3F800000 = .fin false 0x800000 (-23) ∧ isTop 1 [(3, 0x800000, -23)] := by
  unfold isTop; decide +kernel

/-- A PUT on window 5. -/
def fabOp9 (phase : FabPhase) : FabOp :=
  ⟨0, demoCk, fabBlockOf ([1, 0, 0, 0, 1, 0, 0, 0] ++ bytesOfNat 8 demoVa ++ bytesOfNat 8 demoVa ++ bytesOfNat 4 16 ++ List.replicate 36 0), 5, 3, 1, true, phase, false, []⟩

/-- An operation to be sent, on a window and on one that is held, one that settles, an arrival at the end of a window, and one past it. -/
theorem test_witness_FabricOperationsTravel : (let x := fabOp9 .queued; let s := { idle with fabOps := [(0, x)] }
      runs s ∧ tfind s.fabOps 0 = some x ∧ x.phase = .queued ∧ x.blk.kind ≠ 3 ∧ windowHeld s x.win = false
        ∧ (match (payloadRows s (x.core / 64) x.ck x.blk x.blk.n1).2 with | .inr ps => ps.length == 1 | _ => false) = true
        ∧ windowHeld { s with windows := tupd (remote s true).windows 5 (fun w => { w with paused := true }) } 5 = true)
    ∧ (let x := fabOp9 .sent; let s := remote { idle with fabOps := [(0, x)] } true
      runs s ∧ x.phase = .sent ∧ (tfind s.windows x.win).map (fun w => (w.issue + 1, w.settled)) = some (x.num, []) ∧ x.selfRefused = false ∧ x.blk.kind ≠ 3)
    ∧ (let s := { writable (remote idle false) 0 with dmem := (writable idle 0).dmem }
      runs s ∧ (tfind s.windows 5).map (fun w => (converged s w.rid, w.peer, w.perms / 2 % 2, w.va, w.size)) = some (true, false, 1, demoVa, 4096)
        ∧ (tfind s.windows 5).map (·.paused) = some false ∧ 4095 + 1 ≤ 4096 ∧ (demoVa + 4095) % 128 + 1 ≤ 128 ∧ 4096 < 4095 + 2
        ∧ (windowPlaces s demoCtx .write [(demoVa + 4095, 1)]).2 = some [(⟨false, 0, 0, false, demoFrame + 4095⟩, 1)]) := by
  unfold runs; decide +kernel

/-- Ports in and out of service, of a die with a FIRMWARE record and of one without. -/
theorem test_witness_FabricOperationsTravel_ports : let s := { booked idle 8 [(2, [7]), (3, [1]), (0x20, [0]), (0x21, [0x80])] .converged [] 0 with ports := [(0, .inService), (143, .inService)] }
    runs s ∧ tget .untrained s.ports 143 = .inService ∧ dieRecords s (143 / 18) = [8] ∧ tget .untrained s.ports 0 = .inService ∧ dieRecords s (0 / 18) = []
      ∧ tget .untrained s.ports 142 = .untrained ∧ s.duplicate = false := by
  unfold runs; decide +kernel

/-- Lines, a mapped page, a scratch word, codewords and a request that errors meet. -/
theorem test_witness_UncorrectableErrorsAreContained : (let ln := clean9 0 (List.replicate 128 1); let s := { idle with l1 := [(lineKey 511 false 9, ln)], icache := [(2 ^ 60, [])] }
      runs s ∧ tfind s.l1 (lineKey 511 false 9) = some ln ∧ ln.dirty.any id = false ∧ (tfind s.icache (2 ^ 60)).isSome = true)
    ∧ (let s := mapped idle; runs s ∧ mapAt s false ((demoFrame / 128 + 31) / 32) = some (7, map9, demoVa / 4096) ∧ recKind (builtOf s 7) = 2)
    ∧ (0xFE0000000FF8 = 0xFE0000000000 + 4088 ∧ 4088 < (launchOf idle (ckOfT tk0)).scratch)
    ∧ (let c := (clsAt idle (ckOfT tk0)).ctx; inAperture demoVa = false ∧ (match peekWalk idle c demoVa .read with | .leaf _ _ _ => true | _ => false) = true
      ∧ (match peekWalk idle c (threadAt idle tk0).pc.toNat .exec with | .leaf _ _ _ => true | _ => false) = true)
    ∧ (let s := { idle with reqs := [(0, request9)] }; tfind s.reqs 0 = some request9 ∧ request9.moved = false ∧ request9.begun = true ∧ inAperture (srcOf request9 0) = false
      ∧ (match peekWalk s (clsAt s demoCk).ctx (srcOf request9 0) .read with | .leaf _ _ _ => true | _ => false) = true)
    ∧ idle.playbill = none := by
  unfold runs; decide +kernel

/-- Spoiled words of scratch and of memory that a load would take. -/
theorem test_witness_UncorrectableErrorsAreContained_loads : (let s := { idle with badScratch := [scratchKey demoCk 4095] }
      4092 + 4 ≤ (launchOf s demoCk).scratch ∧ absentLine s demoCk 4092 4 = none ∧ badScratchAt s demoCk 4092 4 = true)
    ∧ (let s := { idle with badDev := [demoFrame + 4095] }; let q := globalPages s (coreOf s demoCk) (clsAt s demoCk).ctx (demoVa + 4092) 4 .read; let pl := inPage 0 4092
      q.2 = .inr [(pl, 4)] ∧ spoiledAt q.1 pl.host pl.pa 4 = true ∧ tfind q.1.l1 (lineKey (coreOf s demoCk) pl.host (pl.pa / 128)) = none
        ∧ soleCopy q.1 (coreOf s demoCk) pl ∧ settledAt q.1 (coreOf s demoCk) pl ∧ q.1.passing = [])
    ∧ (4095 + ([1] : List Byte).length ≤ 2 ^ 32 ∧ 4095 < 2 ^ 32) ∧ (inPage 0 4095).mc = 0 := by
  unfold soleCopy settledAt; decide +kernel

/-- A step that an error falls on: what it does, and that it is neither skipped nor blocked. -/
theorem test_witness_UncorrectableErrorsAreContained_steps : (let s := { idle with mishap := some (.lost 7) }; s.mishap = some (.lost 7) ∧ linksUp s = true)
    ∧ let s := { booked (booked idle 1 [(2, [1, 1])] .converged [] 0) 7 [(2, [2, 1]), (12, [1]), (0x20, bytesOfNat 8 demoVa), (0x28, bytesOfNat 8 4096), (0x33, [7])] .pending [] 0 with
        mishap := some (.lost 7), maps := [(7, { map9 with fresh := [demoVa / 4096] })] }
      let s0 := updEntry s 7 (fun e => { e with plan := 2 :: [3] })
      skips s0 7 (wantOf s0 7) 2 = false ∧ stepBlock s0 7 2 = none ∧ ((runStep s0 7 (wantOf s0 7) 2).2).map (·.1) = some 0x0301 := by decide +kernel

/-- A latched playbill of nothing, and one whose header passes. -/
theorem test_witness_PassesReadRecordsAndSnapshotsQuiesce : ∀ h ∈ [[], [(3 : Byte), 0, 0, 0, 9, 0, 0, 0, 2]],
      let s := { State.reset with playbill := some (0, 2), wake := true, timebase := 1000000, hmem := wrBytes [] 0 h, dvsec := { Dvsec.reset with pben := true } }
      let r := (readRecord { s with wake := false, marksWritten := false } 0 0).2
      runs s ∧ linksUp s = true ∧ s.dvsec.pben = true ∧ s.wake = true ∧ s.lastPassEnd + 1000000 ≤ s.timebase ∧ s.mishap = none
        ∧ (headerBad r).isSome = h.isEmpty ∧ (h ≠ [] → 2 ≤ fieldAt r 8 4 ∧ fieldAt r 8 4 ≤ 2) := by
  unfold runs; decide +kernel

/-- Nothing of a context is under way. -/
theorem quiescesNow_of (s : State) (ctx : Nat) (ht : ∀ e ∈ s.threads, e.2.pend = []) (hr : s.reqs = []) (hf : s.fabOps = []) (hi : s.issue = none) :
    QuiescesNow s ctx := by
  intro ck c _ _
  refine ⟨fun _ => ⟨fun tk u h _ => ht _ h, by simp [hr], by simp [hi]⟩, by simp [hr], by simp [hf]⟩

/-- Records with an odd version, a wrong seal and no QUIET flag, and a snapshot that waits for its quiesce, of a target that holds its image and one
that does not. -/
theorem test_witness_PassesReadRecordsAndSnapshotsQuiesce_records :
    (∀ v ∈ [1, 2], let s := { State.reset with hmem := wrBytes [] 128 ([1, 0, 1, 1, v, 0, 0, 0, 1] : List Byte) }; let r := (readRecord s 0 1).2
      recVersion r = v.toNat ∧ allZero r = false ∧ recQuiet r = false ∧ (v = 2 → recSeal r ≠ sealOf r))
    ∧ (∀ n ∈ [0, 2 ^ 20], let s := booked { idle with classes := [(demoCk, { demoCls with segBase := [] })] } 7 [(2, [6]), (12, [1]), (0x30, bytesOfNat 8 n)] .converging [1] 2
      runs s ∧ (entryAt s 7).phase = 2 ∧ recKind (builtOf s 7) = 6 ∧ recParent (builtOf s 7) = demoCtx ∧ QuiescesNow s demoCtx ∧ snTsize (builtOf s 7) = n
        ∧ (launchOf s demoCk).regs ≤ 1024 ∧ troupesInOrder s demoCk = [0] ∧ (tfind s.threads (tkey demoCk 0 0)).isSome = true
        ∧ canonicalKeys s.troupes = true ∧ ∀ e ∈ s.troupes, e.2.order < 2 ^ 64)
    ∧ let s := withThread (booked idle 7 [(2, [6]), (12, [1])] .converging [1] 2) (fun t => { t with pend := [owed9] }); ¬ QuiescesNow s demoCtx := by
  refine ⟨by decide +kernel, ?_, fun h => absurd ((h demoCk _ (List.mem_singleton.mpr rfl) rfl).1 rfl).1 fun h => absurd (h tk0 _ (List.mem_singleton.mpr rfl) rfl) (by decide +kernel)⟩
  intro n hn
  have h := hn
  refine ⟨?_, ?_, ?_, ?_, quiescesNow_of _ _ ?_ ?_ ?_ ?_, ?_, ?_, ?_, ?_, ?_, ?_⟩
  all_goals
    simp only [List.mem_cons, List.not_mem_nil, or_false] at hn
    rcases hn with rfl | rfl <;> (try unfold runs) <;> decide +kernel
end Sys2Proof.Tests
end

namespace Sys2Proof.Laws
open Sys2Proof.Machine Sys2Proof.Safety

/-! ## Sound storage

Every operation of the model takes storage that is in its canonical form to storage in that form. `Keeps s t` says it of two states, and each
operation has one lemma, named after it, that carries `Keeps s₀` from the state that the operation is given to the one that it leaves: a step is
then the chain of the lemmas of its operations. The lines of the caches go with the memories, as one walk over the operations serves both
(`Keeps.memoryWf`, `Keeps.goodLines`). -/

/-- A line of an L1 is whole: 128 bytes, and a dirty mark for each (R148). -/
def WholeLine (ln : L1Line) : Prop := ln.bytes.length = 128 ∧ ln.dirty.length = 128

/-- A line of a remote-data cache is whole (R153). -/
def WholeCopy (r : RdcLine) : Prop := r.bytes.length = 128

/-- Every entry of a table has a property. -/
def Every {α : Type} (P : α → Prop) (t : Table α) : Prop := ∀ e ∈ t, P e.2

/-- If the storage of `s` is sound, so is that of `t`: canonical memories (`memoryWf`) stay canonical, whole cache lines (`goodLines`) whole. -/
structure Keeps (s t : State) : Prop where
  dmem : memoryWf s = true → Memory.wf t.dmem = true
  hmem : memoryWf s = true → Memory.wf t.hmem = true
  scratch : memoryWf s = true → Memory.wf t.scratch = true
  l1 : goodLines s = true → Every WholeLine t.l1
  rdc : goodLines s = true → Every WholeCopy t.rdc

theorem memoryWf_iff {s : State} :
    memoryWf s = true ↔ Memory.wf s.dmem = true ∧ Memory.wf s.hmem = true ∧ Memory.wf s.scratch = true := by
  simp [memoryWf, and_assoc]

theorem goodLines_iff {s : State} : goodLines s = true ↔ Every WholeLine s.l1 ∧ Every WholeCopy s.rdc := by
  simp [goodLines, Every, WholeLine, WholeCopy]

namespace Every
variable {α : Type} {P : α → Prop} {t : Table α}

theorem nil : Every P [] := fun _ h => nomatch h

theorem of_tfind {k : Nat} {v : α} (h : Every P t) (hv : tfind t k = some v) : P v := by
  induction t with
  | nil => nomatch hv
  | cons c r ih =>
    simp only [tfind] at hv
    split at hv
    · exact Option.some.inj hv ▸ h c List.mem_cons_self
    · exact ih (fun e he => h e (List.mem_cons_of_mem _ he)) hv

theorem tput {k : Nat} {v : α} (h : Every P t) (hv : P v) : Every P (tput t k v) := by
  intro e he
  rcases mem_tput he with rfl | he
  · exact hv
  · exact h e he

theorem tupd {k : Nat} {f : α → α} (h : Every P t) (hf : ∀ v, P v → P (f v)) : Every P (tupd t k f) := by
  unfold Machine.tupd
  split
  · exact h.tput (hf _ (h.of_tfind ‹_›))
  · exact h

theorem filter {p : Nat × α → Bool} (h : Every P t) : Every P (t.filter p) := fun e he => h e (List.mem_filter.1 he).1

theorem tdel {k : Nat} (h : Every P t) : Every P (tdel t k) := h.filter

theorem map {f : Nat × α → Nat × α} (h : Every P t) (hf : ∀ e, P e.2 → P (f e).2) : Every P (t.map f) := by
  intro e he
  obtain ⟨c, hc, rfl⟩ := List.mem_map.1 he
  exact hf c (h c hc)

theorem filterMap {f : Nat × α → Option (Nat × α)} (h : Every P t) (hf : ∀ e u, P e.2 → f e = some u → P u.2) :
    Every P (t.filterMap f) := by
  intro e he
  obtain ⟨c, hc, hu⟩ := List.mem_filterMap.1 he
  exact hf c e (h c hc) hu

end Every

theorem length_maskedBytes (os bs : List Byte) (ds : List Bool) : (maskedBytes os bs ds).length = os.length := by
  induction os generalizing bs ds with
  | nil => rfl
  | cons o os ih => cases bs <;> cases ds <;> simp [maskedBytes, ih]

theorem length_overlay {α : Type} (line : List α) (off : Nat) (bs : List α) : (overlay line off bs).length = line.length := by
  simp only [overlay, List.length_take, List.length_append, List.length_drop]
  omega

theorem length_homeLine (s : State) (host : Bool) (line : Nat) : (homeLine s host line).length = 128 := length_rdBytes ..

theorem wf_maskedWrite {m : Memory} (a : Nat) (bs : List Byte) (ds : List Bool) (h : Memory.wf m = true) :
    Memory.wf (maskedWrite m a bs ds) = true := by
  induction bs generalizing m a ds with
  | nil => cases ds <;> exact h
  | cons b bs ih =>
    cases ds with
    | nil => exact h
    | cons d ds =>
      refine ih _ _ ?_
      split
      · exact wf_wr8 a b h
      · exact h

theorem wf_foldl_wr8 {α : Type} {a : α → Nat} {v : α → Byte} {m : Memory} {l : List α} (h : Memory.wf m = true) :
    Memory.wf (l.foldl (fun m x => wr8 m (a x) (v x)) m) = true := by
  induction l generalizing m with
  | nil => exact h
  | cons x l ih => exact ih (wf_wr8 _ _ h)

theorem foldl_bind_none {α β : Type} {f : α → β → Option α} (l : List β) : l.foldl (fun o k => o.bind fun x => f x k) none = none := by
  induction l with
  | nil => rfl
  | cons k r ih => exact ih

/-- A fold of steps each of which may fail keeps, if it succeeds, what each of its steps keeps. -/
theorem foldl_bind_some {α β : Type} {f : α → β → Option α} {P : α → Prop} {l : List β} {x y : α} (hx : P x)
    (hf : ∀ x k y, P x → f x k = some y → P y) (e : l.foldl (fun o k => o.bind fun x => f x k) (some x) = some y) : P y := by
  induction l generalizing x with
  | nil => exact Option.some.inj e ▸ hx
  | cons k r ih =>
    rw [List.foldl_cons, Option.bind_some] at e
    cases hu : f x k with
    | none =>
      rw [hu] at e
      exact nomatch e.symm.trans (foldl_bind_none r)
    | some z => exact ih (hf x k z hx hu) (hu ▸ e)

/-- A meaning keeps the storage sound in the state that it answers, if it answers one. -/
def KeepsNext (s₀ : State) (o : Out) : Prop := ∀ t, o = .next t → Keeps s₀ t

theorem KeepsNext.ite {s₀ : State} {c : Prop} [Decidable c] {o o' : Out} (h : KeepsNext s₀ o) (h' : KeepsNext s₀ o') :
    KeepsNext s₀ (if c then o else o') := by
  split
  · exact h
  · exact h'

/-- An event that leaves the device model has no next state. -/
theorem KeepsNext.fault {s₀ : State} {f : Fault} : KeepsNext s₀ (.fault f) := fun _ e => nomatch e

namespace Keeps
variable {s₀ s t : State}

theorem refl : Keeps s s where
  dmem h := (memoryWf_iff.1 h).1
  hmem h := (memoryWf_iff.1 h).2.1
  scratch h := (memoryWf_iff.1 h).2.2
  l1 h := (goodLines_iff.1 h).1
  rdc h := (goodLines_iff.1 h).2

/-- Canonical memories stay canonical. -/
theorem memoryWf (h : Keeps s t) (hs : memoryWf s = true) : memoryWf t = true := memoryWf_iff.2 ⟨h.dmem hs, h.hmem hs, h.scratch hs⟩

/-- Whole lines stay whole. -/
theorem goodLines (h : Keeps s t) (hs : goodLines s = true) : goodLines t = true := goodLines_iff.2 ⟨h.l1 hs, h.rdc hs⟩

theorem ite {c : Prop} [Decidable c] (hs : Keeps s₀ s) (ht : Keeps s₀ t) : Keeps s₀ (if c then s else t) := by
  split
  · exact hs
  · exact ht

theorem ite_fst {α : Type} {c : Prop} [Decidable c] {p q : State × α} (hp : Keeps s₀ p.1) (hq : Keeps s₀ q.1) :
    Keeps s₀ (if c then p else q).1 := by
  split
  · exact hp
  · exact hq

theorem foldl {α : Type} {f : State → α → State} {l : List α} (h : Keeps s₀ s) (hf : ∀ t, Keeps s₀ t → ∀ x ∈ l, Keeps s₀ (f t x)) :
    Keeps s₀ (l.foldl f s) := by
  induction l generalizing s with
  | nil => exact h
  | cons x l ih => exact ih (hf s h x List.mem_cons_self) (fun t ht y hy => hf t ht y (List.mem_cons_of_mem _ hy))

theorem pair {α : Type} {x : α} (h : Keeps s₀ s) : Keeps s₀ (s, x).1 := h

/-- The state of a pair that an operation answers. -/
theorem fst {α : Type} {p : State × α} {x : α} (h : Keeps s₀ p.1) (e : p = (t, x)) : Keeps s₀ t := by subst e; exact h

/-- A fold over a state and what it has gathered keeps the storage if each of its steps does. -/
theorem foldl_fst {α β : Type} {f : State × β → α → State × β} {l : List α} {q : State × β} (h : Keeps s₀ q.1)
    (hf : ∀ q x, Keeps s₀ q.1 → Keeps s₀ (f q x).1) : Keeps s₀ (l.foldl f q).1 := by
  induction l generalizing q with
  | nil => exact h
  | cons x l ih => exact ih (hf q x h)

/-- The state that a step which may answer none leaves. -/
theorem getD {o : Option State} (h : Keeps s₀ s) (ho : ∀ t, o = some t → Keeps s₀ t) : Keeps s₀ (o.getD s) := by
  cases o with
  | none => exact h
  | some t => exact ho t rfl

theorem next (h : Keeps s₀ t) : KeepsNext s₀ (.next t) := fun _ e => Host.Outcome.next.inj e ▸ h

/-! ### Tables of the state that are not storage -/

theorem withCtxs {cs : Table Ctx} (h : Keeps s₀ s) : Keeps s₀ { s with ctxs := cs } := { h with }
theorem withMaps {ms : Table Map} (h : Keeps s₀ s) : Keeps s₀ { s with maps := ms } := { h with }
theorem withSnaps {ss : Table Snap} (h : Keeps s₀ s) : Keeps s₀ { s with snaps := ss } := { h with }
theorem withClasses {cs : Table Cls} (h : Keeps s₀ s) : Keeps s₀ { s with classes := cs } := { h with }
theorem withResidents {rs : Table Resident} (h : Keeps s₀ s) : Keeps s₀ { s with residents := rs } := { h with }
theorem withWindows {ws : Table Window} (h : Keeps s₀ s) : Keeps s₀ { s with windows := ws } := { h with }
theorem withBlocks {bs : Table ControlBlock} (h : Keeps s₀ s) : Keeps s₀ { s with cbs := bs } := { h with }

/-! ### Threads, registers and traps -/

section Threads
variable {tk ck p seq : Nat}

protected theorem setThread {u : Thread} (h : Keeps s₀ s) : Keeps s₀ (setThread s tk u) := { h with }
protected theorem updThread {f : Thread → Thread} (h : Keeps s₀ s) : Keeps s₀ (updThread s tk f) := { h with }
protected theorem updTroupe {f : Troupe → Troupe} (h : Keeps s₀ s) : Keeps s₀ (updTroupe s ck p f) := { h with }
protected theorem updCls {f : Cls → Cls} (h : Keeps s₀ s) : Keeps s₀ (updCls s ck f) := { h with }
protected theorem updResident {rid : Nat} {f : Resident → Resident} (h : Keeps s₀ s) : Keeps s₀ (updResident s rid f) := { h with }
protected theorem updUsher {die : Nat} {f : Usher → Usher} (h : Keeps s₀ s) : Keeps s₀ (updUsher s die f) := { h with }
protected theorem setTimeline {n : Nat} {v : Timeline} (h : Keeps s₀ s) : Keeps s₀ (setTimeline s ck n v) := { h with }
protected theorem setMatrix {core : Nat} {m : Matrix} (h : Keeps s₀ s) : Keeps s₀ (setMatrix s core m) := { h with }
protected theorem draw (h : Keeps s₀ s) : Keeps s₀ (draw s).2 := { h with }

protected theorem writeDest {d : Dest} {v : Word} (h : Keeps s₀ s) : Keeps s₀ (writeDest s tk seq d v) := by
  cases d with
  | zero => exact h
  | alloc a => exact { h with }
  | kreg n => exact h.updTroupe
  | creg n => exact .ite { h with } h

protected theorem writeDests {ws : List (Dest × Word)} (h : Keeps s₀ s) : Keeps s₀ (writeDests s tk seq ws) :=
  h.foldl fun _ h _ _ => h.writeDest

protected theorem restoreRegs {rs : List (Nat × Word)} (h : Keeps s₀ s) : Keeps s₀ (restoreRegs s tk rs) := { h with }

protected theorem writeStatus {r : Region} {w : Word} (h : Keeps s₀ s) : Keeps s₀ (writeStatus s tk r w) := by
  unfold writeStatus
  split
  · exact h.writeDest
  · exact h

protected theorem abortRegion {code detail : Nat} (h : Keeps s₀ s) : Keeps s₀ (abortRegion s tk code detail) := by
  unfold abortRegion
  split
  · exact h
  · split
    · exact h
    · exact h.setThread.restoreRegs.writeStatus

protected theorem toReconciler {c : Cause} {v : DWord} (h : Keeps s₀ s) : Keeps s₀ (toReconciler s tk c v) := h.updThread.updResident

protected theorem enterTrap {c : Cause} {v epc : DWord} {toRec : Bool} (h : Keeps s₀ s) : Keeps s₀ (enterTrap s tk c v epc toRec) :=
  .ite h.setThread.toReconciler (.ite h.setThread.toReconciler h.setThread.updThread)

protected theorem trapAt {c : Cause} {v epc : DWord} {toRec : Bool} (h : Keeps s₀ s) : Keeps s₀ (trapAt s tk c v epc toRec) := by
  unfold trapAt
  split
  · exact h
  · split
    · exact h.abortRegion.enterTrap
    · exact .ite h.enterTrap h.setThread

protected theorem applyAct {g : Group} {m : Bool} {la : Nat × LaneAct} (h : Keeps s₀ s) : Keeps s₀ (applyAct g m seq s la) := by
  obtain ⟨l, a⟩ := la
  cases a with
  | trap c v => exact h.trapAt
  | abort code detail => exact h.abortRegion
  | done ws pc => exact h.writeDests.updThread
  | park | defer | ticketed | deferPark => exact h.updThread
  | gone => exact h

protected theorem applyActs {g : Group} {m : Bool} {acts : List (Nat × LaneAct)} (h : Keeps s₀ s) : Keeps s₀ (applyActs g m seq s acts) :=
  h.foldl fun _ h _ _ => h.applyAct

protected theorem checkMask {j : Nat} (h : Keeps s₀ s) : Keeps s₀ (checkMask s ck p j) :=
  .ite (h.foldl fun _ h _ _ => h.updThread).updTroupe h

protected theorem strikeMask {j : Nat} {m : Word} (h : Keeps s₀ s) : Keeps s₀ (strikeMask s ck p j m) := h.updTroupe.checkMask
protected theorem unarrive {m : Word} (h : Keeps s₀ s) : Keeps s₀ (unarrive s ck p m) := h.updTroupe

end Threads

/-! ### Translation -/

section Translation
variable {die core ctx va : Nat} {kind : Kind} {fab : Bool}

protected theorem walkFill (h : Keeps s₀ s) : Keeps s₀ (walkFill s die ctx va kind fab).1 := by
  unfold walkFill
  split
  · exact h
  · split
    · extract_lets s₁
      have h₁ : Keeps s₀ s₁ := .ite h { h with dmem := fun w => wf_wrNat _ _ _ (h.dmem w) }
      clear_value s₁
      exact { h₁ with }
    · exact h

protected theorem translate (h : Keeps s₀ s) : Keeps s₀ (translate s core ctx va kind fab).1 := by
  unfold Machine.translate
  split
  · exact h
  · split
    · exact { h with }
    · split
      · next e => exact { h.walkFill.fst e with }
      · next e => exact h.walkFill.fst e

protected theorem dropDieTlbs (h : Keeps s₀ s) : Keeps s₀ (dropDieTlbs s die) := { h with }
protected theorem dropTlbs (h : Keeps s₀ s) : Keeps s₀ (dropTlbs s ctx) := { h with }
protected theorem dropPlaybill (h : Keeps s₀ s) : Keeps s₀ (dropPlaybill s) := { h with }

protected theorem dropLink {port : Nat} (h : Keeps s₀ s) : Keeps s₀ (dropLink s port) := by
  have hl : Keeps s₀ (if port = 0 then { s with linkUp0 := false } else { s with linkUp1 := false }) := .ite { h with } { h with }
  exact .ite hl.dropPlaybill hl

protected theorem takeReserved {n pl owner : Nat} {q : State × Nat} (h : Keeps s₀ s) (e : takeReserved s n pl owner = some q) :
    Keeps s₀ q.1 := by
  obtain ⟨p, -, rfl⟩ := Option.map_eq_some_iff.1 e
  exact { h with }

protected theorem freeReserved {owner : Nat} (h : Keeps s₀ s) : Keeps s₀ (freeReserved s owner) := { h with }
protected theorem recallHost {pl : Place} {n : Nat} (h : Keeps s₀ s) : Keeps s₀ (recallHost s pl n) := .ite h { h with }

end Translation

/-! ### Writes to memory -/

protected theorem setHome {host : Bool} {m : Memory} (h : Keeps s₀ s) (hm : Safety.memoryWf s₀ = true → Memory.wf m = true) :
    Keeps s₀ (setHome s host m) :=
  .ite { h with hmem := hm } { h with dmem := hm }

theorem homeMem {host : Bool} (h : Keeps s₀ s) (hs : Safety.memoryWf s₀ = true) : Memory.wf (homeMem s host) = true := by
  cases host
  · exact h.dmem hs
  · exact h.hmem hs

protected theorem mended {host : Bool} {w : Nat → Bool} (h : Keeps s₀ s) : Keeps s₀ (mended s host w) := .ite { h with } { h with }
protected theorem mendRange {host : Bool} {a n : Nat} (h : Keeps s₀ s) : Keeps s₀ (mendRange s host a n) := h.mended

/-! ### The caches -/

section Caches
variable {core die line k n : Nat} {host : Bool} {pl : Place} {ln : L1Line} {bs : List Byte} {dirty : List Bool}

protected theorem landHome (h : Keeps s₀ s) : Keeps s₀ (landHome s host line bs dirty) :=
  have hm := h.recallHost.mended
  hm.setHome fun w => wf_maskedWrite _ _ _ (hm.homeMem w)

protected theorem landPassing {w : Passing} (h : Keeps s₀ s) : Keeps s₀ (landPassing s w) := { h.landHome with }

protected theorem settlePassing {p : Passing → Bool} (h : Keeps s₀ s) : Keeps s₀ (settlePassing s p) :=
  h.foldl fun _ h _ _ => h.landPassing

protected theorem settleLine (h : Keeps s₀ s) : Keeps s₀ (settleLine s die line) := h.settlePassing

theorem whole_of_tfind (h : Keeps s₀ s) (e : tfind s.l1 k = some ln) (hs : Safety.goodLines s₀ = true) : WholeLine ln :=
  (h.l1 hs).of_tfind e

protected theorem sendBack (h : Keeps s₀ s) (hl : Safety.goodLines s₀ = true → WholeLine ln) : Keeps s₀ (sendBack s k ln) := by
  unfold sendBack
  split
  · exact h
  · extract_lets line die s₁ s₂
    have h₁ : Keeps s₀ s₁ := .ite h
      { h with rdc := fun g => (h.rdc g).tupd fun r hr => (length_maskedBytes r.bytes ln.bytes ln.dirty).trans hr }
    have h₂ : Keeps s₀ s₂ := .ite { h₁ with } h₁.landHome
    exact { h₂ with l1 := fun g => (h₂.l1 g).tput ⟨(hl g).1, rfl⟩ }

protected theorem writeBack (h : Keeps s₀ s) (hl : Safety.goodLines s₀ = true → WholeLine ln) : Keeps s₀ (writeBack s k ln) :=
  (h.sendBack hl).settleLine

/-- A line that its L1 holds no more. -/
theorem withoutLine (h : Keeps s₀ s) : Keeps s₀ { s with l1 := tdel s.l1 k } := { h with l1 := fun g => (h.l1 g).tdel }

/-- A copy that a remote-data cache holds no more. -/
theorem withoutCopies {p : Nat × RdcLine → Bool} (h : Keeps s₀ s) : Keeps s₀ { s with rdc := s.rdc.filter p } :=
  { h with rdc := fun g => (h.rdc g).filter }

protected theorem evictLine (h : Keeps s₀ s) : Keeps s₀ (evictLine s k) := by
  unfold evictLine
  split
  · exact h
  · next e => exact .ite h (h.sendBack (h.whole_of_tfind e)).withoutLine

protected theorem flushLine (h : Keeps s₀ s) : Keeps s₀ (flushLine s k) := by
  unfold flushLine
  split
  · exact h
  · next e => exact .ite h (h.writeBack (h.whole_of_tfind e)).withoutLine

/-- Lines of the L1 changed, whole ones to whole ones. -/
theorem updLine {f : L1Line → L1Line} (h : Keeps s₀ s) (hf : ∀ ln, WholeLine ln → WholeLine (f ln)) :
    Keeps s₀ { s with l1 := tupd s.l1 k f } :=
  { h with l1 := fun g => (h.l1 g).tupd hf }

protected theorem cleanLine (h : Keeps s₀ s) : Keeps s₀ (cleanLine s k) := by
  unfold cleanLine
  split
  · exact h
  · next e => exact .ite h ((h.writeBack (h.whole_of_tfind e)).updLine fun _ hl => hl)

protected theorem dropRdc (h : Keeps s₀ s) : Keeps s₀ (dropRdc s line) := h.withoutCopies

protected theorem recallForRead (h : Keeps s₀ s) : Keeps s₀ (recallForRead s core host line) := h.foldl fun _ h _ _ => h.cleanLine

protected theorem invalidateOthers (h : Keeps s₀ s) : Keeps s₀ (invalidateOthers s core host line) :=
  have hf := h.foldl fun _ h _ _ => h.flushLine
  .ite hf hf.dropRdc

/-- What a miss fetches is a whole line, and the state that it leaves keeps sound storage. -/
protected theorem fetchLine (h : Keeps s₀ s) :
    Keeps s₀ (fetchLine s core pl).1 ∧ (Safety.goodLines s₀ = true → (fetchLine s core pl).2.length = 128) := by
  unfold fetchLine
  extract_lets line die miss
  have hmiss : Keeps s₀ (miss s).1 ∧ (Safety.goodLines s₀ = true → (miss s).2.length = 128) := by
    have hu : Keeps s₀ (if pl.host then s else settleLine s die line) := .ite h h.settleLine
    dsimp only [miss]
    generalize (if pl.host then s else settleLine s die line) = u at hu
    split
    · exact ⟨hu, fun _ => length_homeLine ..⟩
    · exact ⟨{ hu with rdc := fun g => (hu.rdc g).tput (length_homeLine ..) }, fun _ => length_homeLine ..⟩
  clear_value miss
  split
  · exact hmiss
  · split
    · next e =>
      split
      · exact ⟨h, fun g => (h.rdc g).of_tfind e⟩
      · exact hmiss
    · exact hmiss

protected theorem fillLine {ro : Option Nat} (h : Keeps s₀ s) : Keeps s₀ (fillLine s core pl ro) := by
  unfold fillLine
  extract_lets k p good s₁ q s₁'
  have h₁ : Keeps s₀ s₁ := .ite h h.recallForRead
  obtain ⟨hq, hlen⟩ := h₁.fetchLine (core := core) (pl := pl)
  split
  · next e =>
    have hl := h.whole_of_tfind e
    split
    · exact { h with l1 := fun g => (h.l1 g).tput (hl g) }
    · exact { hq with l1 := fun g => (hq.l1 g).tput ⟨(length_maskedBytes ..).trans (hlen g), (hl g).2⟩ }
  · exact { hq with l1 := fun g => (hq.l1 g).tput ⟨hlen g, rfl⟩ }

protected theorem dropEarly (h : Keeps s₀ s) : Keeps s₀ (dropEarly s k) := { h with }

protected theorem takeToken (h : Keeps s₀ s) : Keeps s₀ (takeToken s core pl) :=
  h.dropEarly.recallHost.invalidateOthers.fillLine.updLine fun _ hl => hl

protected theorem readyToWrite (h : Keeps s₀ s) : Keeps s₀ (readyToWrite s core pl) := .ite h.fillLine (.ite h h.takeToken)

protected theorem performStore {wt : Bool} (h : Keeps s₀ s) : Keeps s₀ (performStore s core pl wt bs) := by
  unfold performStore
  extract_lets k off s₁ s₂
  have h₂ : Keeps s₀ s₂ := h.dropEarly.recallHost.readyToWrite.updLine
    fun _ hl => ⟨(length_overlay ..).trans hl.1, (length_overlay ..).trans hl.2⟩
  split
  · split
    · next e => exact h₂.writeBack (h₂.whole_of_tfind e)
    · exact h₂
  · exact h₂

protected theorem settleStores {p : LateStore → Bool} (h : Keeps s₀ s) : Keeps s₀ (settleStores s p) :=
  foldl (s := { s with lateStores := _ }) { h with } fun _ h _ _ => h.performStore

protected theorem inTurn (h : Keeps s₀ s) : Keeps s₀ (inTurn s core pl) := h.settleStores.dropEarly

protected theorem loadNow {ro : Option Nat} (h : Keeps s₀ s) : Keeps s₀ (loadNow s core pl ro n).1 :=
  .ite h.inTurn.recallHost h.inTurn.recallHost.fillLine

protected theorem loadLine {ro : Option Nat} (h : Keeps s₀ s) : Keeps s₀ (loadLine s core pl ro n).1 := by
  unfold loadLine
  split
  · exact h.dropEarly
  · exact h.loadNow

protected theorem storeLine {wt : Bool} (h : Keeps s₀ s) : Keeps s₀ (storeLine s core pl wt bs) := h.inTurn.performStore
protected theorem issueStore {wt : Bool} (h : Keeps s₀ s) : Keeps s₀ (issueStore s core pl wt bs) := { h with }
protected theorem settleOverdue (h : Keeps s₀ s) : Keeps s₀ (settleOverdue s) := h.settleStores
protected theorem settleCore (h : Keeps s₀ s) : Keeps s₀ (settleCore s core) := { h.settleStores (p := _) with }

/-- Lines of the L1s, as they stood, written back one after the other. -/
theorem writeBackAll {c : Nat × L1Line → Prop} [DecidablePred c] (h : Keeps s₀ s) :
    Keeps s₀ (s.l1.foldl (fun t e => if c e then writeBack t e.1 e.2 else t) s) :=
  h.foldl fun _ ht e he => .ite (ht.writeBack fun g => h.l1 g e he) ht

protected theorem releaseCore (h : Keeps s₀ s) : Keeps s₀ (releaseCore s core) := h.writeBackAll.settlePassing

protected theorem releaseAt {scope : Nat} (h : Keeps s₀ s) : Keeps s₀ (releaseAt s core scope) :=
  .ite h.settleCore.releaseCore (.ite h.settleCore h)

protected theorem acquireAt {scope : Nat} (h : Keeps s₀ s) : Keeps s₀ (acquireAt s core scope) := by
  unfold acquireAt
  extract_lets s₁ s₂
  have h₁ : Keeps s₀ s₁ := .ite { h with } h
  have h₂ : Keeps s₀ s₂ := .ite { h₁ with } h₁
  exact .ite { h₂ with } h₂

protected theorem sweepCore (h : Keeps s₀ s) : Keeps s₀ (sweepCore s core) := by
  refine { h with l1 := fun g => (h.l1 g).filterMap fun e u he hu => ?_ }
  split at hu
  · split at hu
    · cases hu; exact he
    · cases hu
  · split at hu
    · cases hu; exact he
    · cases hu; exact he

protected theorem sweepRdc (h : Keeps s₀ s) : Keeps s₀ (sweepRdc s die) := { h.withoutCopies (p := _) with }

protected theorem homeRead (h : Keeps s₀ s) : Keeps s₀ (homeRead s pl n).1 :=
  .ite h.recallHost (h.recallHost.foldl fun _ h _ _ => h.foldl fun _ h _ _ => h.cleanLine)

protected theorem homeWrite (h : Keeps s₀ s) : Keeps s₀ (homeWrite s pl bs) := by
  unfold homeWrite
  extract_lets lines s₁ s₂ s₃
  have h₂ : Keeps s₀ s₂ := .ite h.recallHost <| h.recallHost.foldl fun _ h _ _ =>
    have hf := h.foldl fun _ h _ _ => h.flushLine
    .ite hf hf.dropRdc
  exact h₂.mendRange.setHome fun w => wf_wrBytes _ _ (h₂.mendRange.homeMem w)

protected theorem dropCopies (h : Keeps s₀ s) : Keeps s₀ (dropCopies s core pl n) := by
  refine h.foldl fun t h line _ => ?_
  extract_lets k l1
  have hl (g : Safety.goodLines s₀ = true) : Every WholeLine l1 := by
    unfold l1
    split
    · next e =>
      have hl := h.whole_of_tfind e g
      split
      · exact (h.l1 g).tput hl
      · exact (h.l1 g).tdel
    · exact h.l1 g
  refine { h with l1 := hl, rdc := fun g => ?_ }
  dsimp only
  split
  · exact h.rdc g
  · exact (h.rdc g).tdel

protected theorem flushPage {page : Nat} (h : Keeps s₀ s) : Keeps s₀ (flushPage s host page) := by
  unfold flushPage
  extract_lets inPage s₁ s₂ s₃ s₄ s₅
  have h₂ : Keeps s₀ s₂ := h.settleStores.foldl fun _ h _ _ => h.flushLine
  clear_value s₂
  have h₄ : Keeps s₀ s₄ := { h₂ with }
  exact .ite h₄ h₄.settlePassing.withoutCopies

protected theorem shootdown {ctx : Nat} (h : Keeps s₀ s) : Keeps s₀ (shootdown s ctx) := by
  unfold shootdown
  extract_lets s₁ s₂
  have h₁ : Keeps s₀ s₁ := h.dropTlbs.settleStores
  have h₂ : Keeps s₀ s₂ := (h₁.foldl fun _ h e he => h.writeBack fun g => h₁.l1 g e he).settlePassing
  clear_value s₂
  exact { h₂ with }

protected theorem shootdownDie (h : Keeps s₀ s) : Keeps s₀ (shootdownDie s die) := by
  unfold shootdownDie
  extract_lets s₁ s₂ s₃
  have h₃ : Keeps s₀ s₃ := h.dropDieTlbs.settleStores.writeBackAll.settlePassing
  clear_value s₃
  exact { h₃ with }

protected theorem flushCore (h : Keeps s₀ s) : Keeps s₀ (flushCore s core) := by
  unfold flushCore
  extract_lets s₁ s₂
  have h₂ : Keeps s₀ s₂ := h.settleCore.foldl fun _ h _ _ => h.flushLine
  clear_value s₂
  exact { h₂ with }

protected theorem arriveAt (h : Keeps s₀ s) : Keeps s₀ (arriveAt s core) := h.flushCore.settlePassing.withoutCopies

protected theorem seenAtHome (h : Keeps s₀ s) : Keeps s₀ (seenAtHome s core pl) := by
  unfold seenAtHome
  split
  · exact h
  · extract_lets line s₁
    have h₁ : Keeps s₀ s₁ := h.inTurn.settleLine
    refine { h₁ with l1 := fun g => ?_, rdc := fun g => ?_ }
    · dsimp only
      split
      · exact (h₁.l1 g).tupd fun _ hl => hl
      · exact h₁.l1 g
    · dsimp only
      split
      · exact (h₁.rdc g).tdel
      · exact h₁.rdc g

protected theorem loseLink {port : Nat} (h : Keeps s₀ s) : Keeps s₀ (loseLink s port) := (h.settleStores.ite h).dropLink

end Caches

/-! ### One instruction of a troupe -/

section Lanes
variable {i : Instr} {f : State → Nat → State × LaneAct}

protected theorem issued (h : Keeps s₀ s) : Keeps s₀ (issued s) := { h with }

protected theorem laneFates {ls : List (Nat × Option LaneAct)} (h : Keeps s₀ s) (hf : ∀ t l, Keeps s₀ t → Keeps s₀ (f t l).1) :
    Keeps s₀ (laneFates f s ls).1 := by
  induction ls generalizing s with
  | nil => exact h
  | cons x r ih =>
    obtain ⟨l, a⟩ := x
    cases a with
    | some a => exact ih h
    | none => exact ih (hf s l h)

protected theorem orderedFates {p : Option Park} {ls : List (Nat × Option LaneAct)} (h : Keeps s₀ s)
    (hf : ∀ t l, Keeps s₀ t → Keeps s₀ (f t l).1) : Keeps s₀ (orderedFates f p s ls).1 := by
  induction ls generalizing s p with
  | nil => cases p <;> exact h
  | cons x r ih =>
    obtain ⟨l, a⟩ := x
    cases a with
    | some a => cases p <;> exact ih h
    | none =>
      cases p with
      | some p => exact ih h
      | none => exact ih (hf s l h)

protected theorem regionPass {b : State} {g : Group} {acts : List (Nat × LaneAct)} (h : Keeps s₀ s) :
    Keeps s₀ (regionPass b g i acts s) :=
  h.foldl fun _ h _ _ => .ite h.updThread h

protected theorem runWord (h : Keeps s₀ s) (hf : ∀ t l, Keeps s₀ t → Keeps s₀ (f t l).1) : Keeps s₀ (runWord i s f) :=
  (h.issued.laneFates hf).applyActs.regionPass

protected theorem runOrdered {chk : Nat → Option LaneAct} (h : Keeps s₀ s) (hf : ∀ t l, Keeps s₀ t → Keeps s₀ (f t l).1) :
    Keeps s₀ (runOrdered i s chk f) :=
  (h.issued.orderedFates hf).applyActs.regionPass

protected theorem runRegs {a : Nat → LaneAct} (h : Keeps s₀ s) : Keeps s₀ (runRegs i s a) := h.runWord fun _ _ h => h

end Lanes

/-! ### One lane's access to memory -/

section Access
variable {i : Instr} {core ck ctx tk p l a n o : Nat} {kind : Kind} {fab : Bool} {op : AccessOp} {bs : List Byte}

protected theorem writeScratch (h : Keeps s₀ s) : Keeps s₀ (writeScratch s ck o bs) :=
  { h with scratch := fun w => wf_wrBytes _ _ (h.scratch w) }

protected theorem scratchAccess (h : Keeps s₀ s) : Keeps s₀ (scratchAccess s ck o n op).1 := by
  refine .ite_fst h ?_
  split
  · exact h
  · cases op with
    | load => exact h
    | store bs => exact h.writeScratch

protected theorem untagWord {q : Nat} (h : Keeps s₀ s) : Keeps s₀ (untagWord s ck q) := h.updThread

protected theorem apertureAccess (h : Keeps s₀ s) : Keeps s₀ (apertureAccess s ck o n op).1 := by
  refine .ite_fst h (.ite_fst h ?_)
  cases op with
  | load => exact h
  | store bs => exact foldl (s := { s with regs := _, badRegs := _ }) { h with } fun _ h _ _ => h.untagWord

protected theorem offsetAccess (h : Keeps s₀ s) : Keeps s₀ (offsetAccess s ck o n op).1 :=
  .ite_fst h.scratchAccess h.apertureAccess

protected theorem walkPages {vas : List Nat} (h : Keeps s₀ s) : Keeps s₀ (walkPages s core ctx kind fab vas).1 := by
  induction vas generalizing s with
  | nil => exact h
  | cons va r ih =>
    refine ih ?_
    split
    · exact h
    · exact h.translate

protected theorem globalPages (h : Keeps s₀ s) : Keeps s₀ (globalPages s core ctx a n kind fab).1 := by
  unfold globalPages
  split
  · next e => exact h.walkPages.fst e
  · next e => exact h.walkPages.fst e
  · next e =>
    have hw := h.walkPages.fst e
    exact .ite_fst hw (.ite_fst hw hw)

protected theorem loadPlaces {ro : Option Nat} {pls : List (Place × Nat)} (h : Keeps s₀ s) : Keeps s₀ (loadPlaces s core ro pls).1 := by
  induction pls generalizing s with
  | nil => exact h
  | cons x r ih => exact ih h.loadLine

protected theorem storePlaces {wt : Bool} {pls : List (Place × Nat)} (h : Keeps s₀ s) : Keeps s₀ (storePlaces s core wt pls bs) := by
  induction pls generalizing s bs with
  | nil => exact h
  | cons x r ih => exact ih h.storeLine

protected theorem issuePlaces {wt : Bool} {pls : List (Place × Nat)} (h : Keeps s₀ s) : Keeps s₀ (issuePlaces s core wt pls bs) := by
  induction pls generalizing s bs with
  | nil => exact h
  | cons x r ih => exact ih h.issueStore

protected theorem globalAccess {hint : Bool} (h : Keeps s₀ s) : Keeps s₀ (globalAccess s ck a n hint op).1 := by
  cases op with
  | load =>
    dsimp only [globalAccess]
    split
    · next e => exact h.globalPages.fst e
    · next e =>
      have hp := h.globalPages.fst e
      exact .ite_fst hp hp.loadPlaces
  | store bs =>
    dsimp only [globalAccess]
    split
    · next e => exact h.globalPages.fst e
    · next e => exact (h.globalPages.fst e).issuePlaces

protected theorem ownAccess {o : Int} (h : Keeps s₀ s) : Keeps s₀ (ownAccess s ck p l o n op).1 := by
  refine .ite_fst h (.ite_fst h ?_)
  cases op with
  | load => exact .ite_fst h h.loadPlaces
  | store bs => exact h.storePlaces

protected theorem regionLoad {r : Region} {d cnt : Nat} {tagged : Bool} (h : Keeps s₀ s) :
    Keeps s₀ (regionLoad s tk r i ck a n d cnt tagged).1 := by
  refine .ite_fst h ?_
  split
  · next e => exact h.globalPages.fst e
  · next e =>
    have hp := h.globalPages.fst e
    refine .ite_fst hp (.ite_fst hp.updThread (.ite_fst hp ?_))
    extract_lets
    split
    · exact hp
    · exact hp.loadNow.updThread

protected theorem regionStore {r : Region} {data : TagRead} {tagged : Bool} (h : Keeps s₀ s) :
    Keeps s₀ (regionStore s tk r i ck a data bs tagged).1 := by
  refine .ite_fst h ?_
  split
  · next e => exact h.globalPages.fst e
  · next e =>
    have hp := h.globalPages.fst e
    refine .ite_fst hp ?_
    extract_lets
    split
    · exact hp
    · exact hp.updThread

end Access

/-! ### Loads, stores, cache control and atomics -/

section Memory
variable {i : Instr} {b : State} {g : Group} {core ck tk l n va scope : Nat} {pl : Place} {first : Bool} {f : DWord → DWord}

protected theorem noteOutside (h : Keeps s₀ s) : Keeps s₀ (noteOutside s tk i) := h.updThread

protected theorem noteOperands {q : State × Access} (h : Keeps s₀ q.1) : Keeps s₀ (noteOperands b tk i q).1 := by
  unfold noteOperands
  split
  · exact h
  · exact .ite_fst h.updThread h

protected theorem globalLane {d a : RegNo} {w : BitVec 3} {hint : BitVec 2} {o : BitVec 6} {op : AccessOp} (h : Keeps s₀ s) :
    Keeps s₀ (globalLane b s i g l d a w hint o op).1 := by
  have hq := h.offsetAccess (ck := g.ck) (o := globalAddr b g l a w o - apertureBase) (n := widthBytes w) (op := op)
    |>.noteOperands (b := b) (tk := g.tk l) (i := i)
  refine .ite_fst h (.ite_fst (.ite_fst hq.noteOutside hq) ?_)
  split
  · exact h.regionLoad
  · exact h.regionStore
  · exact h.globalAccess

protected theorem opAccess {w : BitVec 3} {d : RegNo} {f : State → Nat → State × Access} (h : Keeps s₀ s)
    (hf : ∀ t l, Keeps s₀ t → Keeps s₀ (f t l).1) : KeepsNext s₀ (opAccess i w d f s) :=
  (h.runWord hf).next

protected theorem noteLate {ro : Option Nat} {w : BitVec 3} {d : Nat} {va : Nat → Nat} (h : Keeps s₀ s) :
    Keeps s₀ (noteLate b ro w d va s) := { h with }

protected theorem dropOwnRdc (h : Keeps s₀ s) : Keeps s₀ (dropOwnRdc s core pl) := .ite h h.withoutCopies

protected theorem cwbLine (h : Keeps s₀ s) : Keeps s₀ (cwbLine s core pl) := by
  unfold cwbLine
  extract_lets s₁
  have h₁ : Keeps s₀ s₁ := h.inTurn
  split
  · next e => exact h₁.writeBack (h₁.whole_of_tfind e)
  · exact h₁

protected theorem cinvLine (h : Keeps s₀ s) : Keeps s₀ (cinvLine s core pl) := by
  unfold cinvLine
  extract_lets k s₁ s₂
  have h₁ : Keeps s₀ s₁ := h.inTurn
  have h₂ : Keeps s₀ s₂ := by
    unfold s₂
    split
    · next e =>
      have hl := h₁.whole_of_tfind e
      exact .ite (.ite h₁ { h₁ with l1 := fun g => (h₁.l1 g).tput (hl g) }) h₁.withoutLine
    · exact h₁
  exact h₂.dropOwnRdc

protected theorem cflushLine (h : Keeps s₀ s) : Keeps s₀ (cflushLine s core pl) := h.inTurn.flushLine.dropOwnRdc

protected theorem cacheLane {a : RegNo} {f : State → Nat → Place → State} (h : Keeps s₀ s)
    (hf : ∀ t core pl, Keeps s₀ t → Keeps s₀ (f t core pl)) : Keeps s₀ (cacheLane b s g l a f).1 := by
  refine .ite_fst h (.ite_fst h ?_)
  split
  · next e => exact (h.globalPages.fst e).foldl fun _ h _ _ => hf _ _ _ h
  all_goals next e => exact h.globalPages.fst e

protected theorem prefetchLane {a : RegNo} (h : Keeps s₀ s) : Keeps s₀ (prefetchLane b s g l a).1 := by
  refine .ite_fst h ?_
  split
  · next e => exact (h.globalPages.fst e).foldl fun _ h _ _ => h.fillLine
  · next e => exact h.globalPages.fst e

protected theorem atomNear (h : Keeps s₀ s) : Keeps s₀ (atomNear s core pl n f).1 := by
  unfold atomNear
  extract_lets s₁ q v
  have h₁ : Keeps s₀ s₁ := .ite h h.readyToWrite
  exact .pair h₁.loadNow.storeLine

protected theorem farReady (h : Keeps s₀ s) : Keeps s₀ (farReady s core pl n) :=
  .ite h.inTurn.recallHost.flushLine.dropOwnRdc.settleLine (h.inTurn.recallHost.foldl fun _ h _ _ => h.flushLine).dropRdc

/-- A value written to device memory. -/
theorem wrNat {a v : Nat} (h : Keeps s₀ s) : Keeps s₀ { s with dmem := wrNat s.dmem a n v } :=
  { h with dmem := fun w => wf_wrNat _ _ _ (h.dmem w) }

protected theorem atomFar (h : Keeps s₀ s) : Keeps s₀ (atomFar s core pl n f).1 := h.farReady.wrNat

protected theorem performAtomic (h : Keeps s₀ s) : Keeps s₀ (performAtomic s core pl scope n first f).1 := by
  have hp (c : Nat) : Keeps s₀ (if first then { s with dirPred := tset 0 s.dirPred (pl.pa / 512) c } else s) := .ite { h with } h
  exact .ite_fst (.ite_fst h.atomNear h.atomFar) (.ite_fst h.atomNear (.ite_fst (hp _).atomNear (hp _).atomFar))

protected theorem scratchAtomic {o : Nat} (h : Keeps s₀ s) : Keeps s₀ (scratchAtomic s ck o n f).1 := by
  refine .ite_fst h ?_
  split
  · next e => exact (h.scratchAccess.fst e).writeScratch
  · next e => exact h.scratchAccess.fst e

protected theorem atomicLane (h : Keeps s₀ s) : Keeps s₀ (atomicLane s ck va scope n first f).1 := by
  refine .ite_fst h (.ite_fst h (.ite_fst h.scratchAtomic ?_))
  split
  · next e => exact h.globalPages.fst e
  · next e =>
    have hp := h.globalPages.fst e
    exact .ite_fst hp hp.performAtomic

protected theorem opAtomic {op : Nat} {wide : Bool} {d a b : BitVec 6} {c : BitVec 3} (h : Keeps s₀ s) :
    KeepsNext s₀ (opAtomic i op wide d a b c s) :=
  (h.runWord fun _ _ h => h.atomicLane).next

end Memory

/-! ### Fetching -/

section Fetch
variable {core tk : Nat} {g : Group}

protected theorem fetchCode {pl : Place} (h : Keeps s₀ s) : Keeps s₀ (fetchCode s core pl).1 := by
  unfold fetchCode
  split
  · exact h
  · exact .ite_fst h.homeRead (.ite_fst h.homeRead { h.homeRead with })

protected theorem fetchWord (h : Keeps s₀ s) : Keeps s₀ (fetchWord s g).1 := by
  refine .ite_fst h (.ite_fst h.draw ?_)
  split
  · next e =>
    have ht := h.translate.fst e
    exact .ite_fst ht ht.fetchCode
  all_goals next e => exact h.translate.fst e

protected theorem fetchFault {c : Cause} {pc : DWord} (h : Keeps s₀ s) : Keeps s₀ (fetchFault s tk c pc) := .ite h.toReconciler h.trapAt

protected theorem failFetch {f : Fetched} (h : Keeps s₀ s) : Keeps s₀ (failFetch s g f) := by
  have hi : Keeps s₀ { s with issue := none } := { h with }
  cases f with
  | word w => exact h
  | park => exact hi.foldl fun _ h _ _ => h.updThread
  | fault c => exact hi.foldl fun _ h _ _ => h.fetchFault

protected theorem execIllegalWord {w : Word} (h : Keeps s₀ s) : KeepsNext s₀ (execIllegalWord w s) :=
  (h.issued.foldl fun _ h _ _ => h.trapAt).next

end Fetch

/-! ### Marks -/

section Marks
variable {id : Nat}

protected theorem setEntry {e : Entry} (h : Keeps s₀ s) : Keeps s₀ (setEntry s id e) := { h with }
protected theorem updEntry {f : Entry → Entry} (h : Keeps s₀ s) : Keeps s₀ (updEntry s id f) := { h with }

protected theorem putMark {m : Mark} (h : Keeps s₀ s) : Keeps s₀ (putMark s id m) := by
  unfold putMark
  extract_lets sq s₁
  have h₁ : Keeps s₀ s₁ := h.recallHost
  clear_value s₁
  exact { h₁ with dmem := fun w => wf_wrBytes _ _ (h₁.dmem w) }

protected theorem writeMark {quiet : Bool} {m : Mark} (h : Keeps s₀ s) : Keeps s₀ (writeMark s id quiet m) :=
  .ite h.setEntry h.setEntry.putMark

variable {st : MarkState} {step reason done total k : Nat}

protected theorem markAs (h : Keeps s₀ s) : Keeps s₀ (markAs s id st step reason done total) := h.writeMark
protected theorem progressMark (h : Keeps s₀ s) : Keeps s₀ (progressMark s id st step reason done total) := .ite h.markAs h

protected theorem partMarks (h : Keeps s₀ s) : Keeps s₀ (partMarks s id st step reason k total) :=
  h.markAs.foldl fun _ h _ _ => h.progressMark

protected theorem stepMarks (h : Keeps s₀ s) : Keeps s₀ (stepMarks s id st step reason total) := h.partMarks

end Marks

/-! ### Control -/

section Control
variable {b : State} {g : Group} {ck p l n : Nat} {v : Word}

protected theorem setWindow (h : Keeps s₀ s) : Keeps s₀ (setWindow b s g l v).1 := .ite_fst h.updThread h
protected theorem latchCw (h : Keeps s₀ s) : Keeps s₀ (latchCw b s g l n) := .ite h.updThread (.ite h.updThread h)
protected theorem sendSignal (h : Keeps s₀ s) : Keeps s₀ (sendSignal s g l v) := h.foldl fun _ h _ _ => h.updThread

protected theorem writeCw {i : Instr} (h : Keeps s₀ s) : Keeps s₀ (writeCw b s i g l n v).1 := by
  refine .ite_fst h (.ite_fst h.updThread ?_)
  split
  any_goals exact h.updThread
  · exact h.setWindow
  · exact h.sendSignal
  · exact h

protected theorem endThread (h : Keeps s₀ s) : Keeps s₀ (endThread s ck p l) := by
  unfold endThread
  extract_lets m s₁ s₂ s₃ u
  have h₁ : Keeps s₀ s₁ := h.foldl fun _ h _ _ => h.strikeMask
  clear_value s₁
  have h₂ : Keeps s₀ s₂ := { h₁ with }
  have h₃ : Keeps s₀ s₃ := h₂.updTroupe
  exact .ite { h₃ with } h₃

protected theorem takeSlot {entry : DWord} {timer : Nat} {sl : Slot} (h : Keeps s₀ s) (e : takeSlot s ck entry timer sl = some t) :
    Keeps s₀ t := by
  unfold takeSlot at e
  extract_lets core at e
  split at e
  · cases e; exact { h with }
  · split at e
    · cases e; exact { h with }
    · cases e

protected theorem spawnLane {d a : RegNo} {c : Nat} (h : Keeps s₀ s) : Keeps s₀ (spawnLane b s g d a c l).1 := by
  unfold spawnLane
  extract_lets
  split
  · next e => exact (h.takeSlot e).settleCore
  · exact h

protected theorem execExit {m : Bool} (h : Keeps s₀ s) : KeepsNext s₀ (execExit m s) :=
  next (h.runWord fun _ _ h => .ite_fst (.pair h.endThread) h)

protected theorem execYield {m : Bool} (h : Keeps s₀ s) : KeepsNext s₀ (execYield m s) := by
  unfold execYield
  extract_lets s₁
  have h₁ : Keeps s₀ s₁ := h.runRegs
  clear_value s₁
  exact next { h₁ with }

protected theorem execEret {m : Bool} (h : Keeps s₀ s) : KeepsNext s₀ (execEret m s) :=
  (h.runWord fun _ _ h => .ite_fst h.updThread h).next

end Control

/-! ### Synchronisation -/

section Sync
variable {i : Instr} {g : Group} {core ck ctx n va scope owner o : Nat} {pl : Place} {cb : ControlBlock}

protected theorem acquireOnce (h : Keeps s₀ s) : Keeps s₀ (acquireOnce s core scope) := .ite h h.acquireAt

protected theorem opAcquire {f : State → Nat → State × LaneAct} (h : Keeps s₀ s) (hf : ∀ t l, Keeps s₀ t → Keeps s₀ (f t l).1) :
    KeepsNext s₀ (opAcquire i scope f s) :=
  next (.ite h.runRegs (h.runWord hf))

protected theorem setBar {b : BarObj} (h : Keeps s₀ s) : Keeps s₀ (setBar s owner o b) := h.writeScratch

protected theorem arriveLane {w : Word} {fin : Nat → LaneAct} (h : Keeps s₀ s) : Keeps s₀ (arriveLane s i owner o w fin).1 := by
  unfold arriveLane
  split
  · exact h
  · split
    · exact h
    · exact h.setBar

protected theorem opRelease {f : State → Nat → State × LaneAct} (h : Keeps s₀ s) (hf : ∀ t l, Keeps s₀ t → Keeps s₀ (f t l).1) :
    KeepsNext s₀ (opRelease i scope f s) :=
  (h.runWord fun _ _ h => hf _ _ h.releaseAt).next

protected theorem completeOn {tl num : Nat} {holds : Bool} (h : Keeps s₀ s) : Keeps s₀ (completeOn s ck tl num holds) :=
  .ite h.setTimeline h

protected theorem notePushOne {v : Word} (h : Keeps s₀ s) : Keeps s₀ (notePushOne s ck n v) := .ite h.writeScratch.writeScratch { h with }
protected theorem notePopOne (h : Keeps s₀ s) : Keeps s₀ (notePopOne s ck n).1 := .ite_fst h.writeScratch { h with }

protected theorem homePage {kind : Kind} (h : Keeps s₀ s) : Keeps s₀ (homePage s core ctx va n kind).1 := by
  unfold homePage
  split <;> next e => exact h.globalPages.fst e

protected theorem claim {idx : Nat} (h : Keeps s₀ s) : Keeps s₀ (claim s core idx cb pl).1 :=
  have hc : Keeps s₀ { s with cbs := tput s.cbs idx { cb with head := (cb.head + 1) % 2 ^ 64 } } := { h with }
  hc.releaseAt.homeWrite.dropCopies

protected theorem pointRead (h : Keeps s₀ s) : Keeps s₀ (pointRead s core pl n).1 := .ite_fst h.loadNow h.seenAtHome.homeRead
protected theorem pointLoad (h : Keeps s₀ s) : Keeps s₀ (pointLoad s core va pl n).1 := .ite_fst h h.pointRead

protected theorem tailSeen (h : Keeps s₀ s) : Keeps s₀ (tailSeen s core ctx cb).1 := by
  refine .ite_fst h ?_
  split
  · next e => exact h.homePage.fst e
  · next e =>
    have hp := h.homePage.fst e
    split <;> next e => exact hp.pointLoad.fst e

protected theorem qtakeLane {owed : Nat → Bool} {d : RegNo} {idx : Nat} (h : Keeps s₀ s) : Keeps s₀ (qtakeLane owed s g d idx).1 := by
  refine .ite_fst h ?_
  split
  · exact h
  · refine .ite_fst h (.ite_fst h (.ite_fst h ?_))
    split
    · next e => exact h.tailSeen.fst e
    · next e =>
      have ht := h.tailSeen.fst e
      refine .ite_fst ht (.ite_fst ht ?_)
      split
      · next e => exact ht.homePage.fst e
      · next e => exact (ht.homePage.fst e).claim.acquireOnce

protected theorem monitorLane {d : RegNo} {cond : Word → Bool} (h : Keeps s₀ s) : Keeps s₀ (monitorLane s g d va cond).1 := by
  refine .ite_fst h (.ite_fst h (.ite_fst ?_ ?_))
  · split <;> next e => exact h.offsetAccess.fst e
  · split
    · next e => exact h.homePage.fst e
    · next e =>
      have hp := h.homePage.fst e
      split <;> next e => exact hp.pointLoad.fst e

protected theorem opMonitor {d a b : RegNo} {cond : Word → Word → Bool} (h : Keeps s₀ s) : KeepsNext s₀ (opMonitor i d a b cond s) :=
  (h.runWord fun _ _ h => h.monitorLane).next

protected theorem execBarwait {m : Bool} {d a : RegNo} {c : BitVec 1} (h : Keeps s₀ s) : KeepsNext s₀ (execBarwait m d a c s) := by
  refine h.opAcquire fun t l ht => ?_
  dsimp only
  split
  · exact ht
  · exact .ite_fst ht.acquireOnce ht

protected theorem execBarinit {m : Bool} {d a : RegNo} {c : BitVec 1} (h : Keeps s₀ s) : KeepsNext s₀ (execBarinit m d a c s) := by
  refine next (h.runWord fun t l ht => ?_)
  extract_lets owner o n slots u
  split
  · exact ht
  · have hu : Keeps s₀ u := .ite ht ht.updCls
    exact .ite_fst ht (.ite_fst ht hu.setBar)

protected theorem execQpush {m : Bool} {a : RegNo} {n : BitVec 4} (h : Keeps s₀ s) : KeepsNext s₀ (execQpush m a n s) := by
  unfold execQpush
  extract_lets i g q s₁
  have h₁ : Keeps s₀ s₁ := .ite h h.releaseAt
  exact (h₁.runOrdered fun _ _ h => .ite_fst h h.notePushOne).next

protected theorem execQpop {m : Bool} {d : RegNo} {n : BitVec 4} (h : Keeps s₀ s) : KeepsNext s₀ (execQpop m d n s) :=
  .ite h.runRegs.next (h.runOrdered fun _ _ h => .ite_fst h h.notePopOne.acquireOnce).next

protected theorem execQtake {m : Bool} {d a : RegNo} (h : Keeps s₀ s) : KeepsNext s₀ (execQtake m d a s) :=
  ((h.runWord fun _ _ h => h.qtakeLane).foldl fun _ h _ _ => h.updThread).next

end Sync

/-! ### Copies, fabric operations and FETCHW -/

section Engine
variable {i : Instr} {b : State} {g : Group} {core ck ctx va l : Nat} {ls : List Nat} {d a : RegNo}

protected theorem holdLines (h : Keeps s₀ s) : Keeps s₀ (holdLines s ck ls) := { h with }
protected theorem freeLines (h : Keeps s₀ s) : Keeps s₀ (freeLines s ck ls) := { h with }

protected theorem copyLane (h : Keeps s₀ s) : Keeps s₀ (copyLane b s g d a l).1 := by
  refine .ite_fst h (.ite_fst h ?_)
  extract_lets q s₁ rq
  have h₁ : Keeps s₀ s₁ := h.settleCore.setTimeline.holdLines
  clear_value s₁
  exact { h₁ with }

protected theorem opCopy {kind : Nat} (h : Keeps s₀ s) : KeepsNext s₀ (opCopy i kind d a s) :=
  (h.runOrdered fun _ _ h => h.copyLane).next

protected theorem remoteLeaf {kind : Kind} {rva : Nat} (h : Keeps s₀ s) : Keeps s₀ (remoteLeaf s core ctx va kind rva).1 := by
  unfold remoteLeaf
  split <;> next e => exact h.translate.fst e

protected theorem fabWindow {blk : FabBlock} (h : Keeps s₀ s) : Keeps s₀ (fabWindow s core ctx blk).1 := by
  unfold fabWindow
  split
  · next e => exact h.remoteLeaf.fst e
  · next e =>
    have hr := h.remoteLeaf.fst e
    extract_lets q
    have hq : Keeps s₀ q.1 := .ite_fst hr.remoteLeaf hr
    clear_value q
    split
    · exact hq
    · split
      · exact .ite_fst hq hq
      · exact hq

protected theorem fabLane (h : Keeps s₀ s) : Keeps s₀ (fabLane b s g d a l).1 := by
  refine .ite_fst h ?_
  split
  · next e => exact h.fabWindow.fst e
  · next e =>
    have hw := h.fabWindow.fst e
    extract_lets q n s₁ op
    have h₁ : Keeps s₀ s₁ := hw.settleCore.setTimeline.holdLines
    clear_value s₁
    exact { h₁ with }

protected theorem opFabric {kind : Nat} (h : Keeps s₀ s) : KeepsNext s₀ (opFabric i kind d a s) :=
  (h.runOrdered fun _ _ h => h.fabLane).next

protected theorem fetchwLane (h : Keeps s₀ s) : Keeps s₀ (fetchwLane b s g d a l).1 :=
  .ite_fst h (.pair (Keeps.updUsher (.ite h.draw.writeScratch h)))

end Engine

/-! ### The matrix unit -/

section Matrix
variable {i : Instr} {core ck slate : Nat} {a : Act}

protected theorem acceptLoop {fa fb count : Nat} {w : Word} {h0 : Bool} (h : Keeps s₀ s) :
    Keeps s₀ (acceptLoop s ck slate fa fb w count h0) := h.setTimeline.setMatrix

protected theorem pushAct {k : ActKind} {ls : List Nat} {h0 : Bool} (h : Keeps s₀ s) : Keeps s₀ (pushAct s ck slate k ls h0) := h.setMatrix

protected theorem opTicket {chk : Nat → Option LaneAct} {k : List Nat → ActKind} {fate : Nat → LaneAct} (h : Keeps s₀ s) :
    KeepsNext s₀ (opTicket i slate chk k fate s) :=
  next (.ite h.runRegs h.runRegs.pushAct)

protected theorem fillLanes {f : Nat → List Word} (h : Keeps s₀ s) : Keeps s₀ (fillLanes s a f) := h.foldl fun _ h _ _ => h.updThread
protected theorem clearRequests {f n : Nat} (h : Keeps s₀ s) : Keeps s₀ (clearRequests s ck f n) := { h with }

protected theorem doAct (h : Keeps s₀ s) : Keeps s₀ (doAct s core ck a) := by
  unfold doAct
  extract_lets
  split
  · exact h.setMatrix
  · exact h.setMatrix.fillLanes
  · exact h.setMatrix
  · exact h.setMatrix.fillLanes
  · exact h.setMatrix.clearRequests

protected theorem execMloop {m : Bool} {n : BitVec 3} {x y : BitVec 2} {a b : RegNo} (h : Keeps s₀ s) :
    KeepsNext s₀ (execMloop m n x y a b s) := by
  unfold execMloop
  extract_lets
  split
  · exact h.runRegs.next
  · exact .ite h.runRegs.next h.runRegs.acceptLoop.next

protected theorem execSlevt {m : Bool} {d : RegNo} (h : Keeps s₀ s) : KeepsNext s₀ (execSlevt m d s) :=
  next (.ite h.runRegs h.runRegs.setMatrix)

end Matrix

/-! ### Atomic regions -/

section Region
variable {b : State} {g : Group} {core ctx tk l : Nat} {r : Region}

protected theorem openRegion {d : RegNo} {pc : DWord} (h : Keeps s₀ s) : Keeps s₀ (openRegion b s g l d pc) := h.updThread

protected theorem placeNow {va pa : Nat} {host : Bool} (h : Keeps s₀ s) : Keeps s₀ (placeNow s core ctx va host pa).1 := by
  unfold placeNow
  split <;> next e => exact h.translate.fst e

protected theorem storePagesOf {bs : List BufStore} (h : Keeps s₀ s) : Keeps s₀ (storePagesOf s core ctx bs).1 := by
  induction bs generalizing s with
  | nil => exact h
  | cons b r ih =>
    unfold storePagesOf
    split
    · next e => exact h.globalPages.fst e
    · next e =>
      have hr := ih (h.globalPages.fst e)
      split <;> next e => exact hr.fst e

protected theorem placesNow {xs : List (Nat × Bool × Nat)} (h : Keeps s₀ s) : Keeps s₀ (placesNow s core ctx xs).1 := by
  induction xs generalizing s with
  | nil => exact h
  | cons x r ih => exact ih h.placeNow

protected theorem takeTokens {pls : List Place} (h : Keeps s₀ s) : Keeps s₀ (takeTokens s core pls) :=
  h.foldl fun _ h _ _ => .ite h.inTurn h.inTurn.takeToken

protected theorem giveTokens {pls : List Place} (h : Keeps s₀ s) : Keeps s₀ (giveTokens s core pls) :=
  h.foldl fun _ h _ _ => h.updLine fun _ hl => hl

protected theorem repairRegs {fresh : List DWord} {tags : List (Nat × Tag)} (h : Keeps s₀ s) : Keeps s₀ (repairRegs s tk fresh tags) :=
  h.foldl fun _ h _ _ => h.writeDest

protected theorem closeRegion {pls : List Place} {stores : List (Place × BufStore)} {repair : Option (List DWord)} {w : Word}
    (h : Keeps s₀ s) : Keeps s₀ (closeRegion s tk core r pls stores repair w) := by
  have hg : Keeps s₀ (giveTokens (stores.foldl (fun s x => storeLine s core x.1 false (repairedData repair x.2)) s) core pls) :=
    (h.foldl fun _ h _ _ => h.storeLine).giveTokens
  cases repair with
  | none => exact hg.updThread.writeStatus
  | some fresh => exact hg.repairRegs.updThread.writeStatus

protected theorem commitLane (h : Keeps s₀ s) : Keeps s₀ (commitLane s g l r).1 := by
  unfold commitLane
  extract_lets tk core ctx
  split
  · next e => exact h.storePagesOf.fst e
  · next e =>
    have hs := h.storePagesOf.fst e
    extract_lets p q lines u now ch fresh
    have hq : Keeps s₀ q.1 := hs.placesNow.placesNow
    have hu : Keeps s₀ u := hq.takeTokens
    split
    · exact hq
    · refine .ite_fst (.pair hu.closeRegion) (.ite_fst hu ?_)
      split
      · exact hu
      · exact .pair hu.closeRegion

protected theorem execAtbeg {m : Bool} {d : RegNo} {o : BitVec 11} (h : Keeps s₀ s) : KeepsNext s₀ (execAtbeg m d o s) :=
  next (h.runWord fun _ _ h => .ite_fst h (.ite_fst h h.openRegion))

protected theorem execAtend {m : Bool} (h : Keeps s₀ s) : KeepsNext s₀ (execAtend m s) := by
  refine next (h.runWord fun t l ht => .ite_fst ht ?_)
  split
  · exact ht.commitLane
  · exact ht

end Region

/-! ### Time, what may happen at any time, and the end of waits -/

section Sched
variable {core ck p tk n m bin : Nat}

theorem mem_of_mem_keepBits {α : Type} {n : Nat} {l : List α} {x : α} (h : x ∈ keepBits n l) : x ∈ l := by
  obtain ⟨⟨k, y⟩, hy, e⟩ := List.mem_filterMap.1 h
  dsimp only at e
  split at e
  · cases e
  · cases e; exact (List.of_mem_zip hy).2

protected theorem passTime (h : Keeps s₀ s) : Keeps s₀ (passTime s n m) := { h with }

protected theorem readAhead (h : Keeps s₀ s) : Keeps s₀ (readAhead s core n) := by
  unfold readAhead
  extract_lets ts
  split
  · exact h
  · exact .ite h { h.loadNow with }

protected theorem performLate {e : LateLoad} (h : Keeps s₀ s) : Keeps s₀ (performLate s e) := by
  have hl (x : List LateLoad) : Keeps s₀ { (loadPlaces s e.core e.ro e.pls).1 with lateLoads := x } := { h.loadPlaces with }
  exact .ite h (.ite { h with } (hl _).updThread)

protected theorem performSome (h : Keeps s₀ s) : Keeps s₀ (performSome s n m) :=
  (h.foldl fun _ h _ _ => h.performLate).foldl fun _ h _ _ => h.settleStores

protected theorem arrivals (h : Keeps s₀ s) : Keeps s₀ (arrivals s n) := h.foldl fun _ h _ _ => h.landPassing

protected theorem evictFree (h : Keeps s₀ s) : Keeps s₀ (evictFree s) := by
  unfold evictFree
  extract_lets a b c d e f i j s₁ s₂ s₃
  have hj : Keeps s₀ j.2 := h.draw.draw.draw.draw.draw.draw.draw.draw
  have h₂ : Keeps s₀ s₂ := hj.performSome.foldl fun _ h _ _ => h.evictLine
  clear_value s₂
  have h₃ : Keeps s₀ s₃ := { h₂ with rdc := fun g x hx => h₂.rdc g x (mem_of_mem_keepBits hx) }
  exact h₃.arrivals.readAhead

protected theorem execIssueSelect {sec : Nat} (h : Keeps s₀ s) : KeepsNext s₀ (execIssueSelect core sec s) := by
  refine .ite h.next ?_
  split
  · exact h.next
  · next g _ =>
    extract_lets c c' s₁
    have h₁ : Keeps s₀ s₁ := h.foldl fun _ h _ _ => h.updThread
    clear_value s₁
    exact next { h₁ with }

protected theorem writeResult {q : Nat} (h : Keeps s₀ s) : Keeps s₀ (writeResult s q tk) := by
  unfold writeResult
  split
  · exact h
  · exact .ite h (h.foldl fun _ h _ _ => h.writeDests).updThread

protected theorem writeDeferred (h : Keeps s₀ s) : Keeps s₀ (writeDeferred s tk n) := by
  unfold writeDeferred
  split
  · exact h
  · exact .ite h (h.foldl fun _ h _ _ => h.writeResult)

protected theorem becomesReady {f : Thread → Thread} (h : Keeps s₀ s) : Keeps s₀ (becomesReady s tk f) := h.updThread

protected theorem reissue {ok : Nat → Thread → Bool} (h : Keeps s₀ s) : Keeps s₀ (reissue s tk ok) :=
  h.foldl fun _ h _ _ => h.becomesReady

protected theorem endBarWait {owner o j scope : Nat} (h : Keeps s₀ s) : Keeps s₀ (endBarWait s tk owner o j scope) :=
  .ite h (h.acquireOnce.foldl fun _ h _ _ => h.becomesReady)

protected theorem endMarkers (h : Keeps s₀ s) : Keeps s₀ (endMarkers s tk) := h.foldl fun _ h _ _ => h.becomesReady

protected theorem endTrapWait (h : Keeps s₀ s) : Keeps s₀ (endTrapWait s tk) := by
  unfold endTrapWait
  split
  · exact h.enterTrap.becomesReady
  · exact h

protected theorem execLaneWake (h : Keeps s₀ s) : KeepsNext s₀ (execLaneWake tk s) := by
  unfold execLaneWake
  split
  · exact h.next
  · refine .ite h.next (.ite h.endMarkers.next ?_)
    split
    · exact next (h.foldl fun _ h _ _ => h.endTrapWait)
    · exact h.endBarWait.next
    · exact next (.ite h.reissue h)

protected theorem execMonitorFire (h : Keeps s₀ s) : KeepsNext s₀ (execMonitorFire tk s) := next (.ite h.reissue h)

protected theorem execTranslationFaultResolve (h : Keeps s₀ s) : KeepsNext s₀ (execTranslationFaultResolve tk s) := by
  unfold execTranslationFaultResolve
  split
  · exact .ite h.next (.ite h.reissue.next (.ite h.next
      (next (Keeps.becomesReady (.ite h.updThread.fetchFault h.updThread.trapAt)))))
  · exact h.next

protected theorem execPageWalk {die ctx va kind : Nat} (h : Keeps s₀ s) : KeepsNext s₀ (execPageWalk die ctx va kind s) :=
  next (.ite h.walkFill h)

protected theorem execPhaseSweep (h : Keeps s₀ s) : KeepsNext s₀ (execPhaseSweep n s) :=
  next (.ite h (.ite (.ite h.sweepCore h) (.ite h.sweepRdc h)))

protected theorem execSignalDelivery (h : Keeps s₀ s) : KeepsNext s₀ (execSignalDelivery tk s) := by
  unfold execSignalDelivery
  split
  · exact h.next
  · refine .ite h.next ?_
    extract_lets v s₁ s₂
    have h₁ : Keeps s₀ s₁ := by
      unfold s₁
      split
      · exact h.unarrive
      · exact h
    exact h₁.updThread.trapAt.becomesReady.next

protected theorem tailAt {x : Nat × ControlBlock} (h : Keeps s₀ s) : Keeps s₀ (tailAt s x).1 := by
  unfold tailAt
  split
  · next e => exact .ite_fst (h.walkFill.fst e) (h.walkFill.fst e).homeRead
  · next e => exact h.walkFill.fst e

protected theorem sampleQueue {x : Nat × ControlBlock} (h : Keeps s₀ s) : Keeps s₀ (sampleQueue s x) := by
  unfold sampleQueue
  split
  · next e => exact { h.tailAt.fst e with }
  · next e => exact h.tailAt.fst e

protected theorem execTickBoundary {ctx : Nat} (h : Keeps s₀ s) : KeepsNext s₀ (execTickBoundary ctx s) := by
  refine .ite h.next ?_
  extract_lets s₁ s₂ tks s₃
  have h₁ : Keeps s₀ s₁ := { h with }
  have h₃ : Keeps s₀ s₃ := (h₁.foldl fun _ h _ _ => h.sampleQueue).foldl fun _ h _ _ => h.becomesReady
  clear_value s₃
  exact next { h₃ with }

protected theorem clearLane (h : Keeps s₀ s) : Keeps s₀ (clearLane s ck p n) := h.restoreRegs

protected theorem zeroRange {a : Nat} (h : Keeps s₀ s) : Keeps s₀ (zeroRange s a n) :=
  { h with dmem := fun w => wf_filter _ (h.dmem w), l1 := fun g => (h.l1 g).filter, rdc := fun g => (h.rdc g).filter }

protected theorem clearSegment (h : Keeps s₀ s) : Keeps s₀ (clearSegment s ck p) := h.zeroRange

protected theorem startSpawned {entry : DWord} {k : Nat} {sl : Slot} (h : Keeps s₀ s) : Keeps s₀ (startSpawned s ck p entry k sl) :=
  h.clearLane.setThread.foldl fun _ h _ _ => h.writeDest

protected theorem launchBin (h : Keeps s₀ s) : Keeps s₀ (launchBin s bin) := by
  refine .ite h ?_
  split
  · exact h
  · next b _ =>
    split
    · exact h
    · next q _ =>
      extract_lets orders lanes tr s₁ s₂
      have h₁ : Keeps s₀ s₁ := Keeps.clearSegment (s := { s with troupes := _, bins := _, ended := _ }) { h with }
      exact h₁.acquireAt.foldl fun _ h _ _ => h.startSpawned

protected theorem execBinTimerExpire (h : Keeps s₀ s) : KeepsNext s₀ (execBinTimerExpire bin s) :=
  next (.ite (Keeps.launchBin (s := { s with bins := _ }) { h with }) h)

end Sched

/-! ### The engines: copies -/

section Copies
variable {core die ck ctx va x n dst req : Nat} {k : Kind} {m : Met} {bs : List Byte} {r : Request}

protected theorem condemn {rid reason : Nat} (h : Keeps s₀ s) : Keeps s₀ (condemn s rid reason) := h.updResident

protected theorem engineWalk (h : Keeps s₀ s) : Keeps s₀ (engineWalk s die ctx va k).1 := by
  refine .ite_fst h ?_
  split
  · exact h
  · exact h.walkFill

protected theorem engineMeets (h : Keeps s₀ s) : Keeps s₀ (engineMeets s die ck va n k).1 := by
  refine .ite_fst h ?_
  split <;> exact h.engineWalk.fst ‹_›

protected theorem engineRead (h : Keeps s₀ s) : Keeps s₀ (engineRead s ck n m).1 := by
  cases m with
  | place pl => exact h.homeRead
  | _ => exact h

protected theorem engineWrite (h : Keeps s₀ s) : Keeps s₀ (engineWrite s core ck bs m) := by
  cases m with
  | place pl => exact h.homeWrite.dropCopies
  | scratch o => exact h.writeScratch
  | _ => exact h

protected theorem appendFifo {f : Nat} (h : Keeps s₀ s) : Keeps s₀ (appendFifo s core f bs) := h.setMatrix
protected theorem destMeets (h : Keeps s₀ s) : Keeps s₀ (destMeets s r dst n).1 := .ite_fst h h.engineMeets

protected theorem moveRun (h : Keeps s₀ s) : Keeps s₀ (moveRun s r x n).1 := by
  unfold moveRun
  extract_lets core
  split
  · exact h.engineMeets.fst ‹_›
  · exact h.engineMeets.fst ‹_›
  · have hm := h.engineMeets.fst ‹_›
    split
    · exact hm.destMeets.fst ‹_›
    · exact hm.destMeets.fst ‹_›
    · have hd := hm.destMeets.fst ‹_›
      split
      · exact hd.engineRead.fst ‹_›
      · exact (hd.engineRead.fst ‹_›).engineWrite

protected theorem wordPieces (h : Keeps s₀ s) : Keeps s₀ (wordPieces s r x n).1 := by
  induction n generalizing s x with
  | zero => exact h
  | succ n ih =>
    unfold wordPieces
    split
    · exact h.engineMeets.fst ‹_›
    · exact h.engineMeets.fst ‹_›
    · have hm := h.engineMeets.fst ‹_›
      split
      · exact hm.destMeets.fst ‹_›
      · exact hm.destMeets.fst ‹_›
      · have hd := hm.destMeets.fst ‹_›
        split
        · exact hd.engineRead.fst ‹_›
        · have hr := ih (x := x + 1) (hd.engineRead.fst ‹_›)
          split
          · exact hr.fst ‹_›
          · exact hr

protected theorem moveWords (h : Keeps s₀ s) : Keeps s₀ (moveWords s r).1 := by
  refine .ite_fst h.moveRun (.ite_fst h.moveRun ?_)
  split
  · next e => exact h.wordPieces.fst e
  · next e => exact (h.wordPieces.fst e).foldl fun _ h _ _ => h.engineWrite

protected theorem warmLine {dest : Nat} {pl : Place} (h : Keeps s₀ s) : Keeps s₀ (warmLine s core dest pl) := by
  refine .ite h ?_
  extract_lets u
  have hu : Keeps s₀ u := h.recallHost
  exact (Keeps.fetchLine (.ite hu hu.recallForRead)).1

protected theorem movePiece (h : Keeps s₀ s) : Keeps s₀ (movePiece s r).1 := by
  refine .ite_fst h.moveWords (.ite_fst h ?_)
  split
  · exact h.engineMeets.fst ‹_›
  · exact h.engineMeets.fst ‹_›
  · have hm := h.engineMeets.fst ‹_›
    refine .ite_fst ?_ ?_
    · split
      · exact hm.engineRead.fst ‹_›
      · exact (hm.engineRead.fst ‹_›).appendFifo
    · split
      · exact .ite hm hm.warmLine
      · exact hm

protected theorem updReq {f : Request → Request} (h : Keeps s₀ s) : Keeps s₀ (updReq s req f) := { h with }

protected theorem moveBytes (h : Keeps s₀ s) : Keeps s₀ (moveBytes req n s) := by
  induction n generalizing s with
  | zero => exact h
  | succ n ih =>
    unfold moveBytes
    split
    · exact h
    · refine .ite h.updReq ?_
      split <;> have hp := h.movePiece.fst ‹_›
      · exact ih hp.updReq
      · exact hp
      · exact hp.condemn
      · exact .ite hp.updReq (ih hp.updReq)
      · exact .ite hp.condemn (ih hp.updReq)

protected theorem readTable (h : Keeps s₀ s) : Keeps s₀ (readTable s r n).1 := by
  induction n with
  | zero => exact h
  | succ n ih =>
    unfold readTable
    split
    · exact ih.fst ‹_›
    · have hr := ih.fst ‹_›
      extract_lets va
      split
      · exact hr.engineMeets.fst ‹_›
      · exact hr.engineMeets.fst ‹_›
      · have hm := hr.engineMeets.fst ‹_›
        split
        · exact hm.engineRead.fst ‹_›
        · exact hm.engineRead.fst ‹_›

protected theorem beginReq (h : Keeps s₀ s) : Keeps s₀ (beginReq s req r) := by
  unfold beginReq
  split
  · exact (h.readTable.fst ‹_›).updReq
  · have hr := h.readTable.fst ‹_›
    exact .ite hr.condemn hr.updReq
  · exact (h.readTable.fst ‹_›).updReq
  · exact (h.readTable.fst ‹_›).condemn
  · exact h.readTable.fst ‹_›

protected theorem execCopyRequestStart (h : Keeps s₀ s) : KeepsNext s₀ (execCopyRequestStart req s) := by
  unfold execCopyRequestStart
  split
  · exact h.next
  · refine .ite h.next ?_
    extract_lets u
    have hu : Keeps s₀ u := .ite h.updReq h.beginReq
    split
    · exact hu.next
    · exact next (.ite hu.moveBytes hu)

protected theorem releaseRetained (h : Keeps s₀ s) : Keeps s₀ (releaseRetained s ck) := { h with }

protected theorem execCopyComplete (h : Keeps s₀ s) : KeepsNext s₀ (execCopyComplete req s) := by
  unfold execCopyComplete
  split
  · exact h.next
  · exact .ite h.next h.freeLines.updReq.completeOn.releaseRetained.next

protected theorem execMatrixStep {ticket : Nat} (h : Keeps s₀ s) : KeepsNext s₀ (execMatrixStep core ticket s) := by
  unfold execMatrixStep
  extract_lets m
  split
  · refine .ite h.next ?_
    split
    · exact h.next
    · exact next (Keeps.releaseRetained (.ite h.setMatrix.completeOn h.setMatrix))
  · exact h.next

protected theorem execTicketedSlateAct {ticket : Nat} (h : Keeps s₀ s) : KeepsNext s₀ (execTicketedSlateAct core ticket s) := by
  unfold execTicketedSlateAct
  extract_lets m
  split
  · exact next (.ite h h.doAct.releaseRetained)
  · exact h.next

end Copies

/-! ### The fabric -/

section Fabric
variable {die core ck ctx op n : Nat} {k : Kind} {x : FabOp} {refused : Bool} {bs : List Byte}

protected theorem updWindow {w : Nat} {f : Window → Window} (h : Keeps s₀ s) : Keeps s₀ (updWindow s w f) := { h with }

protected theorem gather {ps : List (Nat × Nat)} (h : Keeps s₀ s) : Keeps s₀ (gather s die ck ps).1 := by
  induction ps generalizing s with
  | nil => exact h
  | cons p r ih =>
    unfold gather
    split
    · exact h.engineMeets.fst ‹_›
    · exact h.engineMeets.fst ‹_›
    · have hm := h.engineMeets.fst ‹_›
      split
      · exact hm.engineRead.fst ‹_›
      · have hr := ih (hm.engineRead.fst ‹_›)
        split
        · exact hr.fst ‹_›
        · exact hr

protected theorem payloadRows {b : FabBlock} (h : Keeps s₀ s) : Keeps s₀ (payloadRows s die ck b n).1 := by
  induction n with
  | zero => exact h
  | succ n ih =>
    unfold payloadRows
    split
    · exact ih.fst ‹_›
    · have hr := ih.fst ‹_›
      split <;> exact hr.gather.fst ‹_›

protected theorem landing {ps : List (Nat × Nat)} (h : Keeps s₀ s) : Keeps s₀ (landing s die ck ps).1 := by
  induction ps generalizing s with
  | nil => exact h
  | cons p r ih =>
    unfold landing
    split
    · exact h.engineMeets.fst ‹_›
    · exact h.engineMeets.fst ‹_›
    · have hr := ih (h.engineMeets.fst ‹_›)
      split
      · exact hr.fst ‹_›
      · exact hr

protected theorem execFabricOpSend (h : Keeps s₀ s) : KeepsNext s₀ (execFabricOpSend op s) := by
  unfold execFabricOpSend
  split
  · exact h.next
  · next x _ =>
    extract_lets sent stop
    have hsent {u : State} {bad : Bool} {ps : List (Nat × List Byte)} (hu : Keeps s₀ u) : Keeps s₀ (sent u bad ps) := { hu with }
    have hstop {u : State} {y : Stop} (hu : Keeps s₀ u) : Keeps s₀ (stop u y) := by
      cases y with
      | wait => exact hu
      | kill reason => exact hsent hu.condemn
    clear_value stop sent
    refine .ite h.next (.ite (hsent h).next (.ite ?_ ?_))
    · split
      · next e => exact (hstop (h.landing.fst e)).next
      · next e => exact (hsent (h.landing.fst e)).next
    · split
      · next e => exact (hstop (h.payloadRows.fst e)).next
      · next e => exact (hsent (h.payloadRows.fst e)).next

protected theorem land {ms : List (Met × Nat)} (h : Keeps s₀ s) : Keeps s₀ (land s core ck ms bs) := by
  induction ms generalizing s bs with
  | nil => exact h
  | cons m r ih => exact ih h.engineWrite

protected theorem settle (h : Keeps s₀ s) : Keeps s₀ (settle s op x refused) := { h.updWindow.freeLines.completeOn with }

protected theorem settleImage {id : Nat} (h : Keeps s₀ s) : Keeps s₀ (settleImage s op id refused) := by
  have hi : Keeps s₀ { s with imagesOut := tdel s.imagesOut op, wake := true } := { h with }
  refine .ite hi (.ite hi.updEntry (.ite (Keeps.markAs (Keeps.updEntry ?_)) hi.updEntry.markAs))
  exact { h with }

protected theorem settleOther (h : Keeps s₀ s) : Keeps s₀ (settleOther s op refused) := by
  unfold settleOther
  split
  · exact .ite h.settleImage h
  · exact h

protected theorem execFabricOpSettle {data : List Byte} (h : Keeps s₀ s) : KeepsNext s₀ (execFabricOpSettle op refused data s) := by
  unfold execFabricOpSettle
  split
  · exact h.settleOther.next
  · refine .ite h.next (.ite h.settle.next (.ite h.settle.next (.ite h.next ?_)))
    split
    · next e => exact next { h.landing.fst e with }
    · next e => exact (h.landing.fst e).condemn.settle.next
    · next e => exact (h.landing.fst e).land.settle.next

protected theorem execFabricPathTimeout (h : Keeps s₀ s) : KeepsNext s₀ (execFabricPathTimeout op s) := by
  unfold execFabricPathTimeout
  split
  · exact h.settleOther.next
  · exact next (.ite h.settle h)

protected theorem windowPlaces {ps : List (Nat × Nat)} (h : Keeps s₀ s) : Keeps s₀ (windowPlaces s ctx k ps).1 := by
  induction ps generalizing s with
  | nil => exact h
  | cons p r ih =>
    unfold windowPlaces
    split
    · next e =>
      have hw := h.engineWalk.fst e
      refine .ite_fst hw ?_
      split <;> next e => exact (ih hw).fst e
    · exact h.engineWalk.fst ‹_›

protected theorem writePlaces {ps : List (Place × Nat)} (h : Keeps s₀ s) : Keeps s₀ (writePlaces s ps bs) := by
  induction ps generalizing s bs with
  | nil => exact h
  | cons p r ih => exact ih h.homeWrite

protected theorem readPlaces {ps : List (Place × Nat)} (h : Keeps s₀ s) : Keeps s₀ (readPlaces s ps).1 := by
  induction ps generalizing s with
  | nil => exact h
  | cons p r ih => exact ih h.homeRead

protected theorem execFabricOpArrival {win kind sigOp sigOff sigVal : Nat} {rows : List (Nat × List Byte)} (h : Keeps s₀ s) :
    KeepsNext s₀ (execFabricOpArrival win kind rows sigOp sigOff sigVal s) := by
  unfold execFabricOpArrival
  extract_lets answer
  have hanswer {u : State} {bad : Bool} {bs : List Byte} (hu : Keeps s₀ u) : Keeps s₀ (answer u bad bs) := { hu with }
  clear_value answer
  refine .ite h.next ?_
  split
  · exact (hanswer h).next
  · refine .ite (hanswer h).next ?_
    split
    · next e => exact (hanswer (h.windowPlaces.fst e)).next
    · next e =>
      have hp := h.windowPlaces.fst e
      extract_lets read u v
      have hr : Keeps s₀ read.1 := hp.readPlaces
      have hu : Keeps s₀ u := hp.writePlaces
      have hv : Keeps s₀ v := by
        unfold v
        split
        · exact hu.homeRead.homeWrite
        · exact hu
      exact .ite (next (.ite (hanswer hr) (hanswer hr).updWindow)) (.ite (hanswer hp).next (hanswer hv).updWindow.next)

protected theorem portMark {id : Nat} (h : Keeps s₀ s) : Keeps s₀ (portMark s id) := h.markAs

protected theorem execGratricPortFail {port : Nat} (h : Keeps s₀ s) : KeepsNext s₀ (execGratricPortFail port s) :=
  next (.ite (foldl (s := { s with ports := _ }) { h with } fun _ h _ _ => h.portMark) h)

protected theorem execGratricPortTrain {port : Nat} (h : Keeps s₀ s) : KeepsNext s₀ (execGratricPortTrain port s) :=
  next (.ite { h with } h)

protected theorem execDeviceNumberConflict (h : Keeps s₀ s) : KeepsNext s₀ (execDeviceNumberConflict s) := next (.ite { h with } h)

end Fabric

/-! ### The choice of the next event -/

protected theorem nextOutside (h : Keeps s₀ s) : Keeps s₀ (nextOutside s).1 := by
  unfold nextOutside
  split
  · exact { h with }
  · exact h

protected theorem nextEvent (h : Keeps s₀ s) : Keeps s₀ (nextEvent s).1 := by
  refine .ite_fst h.nextOutside ?_
  extract_lets a b c u es
  have hu : Keeps s₀ u := h.draw.draw.draw.passTime.settleOverdue.evictFree
  split
  · exact hu
  · exact .ite_fst hu.nextOutside hu

/-! ### Placement of classes -/

section Ushers
variable {ck rid idx core die ctx v p n : Nat} {c : Cls} {b : Bin} {h : Head} {f : Fetch}

protected theorem wipeClass (h : Keeps s₀ s) : Keeps s₀ (wipeClass s ck) :=
  { h with
    scratch := fun w => wf_filter _ (h.scratch w)
    l1 := fun w => (h.l1 w).map fun e he => by split <;> exact he }

protected theorem startTroupe (h : Keeps s₀ s) : Keeps s₀ (startTroupe s ck n p) :=
  foldl (s := { s with troupes := _ }) { h with } fun _ h _ _ => h.setThread

protected theorem giveSegments (h : Keeps s₀ s) : Keeps s₀ (giveSegments s c die).1 := by
  unfold giveSegments
  extract_lets l ps pages put q bases
  have hq : Keeps s₀ q.1 := by
    unfold q
    cases e : takeReserved s (pages * ps.length) (8 + die) (segmentOwner (ckOf c.rid c.idx)) with
    | none => exact h
    | some q => exact h.takeReserved e
  clear_value q
  exact .ite_fst { hq with } h

protected theorem startClass {pos : List Nat × List Nat} {restart : Word} (h : Keeps s₀ s) :
    Keeps s₀ (startClass s rid idx core pos restart) := by
  unfold startClass
  extract_lets ck r old _ c q _ s₁ s₂ s₃
  have hq : Keeps s₀ q.1 := h.wipeClass.giveSegments
  clear_value q
  have h₂ : Keeps s₀ s₂ := foldl (s := s₁) { hq with } fun _ h _ _ => h.clearSegment
  clear_value s₂
  have h₃ : Keeps s₀ s₃ := (h₂.setMatrix.ite h₂).arriveAt
  exact (h₃.foldl fun _ h _ _ => h.startTroupe).evictFree

protected theorem putAside (h : Keeps s₀ s) : Keeps s₀ (putAside s ck n b) := { h with }

protected theorem binsAside (h : Keeps s₀ s) : Keeps s₀ (binsAside s ck) :=
  h.foldl fun s h _ _ => .ite { h with } (.putAside (s := { s with bins := _ }) { h with })

protected theorem binsBack (h : Keeps s₀ s) : Keeps s₀ (binsBack s ck core) := h.foldl fun _ h _ _ => { h with }

protected theorem resumeClass (h : Keeps s₀ s) : Keeps s₀ (resumeClass s ck core) := by
  unfold resumeClass
  extract_lets c s₁ s₂ s₃ s₄ tks
  have h₁ : Keeps s₀ s₁ := { h with }
  clear_value s₁
  have h₃ : Keeps s₀ s₃ := .ite h₁.arriveAt.setMatrix h₁.arriveAt
  exact (h₃.binsBack.foldl fun _ h _ _ => h.becomesReady).evictFree

protected theorem wakeCarried (h : Keeps s₀ s) : Keeps s₀ (wakeCarried s) := .ite { h with } h

protected theorem countPlaced (h : Keeps s₀ s) : Keeps s₀ (countPlaced s rid idx) := by
  unfold countPlaced
  extract_lets r s₁ e d shown
  have h₁ : Keeps s₀ s₁ := h.updResident
  clear_value s₁
  exact .ite h (.ite (.ite h₁.markAs.wakeCarried (h₁.updResident.ite h₁).progressMark) h₁)

protected theorem handOver (h : Keeps s₀ s) : Keeps s₀ (handOver s rid) :=
  foldl (s := { s with noteQueues := _ }) { h with } fun _ h _ _ => h.updUsher

protected theorem countEnded (h : Keeps s₀ s) : Keeps s₀ (countEnded s rid) :=
  .ite h.updResident (.ite h.updResident.markAs h.updResident.updResident.handOver)

protected theorem joinWritten (h : Keeps s₀ s) : Keeps s₀ (joinWritten s) := { h with }
protected theorem joinResume {x : Resume} (h : Keeps s₀ s) : Keeps s₀ (joinResume s die x) := h.updUsher

protected theorem pauseProgress (h : Keeps s₀ s) : Keeps s₀ (pauseProgress s n) :=
  .ite (.ite h.markAs.wakeCarried h.progressMark) h

protected theorem pauseStep (h : Keeps s₀ s) : Keeps s₀ (pauseStep s rid ctx) := h.pauseProgress.pauseProgress

protected theorem placeOn {cs : List Nat} {q : State × Nat} (h : Keeps s₀ s) (e : placeOn s rid idx cs = some q) : Keeps s₀ q.1 := by
  induction cs with
  | nil => nomatch e
  | cons c r ih =>
    unfold Machine.placeOn at e
    split at e
    · exact Option.some.inj e ▸ h.startClass
    · exact ih e

protected theorem placeGang {cores is : List Nat} (h : Keeps s₀ s) (e : placeGang s rid cores is = some t) : Keeps s₀ t := by
  induction is generalizing s with
  | nil => exact Option.some.inj e ▸ h
  | cons i r ih =>
    unfold Machine.placeGang at e
    split at e
    · next hp => exact ih (h.placeOn hp) e
    · nomatch e

protected theorem tryPlace {x : Head} {q : State × Nat} (h : Keeps s₀ s) (e : tryPlace s die x = some q) : Keeps s₀ q.1 := by
  cases x with
  | resume r =>
    dsimp only [Machine.tryPlace] at e
    split at e
    · nomatch e
    · split at e
      · exact h.placeOn e
      · obtain ⟨c, -, rfl⟩ := Option.map_eq_some_iff.1 e
        exact h.resumeClass
  | unit u =>
    dsimp only [Machine.tryPlace] at e
    split at e
    · split at e
      · nomatch e
      · exact h.placeOn e
    · obtain ⟨cl, -, hc⟩ := List.exists_of_findSome?_eq_some e
      obtain ⟨u, hu, rfl⟩ := Option.map_eq_some_iff.1 hc
      exact h.placeGang hu

protected theorem afterPlace {x : Head} (h : Keeps s₀ s) : Keeps s₀ (afterPlace s die core x) := h.updUsher

protected theorem setAside (h : Keeps s₀ s) (e : setAside s ck = some t) : Keeps s₀ t := by
  obtain ⟨o, -, rfl⟩ := Option.map_eq_some_iff.1 e
  exact h.updCls.withCtxs

protected theorem setAsideAll {cks : List Nat} (h : Keeps s₀ s) (e : setAsideAll s cks = some t) : Keeps s₀ t := by
  induction cks generalizing s with
  | nil => exact Option.some.inj e ▸ h
  | cons ck r ih =>
    obtain ⟨u, hu, ht⟩ := Option.bind_eq_some_iff.1 e
    exact ih (h.setAside hu) ht

protected theorem execClassPlace (h : Keeps s₀ s) : KeepsNext s₀ (execClassPlace die s) := by
  refine .ite h.next ?_
  split
  · exact h.next
  · split
    · next e => exact next ((h.tryPlace e).afterPlace.foldl fun _ h _ _ => h.countPlaced)
    · refine .ite h.next ?_
      split
      · exact next (h.updUsher.ite h)
      · next vs _ =>
        extract_lets s₁ s₂
        have h₁ : Keeps s₀ s₁ := by
          unfold s₁
          cases e : setAsideAll s vs with
          | none => exact h
          | some t => exact h.setAsideAll e
        clear_value s₁
        have h₂ : Keeps s₀ s₂ := { h₁ with }
        exact h₂.updUsher.next

protected theorem moveUnit {x : UnitOfWork} (h : Keeps s₀ s) : Keeps s₀ (moveUnit s die v x) := h.updUsher.updUsher

protected theorem execSteal (h : Keeps s₀ s) : KeepsNext s₀ (execSteal die s) := by
  refine .ite h.next ?_
  split
  · exact h.moveUnit.next
  · exact h.updUsher.next

protected theorem removeClass (h : Keeps s₀ s) : Keeps s₀ (removeClass s ck) := by
  unfold removeClass
  extract_lets c l core s₁ s₂
  have h₂ : Keeps s₀ s₂ := (h.setMatrix.ite h).wipeClass.freeReserved
  clear_value s₂
  exact { h₂ with }

protected theorem execClassEnd (h : Keeps s₀ s) : KeepsNext s₀ (execClassEnd ck s) := by
  unfold execClassEnd
  extract_lets c r s₁ _ again s₂
  have h₁ : Keeps s₀ s₁ := h.removeClass
  have h₂ : Keeps s₀ s₂ := h₁.updResident
  clear_value s₁ s₂
  have h₃ : Keeps s₀ { s₂ with classes := tput s₂.classes ck again } := { h₂ with }
  exact .ite h.next (.ite h₃.joinResume.wakeCarried.pauseStep.next h₁.countEnded.wakeCarried.pauseStep.next)

protected theorem drainReqs (h : Keeps s₀ s) : Keeps s₀ (drainReqs s ck) := by
  refine h.foldl fun s h x _ => ?_
  extract_lets s₁
  have h₁ : Keeps s₀ s₁ := by
    unfold s₁
    split
    · exact .ite h h.beginReq
    · exact h
  clear_value s₁
  split
  · exact .ite h₁.moveBytes h₁
  · exact h₁

protected theorem killClasses (h : Keeps s₀ s) : Keeps s₀ (killClasses s rid) := by
  unfold killClasses
  extract_lets cks s₁
  have h₁ : Keeps s₀ s₁ := h.foldl fun _ h _ _ => h.drainReqs.removeClass
  clear_value s₁
  exact { h₁ with }

protected theorem execResidentKill (h : Keeps s₀ s) : KeepsNext s₀ (execResidentKill rid s) := by
  unfold execResidentKill
  split
  · split
    · exact h.next
    · extract_lets k s₁ s₂
      have h₁ : Keeps s₀ s₁ := h.killClasses
      clear_value s₁
      have h₂ : Keeps s₀ s₂ := { h₁ with }
      exact h₂.markAs.wakeCarried.pauseProgress.next
  · exact h.next

protected theorem execFifoFeedFault {req : Nat} (h : Keeps s₀ s) : KeepsNext s₀ (execFifoFeedFault req s) := by
  unfold execFifoFeedFault
  split
  · exact h.next
  · next r _ =>
    split
    · extract_lets c rs w fatal k s₁ s₂ s₃ s₄ s₅ s₆ s₇
      have h₂ : Keeps s₀ s₂ := h.drainReqs.setMatrix
      clear_value s₂
      have h₃ : Keeps s₀ s₃ := .wipeClass (s := { s₂ with reqs := _ }) { h₂ with }
      have h₅ : Keeps s₀ s₅ := h₃.updCls.updResident
      clear_value s₅
      have h₆ : Keeps s₀ s₆ := { h₅ with }
      clear_value s₆
      exact .ite h.condemn.next (.ite h.condemn.next h₆.updUsher.wakeCarried.pauseStep.next)
    · exact h.next

protected theorem writeMail {flag : Nat} {cs : List Nat} (h : Keeps s₀ s) : Keeps s₀ (writeMail s f flag cs) := h.writeScratch

protected theorem nextFetch {fs : List Fetch} (h : Keeps s₀ s) : Keeps s₀ (nextFetch s f fs).1 := by
  unfold nextFetch
  split
  · exact h.draw
  · exact h

protected theorem execFetchwAnswer (h : Keeps s₀ s) : KeepsNext s₀ (execFetchwAnswer die s) := by
  unfold execFetchwAnswer
  split
  · split
    next u f e =>
    have hu : Keeps s₀ u := h.nextFetch.fst e
    extract_lets s₁ s₂
    have h₁ : Keeps s₀ s₁ := hu.updUsher
    have h₂ : Keeps s₀ s₂ := by
      refine .ite h₁ ?_
      split
      · exact h₁.moveUnit
      · exact h₁
    clear_value s₁ s₂
    refine .ite h₁.writeMail.next ?_
    split
    · exact h₂.writeMail.next
    · extract_lets s₃ s₄ r
      have h₄ : Keeps s₀ s₄ := h₂.updUsher.writeMail
      clear_value s₄
      refine next (Keeps.wakeCarried ?_)
      split
      · exact h₄.countPlaced
      · exact h₄.countPlaced.countEnded
  · exact h.next

end Ushers

/-! ### Maps and their page tables -/

section Build
variable {ctx va id a n pl mc vp k page ck o : Nat} {m : Map} {host bias : Bool} {bs : List Byte} {ads : List (Nat × Bool × Bool)}
  {x : State × Map}

protected theorem takeTable {q : State × Nat} (h : Keeps s₀ s) (e : takeTable s ctx = some q) : Keeps s₀ q.1 := by
  obtain ⟨p, hp, rfl⟩ := Option.map_eq_some_iff.1 e
  exact (h.takeReserved hp).zeroRange

protected theorem setLeaf {target e lv root : Nat} (h : Keeps s₀ s) : Keeps s₀ (setLeaf ctx target va e lv s root) := by
  induction lv generalizing s root with
  | zero => exact h
  | succ lv ih =>
    refine .ite h.wrNat (.ite (ih h) ?_)
    split
    · next e => exact ih (Keeps.wrNat (n := 8) (h.takeTable e))
    · exact h

protected theorem enterLeaf {lv e : Nat} (h : Keeps s₀ s) : Keeps s₀ (enterLeaf s ctx va lv e) := by
  unfold enterLeaf
  split
  · exact h.setLeaf
  · exact h

protected theorem dropLeaf (h : Keeps s₀ s) : Keeps s₀ (dropLeaf s ctx va) := by
  unfold dropLeaf
  split
  · exact h.wrNat
  · exact h

protected theorem setFrame {f : Frame} (h : Keeps s₀ s) : Keeps s₀ (setFrame s page f) := { h with }

protected theorem ownPages (h : Keeps s₀ s) : Keeps s₀ (ownPages s id a n pl mc) :=
  h.foldl fun _ h _ _ => (h.flushPage.ite h).setFrame

protected theorem freePages (h : Keeps s₀ s) : Keeps s₀ (freePages s a n mc) := h.foldl fun _ h _ _ => (h.flushPage.ite h).setFrame
protected theorem charge {d : Int} (h : Keeps s₀ s) : Keeps s₀ (charge s ctx d) := h.withCtxs

protected theorem allocUnit {q : State × Map} (h : Keeps s₀ x.1) (e : allocUnit id x k = some q) : Keeps s₀ q.1 := by
  unfold Machine.allocUnit at e
  extract_lets s m n vp a at e
  split at e
  · exact Option.some.inj e ▸ h
  · split at e
    · split at e
      · obtain ⟨b, -, rfl⟩ := Option.map_eq_some_iff.1 e
        exact h.ownPages.charge
      · nomatch e
    · split at e
      · obtain ⟨b, -, rfl⟩ := Option.map_eq_some_iff.1 e
        exact h.ownPages
      · nomatch e

protected theorem allocMap {q : State × Map} (h : Keeps s₀ s) (e : allocMap s id m = some q) : Keeps s₀ q.1 :=
  foldl_bind_some (P := fun x => Keeps s₀ x.1) h (fun _ _ _ h e => h.allocUnit e) e

protected theorem freeUnit (h : Keeps s₀ s) : Keeps s₀ (freeUnit s m vp n) := by
  unfold freeUnit
  split
  · exact h
  · exact .ite h.freePages.charge h.freePages

protected theorem readSource (h : Keeps s₀ s) : Keeps s₀ (readSource s host a n).1 := foldl_fst (q := (s, [])) h fun _ _ h => h.homeRead

protected theorem putBytes (h : Keeps s₀ s) : Keeps s₀ (putBytes s host a bs) :=
  have hm : Keeps s₀ (mendRange (Machine.recallHost s ⟨host, 0, 0, false, a⟩ bs.length) host a bs.length) := h.recallHost.mendRange
  hm.setHome fun w => wf_wrBytes _ _ (hm.homeMem w)

protected theorem pageFill {idx : Bool} (h : Keeps s₀ s) : Keeps s₀ (pageFill s m idx vp).1 := by
  unfold pageFill
  split
  · exact h
  · exact .ite_fst h (.ite_fst h h.readSource)

protected theorem fillUnit {idx : Bool} (h : Keeps s₀ s) : Keeps s₀ (fillUnit s m idx vp) := by
  refine h.foldl fun s h j _ => ?_
  split
  · next e => exact (h.pageFill.fst e).putBytes
  · next e => exact h.pageFill.fst e

protected theorem enterUnit (h : Keeps s₀ s) : Keeps s₀ (enterUnit s m vp ads) :=
  ((h.foldl fun _ h _ _ => h.dropLeaf).foldl fun _ h _ _ => h.enterLeaf).joinWritten

protected theorem flipPage (h : Keeps s₀ s) : Keeps s₀ (flipPage m bias s vp) := (h.flushPage.ite h.flushPage.recallHost).setFrame

protected theorem flipPages {vps : List Nat} (h : Keeps s₀ s) : Keeps s₀ (flipPages s m bias vps) :=
  (h.foldl fun _ h _ _ => h.flipPage).foldl fun _ h _ _ => h.enterUnit

protected theorem carryBias (h : Keeps s₀ s) : Keeps s₀ (carryBias m s vp page) := (h.ite h.recallHost).setFrame
protected theorem moveRegions (h : Keeps s₀ s) : Keeps s₀ (moveRegions s ctx m vp n) := { h with }

protected theorem migrateUnit {q : State × Map} (h : Keeps s₀ x.1) (e : migrateUnit id m x k ads = some q) : Keeps s₀ q.1 := by
  unfold Machine.migrateUnit at e
  extract_lets s m n vp olds rd u moved at e
  split at e
  · obtain ⟨b, -, rfl⟩ := Option.map_eq_some_iff.1 e
    exact (h.foldl fun _ h _ _ => h.flushPage.setFrame).enterUnit
  · split at e
    · nomatch e
    · obtain ⟨y, hy, rfl⟩ := Option.map_eq_some_iff.1 e
      have hu : Keeps s₀ u := foldl_fst (q := (s, [])) h fun _ _ h => h.flushPage.homeRead
      have hm : Keeps s₀ y.1 := by
        unfold moved at hy
        split at hy
        · cases hy
          exact pair hu.putBytes
        · obtain ⟨b, -, rfl⟩ := Option.map_eq_some_iff.1 hy
          exact pair (hu.ownPages.foldl fun _ h _ _ => h.carryBias).putBytes
      exact Keeps.charge (.ite hm.enterUnit.moveRegions (hm.enterUnit.moveRegions.foldl fun _ h _ _ => h.freePages))

protected theorem enterWindow {r : Rec} (h : Keeps s₀ s) : Keeps s₀ (enterWindow s r) := h.foldl fun _ h _ _ => h.enterLeaf
protected theorem leaveWindow {r : Rec} (h : Keeps s₀ s) : Keeps s₀ (leaveWindow s r) := .ite (h.foldl fun _ h _ _ => h.dropLeaf) h

end Build

/-! ### Pre-emption -/

section Preempt
variable {ck o : Nat}

protected theorem stopClass (h : Keeps s₀ s) : Keeps s₀ (stopClass s ck) := by
  unfold stopClass
  extract_lets core s₁ m
  have h₁ : Keeps s₀ s₁ := h.foldl fun _ h _ _ => h.abortRegion
  clear_value s₁
  exact .ite (.setMatrix (s := { s₁ with reqs := _ }) { h₁ with }) h₁

protected theorem takeOff (h : Keeps s₀ s) : Keeps s₀ (takeOff s ck o) := by
  unfold takeOff
  extract_lets s₁ c l core m q bs s₂ s₃ s₄ s₅ off s₆
  have h₁ : Keeps s₀ s₁ := h.stopClass
  have hq : Keeps s₀ q.2 := h₁.draw
  clear_value q
  have h₂ : Keeps s₀ s₂ := hq.flushCore.foldl fun _ h _ _ => h.updThread
  have h₄ : Keeps s₀ s₄ := h₂.settlePassing.homeWrite
  clear_value s₄
  have h₆ : Keeps s₀ s₆ := Keeps.updCls (Keeps.binsAside (h₄.setMatrix.ite h₄))
  exact h₆.withCtxs.joinResume.wakeCarried

protected theorem execPreempt (h : Keeps s₀ s) : KeepsNext s₀ (execPreempt ck s) := by
  refine .ite h.next ?_
  split
  · exact h.next
  · exact h.takeOff.pauseStep.next

end Preempt

/-! ### Snapshots -/

section Snapshots
variable {ctx rid vp n : Nat}

protected theorem clearDirty (h : Keeps s₀ s) : Keeps s₀ (clearDirty s ctx vp) := by
  unfold clearDirty
  split
  · exact h.wrNat
  · exact h

protected theorem releaseHold (h : Keeps s₀ s) : Keeps s₀ (releaseHold s ctx) := { h with }

protected theorem quiesceClasses (h : Keeps s₀ s) : Keeps s₀ (quiesceClasses s rid) :=
  have hc {cks : List Nat} : Keeps s₀ (shootdown (cks.foldl
      (fun s ck => updCls (Machine.stopClass s ck) ck (fun c => { c with quiesced := true })) s) (recParent (builtOf s rid))) :=
    (h.foldl fun _ h _ _ => h.stopClass.updCls).shootdown
  .ite (hc.foldl fun _ h _ _ => h.progressMark) hc

protected theorem fixedImage (h : Keeps s₀ s) : Keeps s₀ (fixedImage s rid).1 := by
  refine Keeps.draw (h.foldl fun s h vp _ => ?_)
  split
  · exact h.recallHost
  · exact h

protected theorem trackAnew (h : Keeps s₀ s) : Keeps s₀ (trackAnew s ctx) := (h.withCtxs.foldl fun _ h _ _ => h.clearDirty).shootdown

protected theorem execSnapshotQuiesce (h : Keeps s₀ s) : KeepsNext s₀ (execSnapshotQuiesce rid s) := by
  unfold execSnapshotQuiesce
  extract_lets r ctx q num saved s₁ s₂
  have h₁ : Keeps s₀ s₁ := h.quiesceClasses.fixedImage.trackAnew
  clear_value s₁
  have h₂ : Keeps s₀ s₂ := h₁.updEntry
  clear_value s₂
  exact .ite h.next (.ite h₁.releaseHold.updEntry.markAs.next (next { h₂ with }))

protected theorem imageTarget {r : Rec} (h : Keeps s₀ s) : Keeps s₀ (imageTarget s r n).1 := by
  refine .ite_fst h ?_
  split
  · exact h
  · refine .ite_fst h (.ite_fst h ?_)
    split
    · next e => exact h.windowPlaces.fst e
    · next e => exact h.windowPlaces.fst e

protected theorem writeImage {bs : List Byte} {x : Target} (h : Keeps s₀ s) : Keeps s₀ (writeImage s rid bs x) := by
  cases x with
  | memory => exact h.homeWrite
  | places ps => exact h.writePlaces
  | peer => exact { h with }

protected theorem readImage (h : Keeps s₀ s) : Keeps s₀ (readImage s rid).1 := by
  unfold readImage
  extract_lets r
  split
  · exact h
  · refine .ite_fst (.ite_fst h (pair h.homeRead)) ?_
    split
    · exact h
    · refine .ite_fst (pair h.draw) ?_
      split
      · next e => exact .ite_fst (h.windowPlaces.fst e) (pair (h.windowPlaces.fst e).readPlaces)
      · next e => exact h.windowPlaces.fst e

protected theorem readChain (h : Keeps s₀ s) : Keeps s₀ (readChain s n rid).1 := by
  induction n generalizing s rid with
  | zero => exact h
  | succ n ih =>
    unfold Machine.readChain
    split
    · next e => exact h.readImage.fst e
    · next e =>
      have hr := h.readImage.fst e
      refine .ite_fst hr (.ite_fst hr ?_)
      split
      · next e => exact (ih hr).fst e
      · next e => exact (ih hr).fst e

protected theorem restoreClass {x : SavedClass} (h : Keeps s₀ s) : Keeps s₀ (restoreClass s rid ctx x) := by
  unfold restoreClass
  extract_lets ck l _ c g s₁ rs s₂ s₃ s₄
  have hg : Keeps s₀ g.1 := .ite_fst h h.giveSegments
  clear_value g
  have h₂ : Keeps s₀ s₂ := (hg.foldl fun _ h _ _ => h.putBytes).foldl fun _ h _ _ => { h with }
  clear_value s₂
  have h₃ : Keeps s₀ s₃ := { h₂ with scratch := fun w => wf_foldl_wr8 (h₂.scratch w) }
  clear_value s₃
  have h₄ : Keeps s₀ s₄ := h₃.foldl fun _ h _ _ => h.putAside
  exact h₄.joinResume

protected theorem joinUnits {us : List (List Nat)} (h : Keeps s₀ s) : Keeps s₀ (joinUnits s rid us) := h.foldl fun _ h _ _ => h.updUsher

protected theorem restoreProgram {p : SavedProgram} (h : Keeps s₀ s) : Keeps s₀ (restoreProgram s rid ctx p) := by
  unfold restoreProgram
  extract_lets l left s₁ s₂ s₃ _ s₄
  have h₁ : Keeps s₀ s₁ := h.updResident
  clear_value s₁
  have h₃ : Keeps s₀ s₃ := foldl (s := s₂) { h₁ with } fun _ h _ _ => h.restoreClass
  have h₄ : Keeps s₀ s₄ := h₃.foldl fun s h _ _ => .joinResume (s := { s with classes := _ }) { h with }
  exact h₄.joinUnits.foldl fun _ h _ _ => h.updUsher

end Snapshots

/-! ### What a pass does to one record -/

section Steps
variable {id vp n k step reason total : Nat} {m o : Map} {host bias : Bool} {bad : Nat → Bool} {b w : Rec} {vps : List Nat}

protected theorem fillPage (h : Keeps s₀ s) : Keeps s₀ (fillPage s m vp) := by
  unfold fillPage
  split
  · next e => exact (h.pageFill.fst e).putBytes
  · next e => exact h.pageFill.fst e

protected theorem fillStep (h : Keeps s₀ s) : Keeps s₀ (fillStep s m vp) := h.foldl fun _ h _ _ => h.fillPage

protected theorem stopAt (h : Keeps s₀ s) : Keeps s₀ (stopAt s id n host bad).1 := .ite_fst h (.ite_fst { h with } h)

protected theorem migrateUnits {us : List Nat} {q : State × Map} (h : Keeps s₀ s) (e : migrateUnits s id o m us = some q) :
    Keeps s₀ q.1 :=
  foldl_bind_some (f := fun y (k : Nat × List (Nat × Bool × Bool)) => migrateUnit id o y k.1 k.2) (P := fun y => Keeps s₀ y.1) h
    (fun _ _ _ h e => h.migrateUnit e) e

protected theorem leaveChannel (h : Keeps s₀ s) (e : leaveChannel s id = some t) : Keeps s₀ t := by
  unfold Machine.leaveChannel at e
  split at e
  · exact Option.some.inj e ▸ h
  · next c _ =>
    extract_lets us old shows at e
    split at e
    · exact Option.some.inj e ▸ h
    · obtain ⟨y, hy, rfl⟩ := Option.map_eq_some_iff.1 e
      have hm {ms : Table Map} : Keeps s₀ { shootdown y.1 c.ctx with maps := ms } :=
        (Keeps.migrateUnits (h.stepMarks.ite h) hy).shootdown.withMaps
      exact .ite hm (.ite hm.markAs hm.writeMark)

protected theorem retireChannel (h : Keeps s₀ s) (e : retireChannel s n = some t) : Keeps s₀ t := by
  unfold Machine.retireChannel at e
  extract_lets u at e
  have hu : Keeps s₀ u := { h with }
  exact foldl_bind_some (P := Keeps s₀) hu (fun _ _ _ h e => h.leaveChannel e) e

protected theorem markBlocked (h : Keeps s₀ s) : Keeps s₀ (markBlocked s id reason) := by
  have hu : Keeps s₀ (if recKind (wantOf s id) = 6 ∧ reason = rRESOURCES then updEntry s id (fun e => { e with phase := 9 }) else s) :=
    .ite h.updEntry h
  exact .ite hu hu.markAs

protected theorem reevaluate (h : Keeps s₀ s) : Keeps s₀ (reevaluate s) := by
  refine h.foldl fun s h id _ => ?_
  split
  · exact h.markBlocked
  · exact h.markAs

/-! #### Teardown -/

protected theorem drainMark (h : Keeps s₀ s) : Keeps s₀ (drainMark s id step total) := .ite h h.stepMarks

protected theorem dropPages (h : Keeps s₀ s) : Keeps s₀ (dropPages s m vps) :=
  (h.foldl fun _ h _ _ => h.dropLeaf).shootdown.foldl fun _ h _ _ => h.freeUnit

protected theorem trapTakers (h : Keeps s₀ s) : Keeps s₀ (trapTakers s n) := h.foldl fun _ h _ _ => h.updThread.trapAt.becomesReady

protected theorem refuseOps (h : Keeps s₀ s) : Keeps s₀ (refuseOps s n) :=
  (h.foldl fun _ h _ _ => h.settle).foldl fun _ h _ _ => h.settleImage

protected theorem drain (h : Keeps s₀ s) : Keeps s₀ (drain s id b) := by
  unfold drain
  split
  · split
    · exact (h.foldl fun _ h _ _ => h.dropLeaf).shootdown
    · exact h
  · exact h.refuseOps.leaveWindow
  · exact h.trapTakers
  · exact h.killClasses
  · exact h

protected theorem release (h : Keeps s₀ s) : Keeps s₀ (release s id b) := by
  unfold release
  split
  · exact h.dropTlbs.freeReserved.withCtxs
  · split
    · exact (h.foldl fun _ h _ _ => h.freeUnit).withMaps
    · exact h
  · exact h.shootdown.withWindows
  · exact h.withBlocks
  · extract_lets s₁ s₂
    have h₂ : Keeps s₀ s₂ := .pauseProgress (s := s₁) { h with }
    clear_value s₂
    split
    · exact h₂.dropPages.withMaps
    · exact h₂
  · have hr : Keeps s₀ (releaseHold s (recParent b)) := h.releaseHold
    exact { hr with }
  · exact h

protected theorem nothingLeft (h : Keeps s₀ s) : Keeps s₀ (nothingLeft s id) := h.updEntry

protected theorem tearWhole (h : Keeps s₀ s) : Keeps s₀ (tearWhole s id) := by
  unfold tearWhole
  extract_lets e b s₁ s₂ s₃ s₄
  have h₁ : Keeps s₀ s₁ := .ite h h.drainMark
  have h₃ : Keeps s₀ s₃ := .ite h h₁.drain.drainMark.release
  have h₄ : Keeps s₀ s₄ := .ite h₃.markAs h₃
  exact h₄.nothingLeft.updEntry

protected theorem splitLeaves {xs : List (Nat × Bool × Bool)} (h : Keeps s₀ s) : Keeps s₀ (splitLeaves s m xs) :=
  (h.foldl fun _ h _ _ => h.dropLeaf).foldl fun _ h _ _ => h.enterLeaf

protected theorem tearPart (h : Keeps s₀ s) : Keeps s₀ (tearPart s id) := by
  unfold tearPart
  extract_lets +onlyGivenNames b w s₁
  have h₁ : Keeps s₀ s₁ := h.updEntry
  clear_value s₁
  split
  · exact h₁
  · extract_lets +onlyGivenNames stays leaving k s₂
    have h₂ : Keeps s₀ s₂ := .ite h₁ h₁.drainMark.dropPages.splitLeaves.drainMark
    clear_value s₂
    exact .ite h₂.dropPages.withMaps h₂.withMaps

protected theorem beginDrain (h : Keeps s₀ s) : Keeps s₀ (beginDrain s id) := by
  unfold beginDrain
  exact Keeps.updEntry (.ite h h.drainMark)

protected theorem tearQuiesced (h : Keeps s₀ s) : Keeps s₀ (tearQuiesced s id b) := by
  unfold tearQuiesced
  split
  · exact h.tearWhole
  · split
    · next e => exact (h.imageTarget.fst e).tearWhole
    · next e => exact (h.imageTarget.fst e).writeImage.releaseHold.beginDrain.updEntry
    · next e => exact (h.imageTarget.fst e).writeImage.tearWhole

protected theorem tearRecord (h : Keeps s₀ s) : Keeps s₀ (tearRecord s id) :=
  .ite h.tearPart (.ite h.beginDrain (.ite h.tearQuiesced (.ite h h.tearWhole)))

/-! #### Build steps -/

protected theorem contextStep (h : Keeps s₀ s) : Keeps s₀ (contextStep s id w k).1 := by
  unfold contextStep
  split
  · refine .ite_fst h.markAs ?_
    split
    · next e => exact (h.markAs.takeTable e).withCtxs
    · exact h.markAs
  · exact h.markAs.withCtxs
  · exact h.markAs.withCtxs
  · split
    · next e => exact (h.readChain.fst e).markAs
    · next e =>
      extract_lets q u
      have hu : Keeps s₀ u := (h.readChain.fst e).stopAt.partMarks
      exact .ite hu hu.withCtxs

protected theorem biasStep (h : Keeps s₀ s) : Keeps s₀ (biasStep s id m bias).1 := by
  unfold biasStep
  extract_lets vps n upTo whole
  have hu {u : State} {j : Nat} (hu : Keeps s₀ u) : Keeps s₀ (upTo u j).1 := hu.partMarks.flipPages.shootdown
  have hw : Keeps s₀ whole.1 := h.stepMarks.flipPages.shootdown
  clear_value upTo whole
  refine .ite_fst hw (.ite_fst (hu h) ?_)
  split
  · exact .ite_fst hw (pair (Keeps.loseLink (hu { h with })))
  · exact hw

protected theorem mappingStep (h : Keeps s₀ s) : Keeps s₀ (mappingStep s id w k).1 := by
  unfold mappingStep
  extract_lets +onlyGivenNames m
  split
  · extract_lets n
    split
    · next e => exact (h.stepMarks.allocMap e).withMaps
    · exact h
  · extract_lets xs bad q done s₁ m₁
    have h₁ : Keeps s₀ s₁ := h.stopAt.partMarks.foldl fun _ h _ _ => h.fillStep
    exact h₁.withMaps
  · extract_lets us xs s₁
    have h₁ : Keeps s₀ s₁ := h.stepMarks.foldl fun _ h _ _ => h.enterUnit
    exact h₁.shootdown.withMaps
  · exact h.biasStep
  · extract_lets t n bad q s₁
    have h₁ : Keeps s₀ s₁ := h.stopAt.partMarks.shootdown
    split
    · next e => exact (h₁.migrateUnits e).shootdown.withMaps
    · exact h₁

protected theorem windowStep (h : Keeps s₀ s) : Keeps s₀ (windowStep s id w k).1 := by
  unfold windowStep
  split
  · exact .ite h.stepMarks.enterWindow.shootdown h.stepMarks
  · exact h.markAs.withWindows

protected theorem armQueue {c : Nat} (h : Keeps s₀ s) : Keeps s₀ (armQueue s id c n) := by
  unfold armQueue
  extract_lets s₁ s₂
  have h₁ : Keeps s₀ s₁ := h.withBlocks
  have h₂ : Keeps s₀ s₂ := h₁.updEntry
  clear_value s₁ s₂
  refine .ite h₁ ?_
  split
  · next e => exact (h₂.tailAt.fst e).withBlocks
  · next e => exact h₂.tailAt.fst e

protected theorem queueStep (h : Keeps s₀ s) : Keeps s₀ (queueStep s id w k).1 := by
  unfold queueStep
  split
  · exact h.markAs.withBlocks
  · exact h.markAs
  · exact h.markAs.armQueue

protected theorem residentStep (h : Keeps s₀ s) : Keeps s₀ (residentStep s id w k).1 := by
  unfold residentStep
  split
  · extract_lets m n q
    split
    · exact h
    · next e =>
      extract_lets s₁ s₂ s₃
      have h₁ : Keeps s₀ s₁ := (h.stopAt.partMarks.allocMap e).foldl fun _ h _ _ => h.fillUnit
      have h₂ : Keeps s₀ s₂ := h₁.foldl fun _ h _ _ => h.enterUnit
      clear_value s₁ s₂
      exact .ite_fst h₁.withMaps h₂.shootdown.withMaps
  · extract_lets l r s₁ s₂
    have h₁ : Keeps s₀ s₁ := h.withResidents
    clear_value s₁
    have h₂ : Keeps s₀ s₂ := by
      unfold s₂
      split
      · exact h₁.restoreProgram
      · exact h₁.handOver
    exact h₂.markAs

protected theorem snapshotStep (h : Keeps s₀ s) : Keeps s₀ (snapshotStep s id w).1 := pair h.markAs.updEntry

protected theorem pauseRecord (h : Keeps s₀ s) : Keeps s₀ (pauseRecord s id w) := by
  unfold pauseRecord
  split
  · exact h.markAs.withCtxs.withClasses
  · exact h.markAs.withResidents.withClasses
  · exact h.markAs.withWindows
  · exact h.markAs.withBlocks

protected theorem resumeRecord (h : Keeps s₀ s) : Keeps s₀ (resumeRecord s id w) := by
  unfold resumeRecord
  split
  · exact h.withCtxs.withClasses
  · exact h.withResidents.withClasses
  · exact h.withWindows
  · exact h.withBlocks

protected theorem runStep (h : Keeps s₀ s) : Keeps s₀ (runStep s id w k).1 := by
  unfold runStep
  extract_lets s₁
  have h₁ : Keeps s₀ s₁ := h.updEntry
  clear_value s₁
  refine .ite_fst h₁.pauseRecord (.ite_fst h₁.resumeRecord ?_)
  split
  · exact h₁.contextStep
  · exact h₁.mappingStep
  · exact h₁.windowStep
  · exact h₁.queueStep
  · exact h₁.residentStep
  · exact h₁.snapshotStep

protected theorem finishMark (h : Keeps s₀ s) : Keeps s₀ (finishMark s id k total) := .ite h (.ite h (.ite h.markAs h.markAs))

protected theorem runPlan {ks : List Nat} {last : Nat × Nat} (h : Keeps s₀ s) : Keeps s₀ (runPlan id ks last s) := by
  induction ks generalizing s last with
  | nil => exact h.updEntry.finishMark
  | cons k rest ih =>
    unfold Machine.runPlan
    extract_lets s₁ w
    have h₁ : Keeps s₀ s₁ := h.updEntry
    clear_value s₁
    refine .ite (ih h₁) ?_
    split
    · exact h₁.markBlocked
    · split
      · next e =>
        have hr := h₁.runStep.fst e
        exact .ite hr.updEntry.markAs hr.updEntry.markAs
      · next e => exact ih (h₁.runStep.fst e)

protected theorem deferSnapshot (h : Keeps s₀ s) : Keeps s₀ (deferSnapshot s id reason) :=
  h.withSnaps.releaseHold.updEntry.markAs

protected theorem failSnapshot (h : Keeps s₀ s) : Keeps s₀ (failSnapshot s id step total) :=
  Keeps.markAs (Keeps.updEntry (.releaseHold (s := { s with snaps := _, mishap := _ }) { h with }))

protected theorem finishSnapshot (h : Keeps s₀ s) : Keeps s₀ (finishSnapshot s id) := by
  unfold finishSnapshot
  extract_lets r
  split
  · exact h
  · split
    · next e => exact (h.imageTarget.fst e).deferSnapshot
    · next u _ e =>
      have hu : Keeps s₀ u := h.imageTarget.fst e
      extract_lets st pages bad s₁ s₂ s₃
      have h₁ : Keeps s₀ s₁ := hu.stepMarks
      have h₃ : Keeps s₀ s₃ := h₁.writeImage.stepMarks.markAs.releaseHold
      clear_value s₁ s₃
      exact .ite hu.partMarks.failSnapshot (.ite h₁.partMarks.failSnapshot (.ite h₃.updEntry h₃.updEntry.markAs))

protected theorem buildRecord (h : Keeps s₀ s) : Keeps s₀ (buildRecord s id) := by
  refine .ite h (.ite h.finishSnapshot (.ite h ?_))
  split
  · exact h
  · exact h.runPlan

end Steps

/-! ### FIRMWARE records -/

section Firmware
variable {id core n die reason : Nat} {r : Rec} {bs : List Byte}

protected theorem updateDie (h : Keeps s₀ s) : Keeps s₀ (updateDie s r bs die) := by
  unfold updateDie
  split
  · exact { h with }
  · exact .shootdownDie (s := { s with walkVersion := _, routines := _ }) { h with }
  · exact { h with }

protected theorem failImage (h : Keeps s₀ s) : Keeps s₀ (failImage s id reason) := h.updEntry.markAs

protected theorem updatePart (h : Keeps s₀ s) : Keeps s₀ (updatePart s id r) := by
  unfold updatePart
  extract_lets +onlyGivenNames q
  have hq : Keeps s₀ q.1 := h.markAs.stopAt
  clear_value q
  split
  · exact hq.failImage
  · extract_lets q' ds u
    have hu : Keeps s₀ u := hq.readSource.stepMarks.foldl fun _ h _ _ => h.updateDie
    exact .ite hq.readSource.failImage hu.markAs.updEntry.markAs

protected theorem emptyCore (h : Keeps s₀ s) : Keeps s₀ (emptyCore s core) := { h with }

protected theorem replaceCore (h : Keeps s₀ s) : Keeps s₀ (replaceCore s core) := by
  unfold replaceCore
  extract_lets +onlyGivenNames die s₁
  have h₁ : Keeps s₀ s₁ := h.flushCore
  clear_value s₁
  split <;> exact { h₁ with }

protected theorem retiredMark {ds : List Nat} (h : Keeps s₀ s) : Keeps s₀ (retiredMark s id ds) :=
  .ite h.markAs.updEntry.markAs h.markAs.updEntry.markAs

protected theorem retireCores {ds : List Nat} (h : Keeps s₀ s) : Keeps s₀ (retireCores id r n ds s) := by
  induction ds generalizing s with
  | nil => exact h.retiredMark
  | cons d ds ih =>
    unfold Machine.retireCores
    extract_lets core gone s₁ s₂
    have h₁ : Keeps s₀ s₁ := h.emptyCore
    have h₂ : Keeps s₀ s₂ := Keeps.updEntry (.ite h₁ h₁.replaceCore)
    exact .ite (ih h₂.progressMark) h₁

protected theorem firmwareRecord (h : Keeps s₀ s) : Keeps s₀ (firmwareRecord s id) := by
  unfold firmwareRecord
  extract_lets +onlyGivenNames e w
  refine .ite (.ite h.nothingLeft.updEntry.markAs h.updEntry) ?_
  split
  · exact h
  · exact h.markBlocked
  · extract_lets s₁ ds s₂
    have h₁ : Keeps s₀ s₁ := h.updEntry
    clear_value s₁
    have h₂ : Keeps s₀ s₂ := .ite h₁.markAs.updEntry h₁
    clear_value s₂
    refine .ite h₁.updatePart (.ite h₂.retireCores ?_)
    split
    · next e => exact (h₂.retireChannel e).retiredMark
    · exact h₂

end Firmware

/-! ### A pass of the reconciler -/

section Reconcile
variable {id base count latched rev done total reason : Nat} {r b w : Rec} {o : Entry} {st : MarkState} {old : Mark} {sweep : Bool}

protected theorem readRecord (h : Keeps s₀ s) : Keeps s₀ (readRecord s base id).1 := by
  unfold readRecord
  extract_lets q watch1
  have hq : Keeps s₀ q.1 := h.readSource
  have hw {u : State} {k : Nat} (hu : Keeps s₀ u) : Keeps s₀ (watch1 u k) := .ite hu { hu with }
  clear_value q watch1
  exact .ite (hw (hw hq)) hq

protected theorem conflictMark {observed writer : Nat} (h : Keeps s₀ s) : Keeps s₀ (conflictMark s id r reason observed writer) :=
  h.writeMark

protected theorem takeRecord (h : Keeps s₀ s) : Keeps s₀ (takeRecord s base count id).1 := by
  unfold takeRecord
  extract_lets +onlyGivenNames q u r e v
  have hu : Keeps s₀ u := h.readRecord
  clear_value q u
  refine .ite_fst hu.conflictMark (.ite_fst (.ite hu hu.conflictMark) (.ite_fst hu.conflictMark ?_))
  split
  · exact hu.conflictMark
  · exact hu
  · extract_lets u'
    have hu' : Keeps s₀ u' := hu.setEntry
    clear_value u'
    split
    · exact hu'.writeMark
    · exact hu'.updEntry.markAs

protected theorem standMark (h : Keeps s₀ s) : Keeps s₀ (standMark s id old) := h.writeMark

protected theorem planChange (h : Keeps s₀ s) : Keeps s₀ (planChange s id o b w) :=
  .ite h.updEntry.standMark (.ite h.updEntry.standMark h.updEntry)

protected theorem planNew (h : Keeps s₀ s) : Keeps s₀ (planNew s id o) := by
  unfold planNew
  extract_lets +onlyGivenNames e w whole put
  have hp {tear : Bool} {plan : List Nat} {u : State} (hu : Keeps s₀ u) : Keeps s₀ (put tear plan u) := hu.updEntry
  clear_value put
  refine .ite (hp h) ?_
  split
  · exact hp h.updEntry
  · next b _ =>
    have hr : Keeps s₀ (if e.phase = 0 then s else Machine.releaseHold s (recParent b)) := .ite h h.releaseHold
    have hi {u : State} (hu : Keeps s₀ u) : Keeps s₀ { u with imagesOut := s.imagesOut.filter (fun x => x.2 != id) } := { hu with }
    refine .ite (hp h.updEntry) (.ite (hp h.updEntry) (.ite (.ite ?_ (hp (hi hr).updEntry)) (.ite (hp h) (.ite ?_ ?_))))
    · exact .ite (hp h).standMark h.planChange
    · exact h.updEntry.updResident.planChange
    · exact Keeps.planChange (.ite h.updEntry h)

protected theorem cascade (h : Keeps s₀ s) : Keeps s₀ (cascade s) := { h with }

protected theorem planOne {new : List (Nat × Entry)} (h : Keeps s₀ s) : Keeps s₀ (planOne new s id) := by
  unfold planOne
  extract_lets +onlyGivenNames s₁
  have h₁ : Keeps s₀ s₁ := by
    unfold s₁
    split
    · exact .ite h h.planNew
    · exact h
  clear_value s₁
  split
  · exact h₁.markBlocked
  · exact .ite h₁.markAs h₁

protected theorem tearKind {k : Nat} (h : Keeps s₀ s) : Keeps s₀ (tearKind s k) := h.foldl fun _ h _ _ => .ite h h.tearRecord.reevaluate

protected theorem buildKind {k : Nat} (h : Keeps s₀ s) : Keeps s₀ (buildKind s k) := by
  refine h.foldl fun s h id _ => ?_
  split
  · exact h.markBlocked
  · exact h.buildRecord.reevaluate

protected theorem firmwareStage (h : Keeps s₀ s) : Keeps s₀ (firmwareStage s) := h.foldl fun _ h _ _ => h.firmwareRecord.reevaluate
protected theorem markZero (h : Keeps s₀ s) : Keeps s₀ (markZero s st reason done total rev) := h.putMark

protected theorem readAll {ids : List Nat} (h : Keeps s₀ s) : Keeps s₀ (readAll base latched ids s).1 := by
  induction ids generalizing s with
  | nil => exact h
  | cons id r ih => exact pair (ih (.takeRecord (s := { s with flags := _ }) { h with }))

protected theorem passInterrupt (h : Keeps s₀ s) : Keeps s₀ (passInterrupt s) := .ite { h with } h

protected theorem runPass (h : Keeps s₀ s) : Keeps s₀ (runPass s base latched sweep) := by
  unfold runPass
  extract_lets +onlyGivenNames now full old h₁ _ s₁ rev count s₂
  have hr : Keeps s₀ h₁.1 := .readRecord (s := { s with wake := _, marksWritten := _ }) { h with }
  clear_value h₁
  have hs₁ : Keeps s₀ s₁ := { hr with }
  clear_value s₁
  have hs₂ : Keeps s₀ s₂ := .ite { hs₁ with } hs₁
  clear_value s₂
  split
  · next reason _ =>
    have hm : Keeps s₀ (Machine.markZero s₂ .refused reason 0 0 rev) := hs₂.markZero
    exact { hm with }
  · extract_lets bad count' all s₃ q new s₄ todo s₅ s₆ s₇ s₈ s₉
    have hq : Keeps s₀ q.1 := .readAll (s := s₃) { hs₂ with }
    clear_value q
    have h₅ : Keeps s₀ s₅ := hq.cascade.foldl fun _ h _ _ => h.planOne
    have h₆ : Keeps s₀ s₆ := h₅.foldl fun _ h _ _ => h.tearKind
    have h₇ : Keeps s₀ s₇ := h₆.foldl fun _ h _ _ => h.buildKind
    have h₉ : Keeps s₀ s₉ := h₇.firmwareStage.joinWritten.markZero
    clear_value s₉
    exact .passInterrupt (s := { s₉ with lastPassEnd := _, wake := _ }) { h₉ with }

protected theorem wokenPass (h : Keeps s₀ s) (e : wokenPass s = some t) : Keeps s₀ t := by
  obtain ⟨x, -, hx⟩ := Option.bind_eq_some_iff.1 e
  split at hx
  · exact Option.some.inj hx ▸ h.runPass
  · nomatch hx

protected theorem sweepPass (h : Keeps s₀ s) (e : sweepPass s = some t) : Keeps s₀ t := by
  obtain ⟨x, -, hx⟩ := Option.bind_eq_some_iff.1 e
  split at hx
  · exact Option.some.inj hx ▸ h.runPass
  · nomatch hx

protected theorem execPassStep (h : Keeps s₀ s) : KeepsNext s₀ (execPassStep s) := next (h.getD fun _ e => h.wokenPass e)
protected theorem execBackstopSweep (h : Keeps s₀ s) : KeepsNext s₀ (execBackstopSweep s) := next (h.getD fun _ e => h.sweepPass e)

protected theorem strickenPass {m : Mishap} (h : Keeps s₀ s) (e : strickenPass s m = some t) : Keeps s₀ t := by
  unfold Machine.strickenPass at e
  extract_lets u at e
  have hu : Keeps s₀ u := { h with }
  clear_value u
  obtain ⟨ho, -⟩ := Option.filter_eq_some_iff.1 e
  rcases Option.or_eq_some_iff.1 ho with hw | ⟨-, hw⟩
  · exact hu.wokenPass hw
  · exact hu.sweepPass hw

end Reconcile

/-! ### Memory errors -/

section Errors
variable {id ck ctx core unit line k vp o va tk : Nat} {host : Bool} {m : Map} {pl : Place}

protected theorem countError (h : Keeps s₀ s) : Keeps s₀ (countError s unit) := { h with }
protected theorem execCorrectedError (h : Keeps s₀ s) : KeepsNext s₀ (execCorrectedError unit s) := next (.ite { h with } h)

protected theorem losePage (h : Keeps s₀ s) : Keeps s₀ (losePage s id m vp) := by
  refine .ite h.condemn ?_
  exact h.dropLeaf.shootdown.withMaps.updEntry.markAs

protected theorem condemnContext (h : Keeps s₀ s) : Keeps s₀ (condemnContext s ctx) := h.foldl fun _ h _ _ => h.condemn

protected theorem loseLine (h : Keeps s₀ s) : Keeps s₀ (loseLine s host line) := by
  unfold loseLine
  split
  · exact h.losePage
  · refine .ite h ?_
    split
    · exact h.condemn
    · split
      · exact h.condemnContext
      · exact h

protected theorem spoilLine (h : Keeps s₀ s) : Keeps s₀ (spoilLine s k) := by
  unfold spoilLine
  split
  · exact h
  · extract_lets u
    have hu : Keeps s₀ u := .countError (s := { s with l1 := _ }) { h with l1 := fun w => (h.l1 w).tdel }
    exact .ite hu.loseLine hu

protected theorem spoilPlace (h : Keeps s₀ s) : Keeps s₀ (spoilPlace s core pl) :=
  .ite (.countError (s := { s with badHost := _ }) { h with }) (.countError (s := { s with badDev := _ }) { h with })

protected theorem spoilOffset (h : Keeps s₀ s) : Keeps s₀ (spoilOffset s ck o) := by
  unfold spoilOffset
  extract_lets u q
  have hu : Keeps s₀ u := h.countError
  clear_value u
  exact .ite (.ite { hu with } hu) (.ite { hu with } hu)

protected theorem spoilAt (h : Keeps s₀ s) : Keeps s₀ (spoilAt s ck va) := by
  refine .ite h.spoilOffset ?_
  split
  · exact h.spoilPlace
  · exact h

protected theorem spoilFetch (h : Keeps s₀ s) : Keeps s₀ (spoilFetch s tk) := by
  unfold spoilFetch
  extract_lets +onlyGivenNames ck va
  split
  · exact .spoilPlace (s := { s with icache := _ }) { h with }
  · exact h

protected theorem spoilRequest (h : Keeps s₀ s) : Keeps s₀ (spoilRequest s k) := by
  unfold spoilRequest
  split
  · exact h
  · exact .ite h h.spoilAt

protected theorem execUncorrectableError {site at_ addr : Nat} (h : Keeps s₀ s) : KeepsNext s₀ (execUncorrectableError site at_ addr s) := by
  refine .ite h.next ?_
  split
  · exact h.spoilLine.next
  · exact next { h with rdc := fun w => (h.rdc w).tdel }
  · exact next (.ite (.countError (s := { s with icache := _ }) { h with }) h)
  · exact h.loseLine.countError.next
  · exact h.spoilAt.next
  · exact h.spoilFetch.next
  · exact h.spoilRequest.next
  · refine next ?_
    split
    · next e => exact (h.strickenPass e).countError
    · exact h
  · exact h.next

end Errors

/-! ### The links and the host -/

section Links
variable {port off rid a n : Nat} {v : Word} {bs : List Byte}

protected theorem execPbenSet (h : Keeps s₀ s) : KeepsNext s₀ (execPbenSet s) := .ite h.next (.ite (next { h with }) (next { h with }))

protected theorem execPbenClear (h : Keeps s₀ s) : KeepsNext s₀ (execPbenClear s) := .ite h.next (next { h.dropPlaybill with })

protected theorem execDvsecRegisterWrite (h : Keeps s₀ s) : KeepsNext s₀ (execDvsecRegisterWrite port off v s) :=
  .ite h.next (.ite (next (.ite h { h with })) (.ite (next (.ite h { h with })) (.ite (next (.ite h { h with }))
    (.ite (next { h with }) (.ite (next { h with }) h.next)))))

protected theorem execMbwrWrite (h : Keeps s₀ s) : KeepsNext s₀ (execMbwrWrite v s) := next (.ite { h with } h)
protected theorem execMbrdWrite (h : Keeps s₀ s) : KeepsNext s₀ (execMbrdWrite v s) := next (.ite { h with } h)
protected theorem execDoeAbort (h : Keeps s₀ s) : KeepsNext s₀ (execDoeAbort s) := next (.ite { h with } h)
protected theorem mailInterrupt (h : Keeps s₀ s) : Keeps s₀ (mailInterrupt s) := .ite { h with } h

protected theorem mailAnswer {ws : List Word} (h : Keeps s₀ s) : Keeps s₀ (mailAnswer s ws) :=
  .mailInterrupt (s := { s with dvsec := _ }) { h with }

protected theorem mailDiscard (h : Keeps s₀ s) : Keeps s₀ (mailDiscard s) := .mailInterrupt (s := { s with dvsec := _ }) { h with }

protected theorem execDoeDiscovery (h : Keeps s₀ s) : KeepsNext s₀ (execDoeDiscovery s) := by
  refine .ite h.next ?_
  split
  · exact .ite h.mailAnswer.next (.ite h.next h.mailDiscard.next)
  · exact h.mailDiscard.next

protected theorem execSpdmDoeRequest (h : Keeps s₀ s) : KeepsNext s₀ (execSpdmDoeRequest s) := by
  refine .ite h.next ?_
  split
  · exact .ite h.draw.mailAnswer.next h.next
  · exact h.next

protected theorem execLinkDown (h : Keeps s₀ s) : KeepsNext s₀ (execLinkDown port s) := next (.ite h.loseLink h)

protected theorem execLinkRetrain (h : Keeps s₀ s) : KeepsNext s₀ (execLinkRetrain port s) :=
  .ite h.next (.ite (next { h with }) (.ite (next { h with }) h.next))

protected theorem execBisnpTimeout (h : Keeps s₀ s) : KeepsNext s₀ (execBisnpTimeout rid port s) := by
  unfold execBisnpTimeout
  split
  · next e => exact next (.ite (h.strickenPass e) h)
  · exact h.next
  · exact .ite h.next h.loseLink.updEntry.markAs.next

protected theorem watchWrite (h : Keeps s₀ s) : Keeps s₀ (watchWrite s a n) := by
  unfold watchWrite
  split
  · exact h
  · exact .ite h { h with }

protected theorem noteHolder (h : Keeps s₀ s) : Keeps s₀ (noteHolder s n) := .ite h { h with }
protected theorem hostRead (h : Keeps s₀ s) : Keeps s₀ (hostRead s off n).1 := pair (h.readSource.foldl fun _ h _ _ => h.noteHolder)
protected theorem hostWrite (h : Keeps s₀ s) : Keeps s₀ (hostWrite s off bs) := h.foldl fun _ h _ _ => .ite h h.homeWrite

protected theorem execHostMemRead (h : Keeps s₀ s) : KeepsNext s₀ (execHostMemRead off n s) :=
  .ite .fault (.ite (next { h with }) (next { h.hostRead with }))

protected theorem execHostMemWrite (h : Keeps s₀ s) : KeepsNext s₀ (execHostMemWrite off bs s) := by
  refine .ite .fault (.ite (next { h with }) (next (Keeps.watchWrite ?_)))
  exact h.hostWrite.foldl fun _ h _ _ => h.noteHolder

protected theorem snoopHost (h : Keeps s₀ s) : Keeps s₀ (snoopHost s a bs) := .ite (h.foldl fun _ h _ _ => h.cleanLine) h.homeWrite

protected theorem execHostSnoop (h : Keeps s₀ s) : KeepsNext s₀ (execHostSnoop a bs s) := next (.ite h.snoopHost.watchWrite h)

protected theorem execPlaybillWriteSnoop (h : Keeps s₀ s) : KeepsNext s₀ (execPlaybillWriteSnoop off bs s) := by
  unfold execPlaybillWriteSnoop
  split
  · refine .ite h.next (next (Keeps.watchWrite ?_))
    split
    · exact h.hostWrite.foldl fun _ h _ _ => h.noteHolder
    · exact .ite h h.snoopHost
  · exact h.next

protected theorem execQueueTailWrite (h : Keeps s₀ s) : KeepsNext s₀ (execQueueTailWrite n s) := by
  unfold execQueueTailWrite
  split
  · exact h.next
  · exact .ite h.next (next (h.foldl fun _ h _ _ => h.becomesReady))

end Links

/-! ### Service -/

section Service

/-- A reset empties everything but host memory. -/
protected theorem moduleReset (h : Keeps s₀ s) : Keeps s₀ (moduleReset s) where
  dmem _ := wf_nil
  hmem := h.hmem
  scratch _ := wf_nil
  l1 _ := Every.nil
  rdc _ := Every.nil

protected theorem execPowerOn (h : Keeps s₀ s) : KeepsNext s₀ (execPowerOn s) := h.moduleReset.next
protected theorem execPerst (h : Keeps s₀ s) : KeepsNext s₀ (execPerst s) := next (.ite h h.moduleReset)
protected theorem execCxlReset (h : Keeps s₀ s) : KeepsNext s₀ (execCxlReset s) := next (.ite h h.moduleReset)
protected theorem execI3cReset (h : Keeps s₀ s) : KeepsNext s₀ (execI3cReset s) := next (.ite { h.moduleReset with } h.moduleReset)
protected theorem execHoldEnd (h : Keeps s₀ s) : KeepsNext s₀ (execHoldEnd s) := next (.ite h.moduleReset h)

protected theorem execFunctionLevelReset (h : Keeps s₀ s) : KeepsNext s₀ (execFunctionLevelReset s) :=
  .ite h.next (next { h.dropPlaybill with })

protected theorem execPort1Reset (h : Keeps s₀ s) : KeepsNext s₀ (execPort1Reset s) := next (.ite h.loseLink h)
protected theorem dropAll (h : Keeps s₀ s) : Keeps s₀ (dropAll s) := { h with }
protected theorem execPowerFault (h : Keeps s₀ s) : KeepsNext s₀ (execPowerFault s) := next { h.dropAll with }
protected theorem execThermalTrip (h : Keeps s₀ s) : KeepsNext s₀ (execThermalTrip s) := next { h.dropAll with }
protected theorem execClockThrottle (h : Keeps s₀ s) : KeepsNext s₀ (execClockThrottle s) := next (.ite { h with } h)
protected theorem execClockRestore (h : Keeps s₀ s) : KeepsNext s₀ (execClockRestore s) := next (.ite { h with } h)
protected theorem execFreeze (h : Keeps s₀ s) : KeepsNext s₀ (execFreeze s) := next { h.dropAll with }
protected theorem execFreezeRelease (h : Keeps s₀ s) : KeepsNext s₀ (execFreezeRelease s) := next { h with }
protected theorem execScanShift (h : Keeps s₀ s) : KeepsNext s₀ (execScanShift s) := next { h with }
protected theorem execTelemetryRead (h : Keeps s₀ s) : KeepsNext s₀ (execTelemetryRead s) := next { h.draw with }

protected theorem execSpdmMctpRequest {msg : List Byte} (h : Keeps s₀ s) : KeepsNext s₀ (execSpdmMctpRequest msg s) :=
  .ite h.next (next { h.draw with })

end Service

/-! ### Every step -/

/-- An exchange that finds a lane still to be waited for leaves the lanes for the next choice. -/
protected theorem opAcross {i : Instr} {d : RegNo} {src : Nat → List Nat} {f : Nat → Word} {n : Nat} (h : Keeps s₀ s) :
    KeepsNext s₀ (opAcross i d src f n s) := .ite h.runRegs.next (next { h with })

section Synchronisation
variable {m : Bool} {d a b : RegNo}

protected theorem execFenceRel {c : BitVec 3} (h : Keeps s₀ s) : KeepsNext s₀ (execFenceRel m c s) := h.opRelease fun _ _ h => h.pair

protected theorem execFenceAcq {c : BitVec 3} (h : Keeps s₀ s) : KeepsNext s₀ (execFenceAcq m c s) :=
  h.opAcquire fun _ _ h => h.acquireOnce.pair

protected theorem execFenceAr {c : BitVec 3} (h : Keeps s₀ s) : KeepsNext s₀ (execFenceAr m c s) :=
  h.opAcquire fun _ _ h => h.releaseAt.acquireOnce.pair

protected theorem execPhase {c : BitVec 3} (h : Keeps s₀ s) : KeepsNext s₀ (execPhase m c a s) := by
  unfold execPhase
  exact h.opRelease fun _ _ h => h.arriveLane

protected theorem execBararv {c : BitVec 1} (h : Keeps s₀ s) : KeepsNext s₀ (execBararv m d a c s) := by
  unfold execBararv
  exact h.opRelease fun _ _ h => h.arriveLane

protected theorem execBarsync {c : BitVec 1} (h : Keeps s₀ s) : KeepsNext s₀ (execBarsync m d a c s) := by
  unfold execBarsync
  exact h.opRelease fun _ _ h => h.arriveLane

protected theorem execWaiteq (h : Keeps s₀ s) : KeepsNext s₀ (execWaiteq m d a b s) := by
  unfold execWaiteq
  exact h.opMonitor

protected theorem execWaitne (h : Keeps s₀ s) : KeepsNext s₀ (execWaitne m d a b s) := by
  unfold execWaitne
  exact h.opMonitor

protected theorem execWaitge (h : Keeps s₀ s) : KeepsNext s₀ (execWaitge m d a b s) := by
  unfold execWaitge
  exact h.opMonitor

end Synchronisation

section Slates
variable {m : Bool} {d a : RegNo} {n : BitVec 3}

protected theorem execSlclr (h : Keeps s₀ s) : KeepsNext s₀ (execSlclr m n s) := by
  unfold execSlclr
  exact h.opTicket

protected theorem execSlrd {c : BitVec 2} (h : Keeps s₀ s) : KeepsNext s₀ (execSlrd m d a c n s) := by
  unfold execSlrd
  exact h.opTicket

protected theorem execSlwr (h : Keeps s₀ s) : KeepsNext s₀ (execSlwr m d a n s) := by
  unfold execSlwr
  exact h.opTicket

protected theorem execSlstat (h : Keeps s₀ s) : KeepsNext s₀ (execSlstat m d a n s) := by
  unfold execSlstat
  exact h.opTicket

protected theorem execFifoclr {f : BitVec 2} (h : Keeps s₀ s) : KeepsNext s₀ (execFifoclr m f s) := by
  unfold execFifoclr
  exact h.opTicket

end Slates

/-- Every instruction and every event keeps the storage sound. -/
protected theorem exec {i : Instr} (h : Keeps s₀ s) : KeepsNext s₀ (exec i s) := by
  cases i with
  -- results of registers, in registers: integers, floats, the troupe's lanes
  | add | sub | mul | mulh | mulhn | mad | min | max | minn | maxn | adif | adds | subs | and | or | xor | andn | shl | shr | shra | rotl
  | sel | popc | clz | ctz | brev | seq | sne | slt | sle | sltn | slen | add64 | sub64 | mul64 | addx | addxn | shl64 | shr64 | shra64
  | div | divn | rem | remn | seq64 | slt64 | sltn64 | addi | andi | ori | xori | slti | sltni | muli | shli | shri | shrai | rotli
  | bfx | bfi | addxi | lui | lapc
  | fadd | fsub | fmul | fma | fmin | fmax | fabs | fneg | fsgn | feq | flt | fle | fclass | fnma | ftoi | fton | itof | ntof
  | f2bf | bf2f | f2h | h2f | f2e4 | e42f | f2e5 | e52f | frcp | frsq | fsqrt | fexp2 | flog2 | badd2 | bmul2 | bfma2 | bmax2 | rand | randf
  | dxq | ballot | vany | vall | redadd | redmin | redmax | redfadd | scanadd | scanaddx | movix | movixw | lmask
  -- the thread's own way on, and what it waits for
  | beq | bne | blt | bge | bltn | bgen | br | jal | jr | jalr | nop | trapI | brk | chk | tickwait | tlread | atabort | atstat | wincnt =>
    exact h.runRegs.next
  | dxd | shfl | shflx | shflup | shfldn => exact h.opAcross
  -- threads, windows, control words
  | exit => exact h.execExit
  | yield => exact h.execYield
  | eret => exact h.execEret
  | wbase => exact next (h.runWord fun _ _ h => h.setWindow)
  | rdcw => exact next (h.runWord fun _ _ h => h.latchCw)
  | wrcw => exact next (h.runWord fun _ _ h => h.writeCw)
  | spawn => exact next (h.runOrdered fun _ _ h => h.spawnLane)
  | jenrol => exact h.runRegs.updTroupe.next
  | jwait => exact h.runRegs.updTroupe.checkMask.next
  | jstrike => exact h.runRegs.strikeMask.next
  -- memory
  | ldg => exact next (Keeps.noteLate (h.runWord fun _ _ h => h.globalLane))
  | stg => exact h.opAccess fun _ _ h => h.globalLane
  | lds => exact h.opAccess fun _ _ h => h.offsetAccess
  | sts => exact h.opAccess fun _ _ h => h.offsetAccess.noteOperands
  | ldp | stp => exact h.opAccess fun _ _ h => h.ownAccess
  | pf => exact next (h.runWord fun _ _ h => h.prefetchLane)
  | cwb => exact next (h.runWord fun _ _ h => h.cacheLane fun _ _ _ h => h.cwbLine)
  | cinv => exact next (h.runWord fun _ _ h => h.cacheLane fun _ _ _ h => h.cinvLine)
  | cflush => exact next (h.runWord fun _ _ h => h.cacheLane fun _ _ _ h => h.cflushLine)
  | aadd | aand | aor | axor | amin | amax | aminn | amaxn | aswap | acas | acasgt | acasgtn | aaddD | aandD | aorD | axorD | aminD | amaxD
  | aminnD | amaxnD | aswapD | acasD | acasgtD | acasgtnD | acasver | acastag => exact h.opAtomic
  | atbeg => exact h.execAtbeg
  | atend => exact h.execAtend
  -- synchronisation and queues
  | fenceRel => exact h.execFenceRel
  | fenceAcq => exact h.execFenceAcq
  | fenceAr => exact h.execFenceAr
  | phase => exact h.execPhase
  | bararv => exact h.execBararv
  | barsync => exact h.execBarsync
  | barwait => exact h.execBarwait
  | barinit => exact h.execBarinit
  | waiteq => exact h.execWaiteq
  | waitne => exact h.execWaitne
  | waitge => exact h.execWaitge
  | tlwait => exact next (h.runWord fun _ _ h => .ite_fst h.acquireAt.pair h)
  | qpush => exact h.execQpush
  | qpop => exact h.execQpop
  | qtake => exact h.execQtake
  -- the engines and the matrix unit
  | copy | copyg | prefa => exact h.opCopy
  | fetchw => exact next (h.runOrdered fun _ _ h => h.fetchwLane)
  | put | puts | get => exact h.opFabric
  | mloop => exact h.execMloop
  | slclr => exact h.execSlclr
  | slrd => exact h.execSlrd
  | slwr => exact h.execSlwr
  | slstat => exact h.execSlstat
  | fifoclr => exact h.execFifoclr
  | slevt => exact h.execSlevt
  -- the reconciler, the ushers and the sections
  | snapshotQuiesce => exact h.execSnapshotQuiesce
  | classPlace => exact h.execClassPlace
  | steal => exact h.execSteal
  | classEnd => exact h.execClassEnd
  | preempt => exact h.execPreempt
  | residentKill => exact h.execResidentKill
  | fifoFeedFault => exact h.execFifoFeedFault
  | fetchwAnswer => exact h.execFetchwAnswer
  | tickBoundary => exact h.execTickBoundary
  | binTimerExpire => exact h.execBinTimerExpire
  | binLaunch => exact next (.ite h.launchBin h)
  | issueSelect => exact h.execIssueSelect
  | threadStarved => exact next (.ite h.updThread h)
  | laneWake => exact h.execLaneWake
  | pageWalk => exact h.execPageWalk
  | translationFaultResolve => exact h.execTranslationFaultResolve
  | phaseSweep => exact h.execPhaseSweep
  | monitorFire => exact h.execMonitorFire
  | signalDelivery => exact h.execSignalDelivery
  | illegalWord => exact h.execIllegalWord
  | deferredResultWrite => exact next (.ite h.writeDeferred h)
  | backstopSweep => exact h.execBackstopSweep
  | passStep => exact h.execPassStep
  -- copies, acts and the fabric
  | copyRequestStart => exact h.execCopyRequestStart
  | copyComplete => exact h.execCopyComplete
  | matrixStep => exact h.execMatrixStep
  | ticketedSlateAct => exact h.execTicketedSlateAct
  | fabricOpSend => exact h.execFabricOpSend
  | fabricOpSettle => exact h.execFabricOpSettle
  | fabricOpArrival => exact h.execFabricOpArrival
  | fabricPathTimeout => exact h.execFabricPathTimeout
  | gratricPortFail => exact h.execGratricPortFail
  | gratricPortTrain => exact h.execGratricPortTrain
  | flitResend => exact h.next
  | deviceNumberConflict => exact h.execDeviceNumberConflict
  -- the links, the host and service
  | pbenSet => exact h.execPbenSet
  | pbenClear => exact h.execPbenClear
  | doeAbort => exact h.execDoeAbort
  | doeDiscovery => exact h.execDoeDiscovery
  | spdmDoeRequest => exact h.execSpdmDoeRequest
  | spdmMctpRequest => exact h.execSpdmMctpRequest
  | dvsecRegisterWrite => exact h.execDvsecRegisterWrite
  | mbwrWrite => exact h.execMbwrWrite
  | mbrdWrite v => exact h.execMbrdWrite (v := v)
  | linkDown => exact h.execLinkDown
  | linkRetrain => exact h.execLinkRetrain
  | bisnpTimeout => exact h.execBisnpTimeout
  | playbillWriteSnoop => exact h.execPlaybillWriteSnoop
  | queueTailWrite => exact h.execQueueTailWrite
  | hostMemRead => exact h.execHostMemRead
  | hostMemWrite => exact h.execHostMemWrite
  | hostSnoop => exact h.execHostSnoop
  | telemetryRead => exact h.execTelemetryRead
  | i3cReset => exact h.execI3cReset
  | powerOn => exact h.execPowerOn
  | perst => exact h.execPerst
  | cxlReset => exact h.execCxlReset
  | functionLevelReset => exact h.execFunctionLevelReset
  | port1Reset => exact h.execPort1Reset
  | holdEnd => exact h.execHoldEnd
  | powerFault => exact h.execPowerFault
  | thermalTrip => exact h.execThermalTrip
  | clockThrottle => exact h.execClockThrottle
  | clockRestore => exact h.execClockRestore
  | freeze => exact h.execFreeze
  | freezeRelease => exact h.execFreezeRelease
  | scanShift => exact h.execScanShift
  | uncorrectableError => exact h.execUncorrectableError
  | correctedError => exact h.execCorrectedError

protected theorem step : KeepsNext s (step s) := by
  unfold Machine.step
  split
  · split
    · next e => exact Keeps.exec (refl.fetchWord.fst e)
    · next e => exact (refl.fetchWord.fst e).failFetch.next
  · split
    · next e => exact Keeps.exec (refl.nextEvent.fst e)
    · next e => exact (refl.nextEvent.fst e).next

end Keeps

/-- A step keeps the storage sound, canonical memories and whole cache lines both. -/
theorem keeps_of_step {s t : State} (h : step s = .next t) : Keeps s t := Keeps.step t h

/-- Settles O42: no operation of the model leaves a memory out of its canonical form, so no step does. -/
theorem memoryStaysCanonical : Obligations.MemoryStaysCanonical := fun _ _ hs h => (keeps_of_step h).memoryWf hs

end Sys2Proof.Laws

namespace Sys2Proof.Laws
open Sys2Proof.Machine Sys2Proof.Safety

/-! ## A module that does not run

Most events ask first whether the module runs, or whether its links answer: a frozen module leaves their effects out (R18). -/

section Frozen
variable {s t : State}

theorem running_of_frozen (hf : s.frozen = true) : running s = false := by simp [running, hf]
theorem answers_of_frozen (hf : s.frozen = true) : answers s = false := by simp [answers, running_of_frozen hf]
theorem ioAnswers_of_frozen (hf : s.frozen = true) : ioAnswers s = false := by simp [ioAnswers, running_of_frozen hf]

theorem settleOther_of_frozen {op : Nat} {refused : Bool} (hf : s.frozen = true) : settleOther s op refused = s := by
  unfold settleOther
  split
  · simp [running_of_frozen hf]
  · rfl

/-- The answer `o` of a meaning leaves `s` frozen and standing as it does, with the same events to come, if it leaves a state. -/
def StandsStill (s : State) (o : Out) : Prop := ∀ t, o = .next t → t.frozen = true ∧ still t = still s ∧ t.agenda = s.agenda

namespace StandsStill

theorem next (hf : t.frozen = true) (hs : still t = still s) (ha : t.agenda = s.agenda) : StandsStill s (.next t) :=
  fun _ e => Host.Outcome.next.inj e ▸ ⟨hf, hs, ha⟩

/-- An event that a frozen module ignores. -/
theorem same {o : Out} (hf : s.frozen = true) (e : o = .next s) : StandsStill s o := e ▸ next hf rfl rfl

/-- A host request outside the exported part ends in a fault, and leaves no state. -/
theorem fault {f : Fault} : StandsStill s (.fault f) := fun _ e => nomatch e

theorem ite {c : Prop} [Decidable c] {o o' : Out} (h : StandsStill s o) (h' : StandsStill s o') : StandsStill s (if c then o else o') := by
  split
  · exact h
  · exact h'

end StandsStill

open StandsStill in
/-- What comes from outside leaves a frozen module standing: it is ignored where it asks for a module that runs or for a link, and else it
changes only what `still` leaves out (R18). -/
theorem standsStill_exec {i : Instr} (hi : outside i = true) (hf : s.frozen = true) : StandsStill s (exec i s) := by
  have hr := running_of_frozen hf
  have ha := answers_of_frozen hf
  have hio := ioAnswers_of_frozen hf
  cases i with
  -- the host and its links
  | pbenSet => exact same hf (by simp [exec, execPbenSet, hio])
  | pbenClear => exact same hf (by simp [exec, execPbenClear, hio])
  | dvsecRegisterWrite => exact same hf (by simp [exec, execDvsecRegisterWrite, hio])
  | mbwrWrite => exact same hf (by simp [exec, execMbwrWrite, hio])
  | mbrdWrite => exact same hf (by simp [exec, execMbrdWrite, hio])
  | doeAbort => exact same hf (by simp [exec, execDoeAbort, hio])
  | doeDiscovery => exact same hf (by simp [exec, execDoeDiscovery, hio])
  | spdmDoeRequest => exact same hf (by simp [exec, execSpdmDoeRequest, hio])
  | linkDown => exact same hf (by simp [exec, execLinkDown, hr])
  | linkRetrain => exact same hf (by simp [exec, execLinkRetrain, hr])
  | bisnpTimeout =>
    refine same hf ?_
    simp only [exec, execBisnpTimeout, ha]
    split <;> simp
  | playbillWriteSnoop => exact same hf (by simp [exec, execPlaybillWriteSnoop, ha])
  | queueTailWrite =>
    refine same hf ?_
    simp only [exec, execQueueTailWrite, hr]
    split <;> simp
  | hostMemRead =>
    simp only [exec, execHostMemRead, ha, Bool.not_false, if_true]
    exact .ite fault (next hf rfl rfl)
  | hostMemWrite =>
    simp only [exec, execHostMemWrite, ha, Bool.not_false, if_true]
    exact .ite fault (next hf rfl rfl)
  | hostSnoop => exact same hf (by simp [exec, execHostSnoop, ha])
  -- the fabric
  | fabricOpArrival => exact same hf (by simp [exec, execFabricOpArrival, hr])
  | fabricOpSettle =>
    refine same hf ?_
    simp only [exec, execFabricOpSettle, hr, settleOther_of_frozen hf]
    split <;> simp
  | fabricPathTimeout =>
    refine same hf ?_
    simp only [exec, execFabricPathTimeout, hr, settleOther_of_frozen hf]
    split <;> simp
  | gratricPortFail => exact same hf (by simp [exec, execGratricPortFail, hr])
  | gratricPortTrain => exact same hf (by simp [exec, execGratricPortTrain, hr])
  | flitResend => exact same hf rfl
  | deviceNumberConflict => exact same hf (by simp [exec, execDeviceNumberConflict, hr])
  -- resets that do not act, power, clocks and the sideband
  | perst => exact same hf (by simp [exec, execPerst, hf])
  | cxlReset => exact same hf (by simp [exec, execCxlReset, hf])
  | functionLevelReset => exact same hf (by simp [exec, execFunctionLevelReset, hio])
  | port1Reset => exact same hf (by simp [exec, execPort1Reset, hr])
  | powerFault => exact next hf rfl rfl
  | thermalTrip => exact next hf rfl rfl
  | clockThrottle => exact same hf (by simp [exec, execClockThrottle, hr])
  | clockRestore => exact same hf (by simp [exec, execClockRestore, hr])
  | freeze => exact next rfl (by simp [still, dropAll, hf]) rfl
  | freezeRelease => exact next hf rfl rfl
  | scanShift => exact next hf rfl rfl
  | telemetryRead => exact next hf rfl rfl
  | spdmMctpRequest => exact same hf (by simp [exec, execSpdmMctpRequest, hr])
  -- errors
  | uncorrectableError => exact same hf (by simp [exec, execUncorrectableError, hr])
  | correctedError => exact same hf (by simp [exec, execCorrectedError, hr])
  | _ => exact nomatch hi

/-- A frozen module takes no step of its own: its next event comes from outside (R18). -/
theorem nextEvent_of_frozen (hf : s.frozen = true) : nextEvent s = nextOutside s := by simp [nextEvent, running_of_frozen hf]

theorem step_of_frozen_nil (hf : s.frozen = true) (ha : s.agenda = []) : step s = .next s := by
  cases hi : s.issue <;> simp [step, hi, running_of_frozen hf, nextEvent_of_frozen hf, nextOutside, ha]

theorem step_of_frozen_cons {i : Instr} {l : List Instr} (hf : s.frozen = true) (ha : s.agenda = i :: l) :
    step s = exec i { s with agenda := l } := by
  cases hi : s.issue <;> simp [step, hi, running_of_frozen hf, nextEvent_of_frozen hf, nextOutside, ha]

/-- Settles O44: the step takes the next event from outside, which leaves a frozen module standing. -/
theorem frozenModuleStandsStill : Obligations.FrozenModuleStandsStill := by
  rintro r s t ⟨hf, rfl, ho⟩ h
  cases ha : s.agenda with
  | nil =>
    rw [step_of_frozen_nil hf ha] at h
    exact Host.Outcome.next.inj h ▸ ⟨hf, rfl, ho⟩
  | cons i l =>
    rw [step_of_frozen_cons hf ha] at h
    rw [ha] at ho
    obtain ⟨htf, hts, (hta : t.agenda = l)⟩ := standsStill_exec (s := { s with agenda := l }) (ho i List.mem_cons_self) hf t h
    exact ⟨htf, hts, fun j hj => ho j (List.mem_cons_of_mem _ (hta ▸ hj))⟩

end Frozen
end Sys2Proof.Laws

namespace Sys2Proof.Laws
open Sys2Proof.Machine Sys2Proof.Safety

/-! ## Resets, clocks, scan and telemetry -/

theorem running_iff {s : State} : running s = true ↔ runs s := by simp [running, runs]

/-- Settles O41: each field of the reset state is written out in the model. -/
theorem resetState : Obligations.ResetState := by
  unfold Obligations.ResetState runs
  decide

section Service
variable {s : State}

theorem heldOff_iff : heldOff s = true ↔ s.hold = some .power ∨ s.hold = some .thermal := by simp [heldOff]

/-- The hold that the image's check leaves decides, with the FREEZE input, whether port 0's link trains (R82). -/
theorem moduleReset_afterReset : AfterReset s (moduleReset s) (imageHold s) := by
  unfold AfterReset moduleReset imageHold
  cases s.cfgFlash.verifies <;> rfl

theorem perst_of_frozen (hf : s.frozen = true) : ∀ e ∈ [Instr.perst, Instr.cxlReset], exec e s = .next s := by
  simp [exec, execPerst, execCxlReset, hf]

/-- PERST and CXL_RESET act on a module neither frozen nor held for power or temperature (R15, R17, R18, R20). -/
theorem perst_of_not_held (hf : s.frozen = false) (hh : heldOff s = false) :
    ∀ e ∈ [Instr.perst, Instr.cxlReset], exec e s = .next (moduleReset s) := by
  simp [exec, execPerst, execCxlReset, hf, hh]

theorem holdEnd_of_held (hh : heldOff s = true) : exec .holdEnd s = .next (moduleReset s) := by simp [exec, execHoldEnd, hh]

/-- A hold for power or temperature outlasts I3C_RESET, with the link down (R20; log 53, DEDUCED). -/
theorem i3cReset_of_held (hh : heldOff s = true) : ∃ t, exec .i3cReset s = .next t ∧ AfterReset s t s.hold := by
  refine ⟨{ moduleReset s with hold := s.hold, linkUp0 := false }, by simp [exec, execI3cReset, hh], ?_⟩
  obtain h | h := heldOff_iff.1 hh <;> rw [AfterReset, h] <;> rfl

theorem i3cReset_of_not_held (hh : heldOff s = false) : exec .i3cReset s = .next (moduleReset s) := by
  simp [exec, execI3cReset, hh]

theorem clockThrottle_of_runs (hr : runs s) :
    exec .clockThrottle s = .next { s with mainMHz := if s.mainMHz < 1000 then 950 else s.mainMHz - 50 } := by
  have hm : max 950 (s.mainMHz - 50) = if s.mainMHz < 1000 then 950 else s.mainMHz - 50 := by split <;> omega
  simp [exec, execClockThrottle, running_iff.2 hr, hm]

theorem clockRestore_of_runs (hr : runs s) :
    exec .clockRestore s = .next { s with mainMHz := if 1850 < s.mainMHz then 1900 else s.mainMHz + 50 } := by
  have hm : min 1900 (s.mainMHz + 50) = if 1850 < s.mainMHz then 1900 else s.mainMHz + 50 := by split <;> omega
  simp [exec, execClockRestore, running_iff.2 hr, hm]

theorem length_telemetry (k : Nat) : (telemetry s k).length = 2100 := by simp [telemetry]

theorem telemetry_clock (k : Nat) : (telemetry s k).getD 51 0 = s.mainMHz := by
  simp [telemetry, List.getD_eq_getElem?_getD]

theorem telemetry_corrected (k : Nat) {u : Nat} (hu : u < 1024) : (telemetry s k).getD (52 + u) 0 = tget 0 s.errCorrected u := by
  rw [List.getD_eq_getElem?_getD, telemetry, List.getElem?_append_left (by simp; omega), List.getElem?_append_right (by simp)]
  simp [hu]

theorem telemetry_uncorrected (k : Nat) {u : Nat} (hu : u < 1024) : (telemetry s k).getD (1076 + u) 0 = tget 0 s.errUncorrected u := by
  rw [List.getD_eq_getElem?_getD, telemetry, List.getElem?_append_right (by simp)]
  simp [hu]

theorem correctedError_of_runs {unit : Nat} (hr : runs s) (hu : unit < 1024) :
    exec (.correctedError unit) s = .next { s with errCorrected := tset 0 s.errCorrected unit (tget 0 s.errCorrected unit + 1) } := by
  simp [exec, execCorrectedError, running_iff.2 hr, hu]

end Service

/-- Settles O46, clause by clause: the resets by `moduleReset_afterReset`, the readings by where they stand in `telemetry`. -/
theorem resetsClocksAndTelemetry : Obligations.ResetsClocksAndTelemetry := by
  refine ⟨fun s => ⟨⟨_, rfl, moduleReset_afterReset⟩, ?_, fun e he => ⟨fun hf hp ht => ?_, fun hf => perst_of_frozen hf e he⟩, fun hh => ?_,
      rfl, rfl, rfl, rfl⟩,
    fun s => ⟨fun hr => ⟨clockThrottle_of_runs hr, clockRestore_of_runs hr⟩, ?_, ?_, fun unit hr hu => ?_⟩⟩
  · split
    · next hh => exact i3cReset_of_held (heldOff_iff.2 hh)
    · next hh => exact ⟨_, i3cReset_of_not_held (Bool.eq_false_iff.2 (mt heldOff_iff.1 hh)), moduleReset_afterReset⟩
  · have hh : heldOff s = false := by simp [heldOff, hp, ht]
    exact ⟨_, perst_of_not_held hf hh e he, moduleReset_afterReset⟩
  · exact ⟨_, holdEnd_of_held (heldOff_iff.2 hh), moduleReset_afterReset⟩
  · simp [exec, execScanShift]
  · exact ⟨_, telemetry s (draw s).1, rfl, rfl, length_telemetry _, telemetry_clock _,
      fun _ hk => ⟨telemetry_corrected _ hk, telemetry_uncorrected _ hk⟩⟩
  · refine ⟨_, correctedError_of_runs hr hu, rfl, fun k => ?_⟩
    by_cases h : unit = k <;> simp [tget_tset, h, eq_comm]

end Sys2Proof.Laws

namespace Sys2Proof.Laws
open Sys2Proof.Machine Sys2Proof.Safety

/-! ## What lies beyond the caches

No operation of the caches, the TLBs or the home memories touches the rest of the module: `beyondCaches` of the state that it leaves is
`beyondCaches` of the state that it was given. -/

/-- The state without memory, what is cached of it, and the accesses under way to it. -/
def beyondCaches (s : State) : State :=
  { s with dmem := [], hmem := [], l1 := [], rdc := [], icache := [], passing := [], early := [], lateStores := [], lateLoads := [],
           badDev := [], badHost := [], biasHolders := [], coreTlb := [], dieTlb := [] }

/-- What reads the same without the caches is the same in two states that differ in them alone. -/
theorem eq_of_beyondCaches {β : Type} {g : State → β} {s t : State} (hg : ∀ u, g (beyondCaches u) = g u)
    (h : beyondCaches t = beyondCaches s) : g t = g s := by rw [← hg t, h, hg s]

/-- A fold of steps that each leave a reading of the state as it was leaves it as it was. -/
theorem foldl_unchanged {α β : Type} {g : State → β} {f : State → α → State} (hf : ∀ s x, g (f s x) = g s) (l : List α) (s : State) :
    g (l.foldl f s) = g s := by
  induction l generalizing s with
  | nil => rfl
  | cons x l ih => exact (ih (f s x)).trans (hf s x)

section Caches
variable {s : State} {core die line k n page ctx : Nat} {host : Bool} {pl : Place} {ln : L1Line} {bs : List Byte} {dirty : List Bool}

@[simp] theorem beyondCaches_recallHost : beyondCaches (recallHost s pl n) = beyondCaches s := by
  unfold recallHost
  split <;> rfl

@[simp] theorem beyondCaches_setHome {m : Memory} : beyondCaches (setHome s host m) = beyondCaches s := by cases host <;> rfl

@[simp] theorem beyondCaches_mended {w : Nat → Bool} : beyondCaches (mended s host w) = beyondCaches s := by cases host <;> rfl

@[simp] theorem beyondCaches_landHome : beyondCaches (landHome s host line bs dirty) = beyondCaches s := by simp [landHome]

@[simp] theorem beyondCaches_landPassing {w : Passing} : beyondCaches (landPassing s w) = beyondCaches s := beyondCaches_landHome (s := s)

@[simp] theorem beyondCaches_settlePassing {p : Passing → Bool} : beyondCaches (settlePassing s p) = beyondCaches s :=
  foldl_unchanged (fun _ _ => beyondCaches_landPassing) _ s

@[simp] theorem beyondCaches_settleLine : beyondCaches (settleLine s die line) = beyondCaches s := beyondCaches_settlePassing

@[simp] theorem beyondCaches_sendBack : beyondCaches (sendBack s k ln) = beyondCaches s := by
  unfold sendBack
  split
  · rfl
  · extract_lets line die s₁ s₂
    have h₁ : beyondCaches s₁ = beyondCaches s := by unfold s₁; split <;> rfl
    have h₂ : beyondCaches s₂ = beyondCaches s₁ := by
      unfold s₂
      split
      · rfl
      · exact beyondCaches_landHome
    exact Eq.trans (b := beyondCaches s₂) rfl (h₂.trans h₁)

@[simp] theorem beyondCaches_writeBack : beyondCaches (writeBack s k ln) = beyondCaches s := by simp [writeBack]

@[simp] theorem beyondCaches_flushLine : beyondCaches (flushLine s k) = beyondCaches s := by
  unfold flushLine
  split
  · rfl
  · split
    · rfl
    · exact beyondCaches_writeBack

@[simp] theorem beyondCaches_cleanLine : beyondCaches (cleanLine s k) = beyondCaches s := by
  unfold cleanLine
  split
  · rfl
  · split
    · rfl
    · exact beyondCaches_writeBack

@[simp] theorem beyondCaches_invalidateOthers : beyondCaches (invalidateOthers s core host line) = beyondCaches s := by
  have hf := foldl_unchanged (g := beyondCaches) (f := flushLine) (fun _ _ => beyondCaches_flushLine) (otherHolders s core host line) s
  unfold invalidateOthers
  split
  · exact hf
  · exact hf

@[simp] theorem beyondCaches_fetchLine : beyondCaches (fetchLine s core pl).1 = beyondCaches s := by
  unfold fetchLine
  extract_lets line die miss
  have hm : beyondCaches (miss s).1 = beyondCaches s := by
    have hu : beyondCaches (if pl.host then s else settleLine s die line) = beyondCaches s := by split <;> simp
    dsimp only [miss]
    generalize (if pl.host then s else settleLine s die line) = u at hu
    split
    · exact hu
    · exact hu
  clear_value miss
  split
  · exact hm
  · split
    · split
      · rfl
      · exact hm
    · exact hm

@[simp] theorem beyondCaches_fillLine {ro : Option Nat} : beyondCaches (fillLine s core pl ro) = beyondCaches s := by
  unfold fillLine
  extract_lets k p good s₁ q s₁'
  have h₁ : beyondCaches s₁ = beyondCaches s := by
    unfold s₁
    split
    · rfl
    · exact foldl_unchanged (fun _ _ => beyondCaches_cleanLine) _ s
  have hq : beyondCaches q.1 = beyondCaches s := beyondCaches_fetchLine.trans h₁
  split
  · split
    · rfl
    · exact hq
  · exact hq

@[simp] theorem beyondCaches_dropEarly : beyondCaches (dropEarly s k) = beyondCaches s := rfl

@[simp] theorem beyondCaches_takeToken : beyondCaches (takeToken s core pl) = beyondCaches s := by
  refine Eq.trans (b := beyondCaches (fillLine (invalidateOthers (recallHost (dropEarly s _) pl 1) core pl.host (pl.pa / 128)) core pl none)) rfl ?_
  simp

@[simp] theorem beyondCaches_readyToWrite : beyondCaches (readyToWrite s core pl) = beyondCaches s := by
  unfold readyToWrite
  split
  · exact beyondCaches_fillLine
  · split
    · rfl
    · exact beyondCaches_takeToken

@[simp] theorem beyondCaches_performStore {wt : Bool} : beyondCaches (performStore s core pl wt bs) = beyondCaches s := by
  unfold performStore
  extract_lets k off s₁ s₂
  have h₁ : beyondCaches s₁ = beyondCaches s := by simp [s₁]
  have h₂ : beyondCaches s₂ = beyondCaches s := h₁
  split
  · split
    · exact beyondCaches_writeBack.trans h₂
    · exact h₂
  · exact h₂

@[simp] theorem beyondCaches_settleStores {p : LateStore → Bool} : beyondCaches (settleStores s p) = beyondCaches s :=
  foldl_unchanged (fun _ _ => beyondCaches_performStore) _ { s with lateStores := _ }

@[simp] theorem beyondCaches_flushPage : beyondCaches (flushPage s host page) = beyondCaches s := by
  unfold flushPage
  extract_lets inPage s₁ s₂ s₃ s₄ s₅
  have h₂ : beyondCaches s₂ = beyondCaches s := (foldl_unchanged (fun _ _ => beyondCaches_flushLine) _ s₁).trans beyondCaches_settleStores
  clear_value s₂
  have h₅ : beyondCaches s₅ = beyondCaches s := beyondCaches_settlePassing.trans h₂
  split
  · exact h₂
  · exact h₅

@[simp] theorem beyondCaches_shootdown : beyondCaches (shootdown s ctx) = beyondCaches s := by
  unfold shootdown
  extract_lets s₁ s₂
  have h₁ : beyondCaches s₁ = beyondCaches s := beyondCaches_settleStores
  have h₂ : beyondCaches s₂ = beyondCaches s :=
    beyondCaches_settlePassing.trans ((foldl_unchanged (fun _ _ => beyondCaches_writeBack) _ s₁).trans h₁)
  clear_value s₂
  exact h₂

end Caches

end Sys2Proof.Laws

namespace Sys2Proof.Laws
open Sys2Proof.Machine Sys2Proof.Safety

/-! ## Port 0's link, the latched playbill and the pass's mishap

Marks, page tables and flips of bias leave these three as they are, which is what the statements on links ask of them. -/

/-- Port 0's link, the latched playbill, and the outside event that falls in the pass. -/
def linkState (s : State) : Bool × Option (Nat × Nat) × Option Mishap := (s.linkUp0, s.playbill, s.mishap)

theorem linkState_of_beyondCaches {s t : State} (h : beyondCaches t = beyondCaches s) : linkState t = linkState s :=
  eq_of_beyondCaches (fun _ => rfl) h

theorem linkUp0_of_linkState {s t : State} (h : linkState t = linkState s) : t.linkUp0 = s.linkUp0 := congrArg Prod.fst h
theorem playbill_of_linkState {s t : State} (h : linkState t = linkState s) : t.playbill = s.playbill := congrArg (·.2.1) h
theorem mishap_of_linkState {s t : State} (h : linkState t = linkState s) : t.mishap = s.mishap := congrArg (·.2.2) h

section Marks
variable {s : State} {id : Nat}

@[simp] theorem linkState_putMark {m : Mark} : linkState (putMark s id m) = linkState s := by
  unfold putMark
  extract_lets sq s₁
  have h₁ : linkState s₁ = linkState s := linkState_of_beyondCaches beyondCaches_recallHost
  exact h₁

@[simp] theorem entryAt_putMark {m : Mark} {j : Nat} : entryAt (putMark s id m) j = entryAt s j := by
  unfold putMark
  extract_lets sq s₁
  have h₁ : entryAt s₁ j = entryAt s j := eq_of_beyondCaches (g := fun u => entryAt u j) (fun _ => rfl) beyondCaches_recallHost
  exact h₁

@[simp] theorem entryAt_setEntry {e : Entry} : entryAt (setEntry s id e) id = e := by simp [entryAt, setEntry, tget]

variable {st : MarkState} {step reason done total k : Nat}

@[simp] theorem linkState_markAs : linkState (markAs s id st step reason done total) = linkState s := by
  unfold markAs writeMark
  extract_lets w e aside still fin s₁
  split
  · rfl
  · exact linkState_putMark

/-- The state and the reason that a record stands in after a mark that is neither CONFLICT nor REFUSED (R65). -/
theorem stand_markAs (h : (st == .conflict || st == .refused) = false) :
    (entryAt (markAs s id st step reason done total) id).stand.state = st
      ∧ (entryAt (markAs s id st step reason done total) id).stand.reason = reason := by
  unfold markAs writeMark
  extract_lets w e aside still fin s₁
  have ha : aside = false := h
  split <;> simp [s₁, ha]

@[simp] theorem linkState_partMarks : linkState (partMarks s id st step reason k total) = linkState s := by
  refine (foldl_unchanged (fun s d => ?_) _ _).trans linkState_markAs
  unfold progressMark
  split
  · exact linkState_markAs
  · rfl

end Marks

section Flips
variable {s : State} {ctx va lv e vp page : Nat} {m : Map} {bias : Bool}

theorem linkState_takeTable {q : State × Nat} (h : takeTable s ctx = some q) : linkState q.1 = linkState s := by
  obtain ⟨p, hp, rfl⟩ := Option.map_eq_some_iff.1 h
  obtain ⟨_, -, rfl⟩ := Option.map_eq_some_iff.1 hp
  rfl

@[simp] theorem linkState_setLeaf {target root : Nat} : linkState (setLeaf ctx target va e lv s root) = linkState s := by
  induction lv generalizing s root with
  | zero => rfl
  | succ lv ih =>
    unfold setLeaf
    extract_lets a p
    split
    · rfl
    · split
      · exact ih
      · split
        · next h => exact ih.trans (linkState_takeTable h)
        · rfl

@[simp] theorem linkState_enterLeaf : linkState (enterLeaf s ctx va lv e) = linkState s := by
  unfold enterLeaf
  split
  · exact linkState_setLeaf
  · rfl

@[simp] theorem linkState_dropLeaf : linkState (dropLeaf s ctx va) = linkState s := by
  unfold dropLeaf
  split <;> rfl

@[simp] theorem linkState_enterUnit {ads : List (Nat × Bool × Bool)} : linkState (enterUnit s m vp ads) = linkState s :=
  (foldl_unchanged (fun _ _ => linkState_enterLeaf) ads _).trans (foldl_unchanged (fun _ _ => linkState_dropLeaf) _ s)

@[simp] theorem linkState_flipPage : linkState (flipPage m bias s vp) = linkState s := by
  unfold flipPage
  extract_lets p s₁ s₂
  have h₂ : beyondCaches s₂ = beyondCaches s := by
    unfold s₂
    split <;> simp [s₁]
  exact Eq.trans (b := linkState s₂) rfl (linkState_of_beyondCaches h₂)

@[simp] theorem linkState_flipPages {vps : List Nat} : linkState (flipPages s m bias vps) = linkState s :=
  (foldl_unchanged (fun _ _ => linkState_enterUnit) _ _).trans (foldl_unchanged (fun _ _ => linkState_flipPage) vps s)

@[simp] theorem linkState_shootdown : linkState (shootdown s ctx) = linkState s := linkState_of_beyondCaches beyondCaches_shootdown

end Flips

/-! ## The links -/

section Links
variable {s : State} {rid : Nat} {m : Map}

theorem answers_iff : answers s = true ↔ runs s ∧ linksUp s = true := by simp [answers, running_iff]

theorem beyondCaches_linkSettled : beyondCaches (linkSettled s) = beyondCaches s := beyondCaches_settleStores
theorem dvsec_linkSettled : (linkSettled s).dvsec = s.dvsec := eq_of_beyondCaches (g := fun u => u.dvsec) (fun _ => rfl) beyondCaches_linkSettled
theorem port1Used_linkSettled : (linkSettled s).port1Used = s.port1Used :=
  eq_of_beyondCaches (g := fun u => u.port1Used) (fun _ => rfl) beyondCaches_linkSettled

theorem dropLink_port1 (hu : s.port1Used = true) : dropLink s 1 = dropPlaybill { s with linkUp1 := false } := by
  simp [dropLink, portUsed, hu]

/-- Port 0 is always in use: with its link the playbill goes (R24). -/
theorem loseLink_port0 : loseLink s 0 = dropPlaybill { linkSettled s with linkUp0 := false } := rfl

theorem loseLink_port1 (hu : s.port1Used = true) : loseLink s 1 = dropPlaybill { linkSettled s with linkUp1 := false } := by
  have hp : portUsed s 1 = true := by simp [portUsed, hu]
  rw [← dropLink_port1 (port1Used_linkSettled.trans hu), loseLink, if_pos hp]
  rfl

/-- A link settled as it drops has the error bit as it was. -/
theorem unlatched_linkSettled {u : State} (h : u.dvsec = (linkSettled s).dvsec) : Unlatched u (dropPlaybill u) s.dvsec.pberr := by
  rw [← dvsec_linkSettled, ← h]
  rfl

/-- The loss of a link that is not in use has no other effect. -/
theorem loseLink_unused (hu : s.port1Used = false) : loseLink s 1 = { s with linkUp1 := false } := by
  simp [loseLink, dropLink, portUsed, hu]

theorem mishap_loseLink_port0 : (loseLink s 0).mishap = s.mishap :=
  have hm : (linkSettled s).mishap = s.mishap := eq_of_beyondCaches (g := fun u => u.mishap) (fun _ => rfl) beyondCaches_linkSettled
  hm

theorem linkDown_of_runs {port : Nat} (hr : runs s) (hp : port < 2) : exec (.linkDown port) s = .next (loseLink s port) := by
  simp [exec, execLinkDown, running_iff.2 hr, hp]

theorem port1Reset_of_used (hr : runs s) (hu : s.port1Used = true) : exec .port1Reset s = .next (loseLink s 1) := by
  simp [exec, execPort1Reset, running_iff.2 hr, hu]

theorem linkRetrain_port0 (hr : runs s) : exec (.linkRetrain 0) s = .next { s with linkUp0 := true } := by
  simp [exec, execLinkRetrain, running_iff.2 hr]

theorem linkRetrain_port1 (hr : runs s) : exec (.linkRetrain 1) s = .next { s with linkUp1 := true, port1Used := true } := by
  simp [exec, execLinkRetrain, running_iff.2 hr]

/-- A BISnp without an answer in a use of a mapping that the device snoops for: the link fails, and the mark says so (R26). -/
theorem bisnpTimeout_in_use (hr : runs s) (hl : linksUp s = true) (hm : tfind s.maps rid = some m) (hk : recKind (builtOf s rid) = 2)
    (hs : snoopsHost s m = true) (hp : strickenPass s (.bisnp rid 0) = none) :
    ∃ t, exec (.bisnpTimeout rid 0) s = .next t ∧ t.linkUp0 = false ∧ t.playbill = none
      ∧ (entryAt t rid).stand.state = .faulted ∧ (entryAt t rid).stand.reason = 0x0302 := by
  have he : exec (.bisnpTimeout rid 0) s = .next (markAs (updEntry (loseLink s 0) rid (fun e => { e with plan := [] })) rid .faulted
      (entryAt s rid).stand.step rLINK (entryAt s rid).stand.done (entryAt s rid).stand.total) := by
    simp [exec, execBisnpTimeout, hp, hm, answers_iff.2 ⟨hr, hl⟩, portUsed, hk, kMapping, hs]
  refine ⟨_, he, ?_, ?_, (stand_markAs rfl).1, (stand_markAs rfl).2⟩
  · exact linkUp0_of_linkState linkState_markAs
  · exact playbill_of_linkState linkState_markAs

/-- Step 0x04 where it ends at the page of index `j` among those that are to flip, `vps`. -/
def biasUpTo (s : State) (rid : Nat) (m : Map) (vps : List Nat) (j : Nat) : State :=
  shootdown (flipPages (partMarks s rid .converging 4 0 (vps.getD j 0 - m.va / 4096) (m.len / 4096)) m false (vps.take j)) m.ctx

theorem linkState_biasUpTo {vps : List Nat} {j : Nat} : linkState (biasUpTo s rid m vps j) = linkState s := by simp [biasUpTo]

/-- A flip to device bias does not begin while a link is down (R24). -/
theorem biasStep_of_linkDown (hf : flipping s m false ≠ []) (hl : linksUp s = false) :
    biasStep s rid m false = (biasUpTo s rid m (flipping s m false) 0, some (rLINK, (flipping s m false).getD 0 0 - m.va / 4096)) := by
  simp [biasStep, biasUpTo, hf, hl]

/-- A flip to device bias whose BISnp has no answer ends at a page that is free, and the link fails (R24, R26). -/
theorem biasStep_of_mishap (hf : flipping s m false ≠ []) (hl : linksUp s = true) (hm : s.mishap = some (.bisnp rid 0)) :
    let j := (draw s).1 % (flipping s m false).length
    biasStep s rid m false = (loseLink (biasUpTo { (draw s).2 with mishap := none } rid m (flipping s m false) j) 0,
      some (rLINK, (flipping s m false).getD j 0 - m.va / 4096)) := by
  simp [biasStep, biasUpTo, hf, hl, hm]

/-- The step of a flip that no answer comes to ends with LINK at a page that was to flip, and the outside event is spent. -/
theorem biasStep_mishap_ends {rid : Nat} {m : Map} (hf : flipping s m false ≠ []) (hl : linksUp s = true) (hm : s.mishap = some (.bisnp rid 0)) :
    ∃ t k, biasStep s rid m false = (t, some (0x0302, k)) ∧ t.linkUp0 = false ∧ t.mishap = none
      ∧ ∃ w ∈ flipping s m false, k = w - m.va / 4096 := by
  have hj : (draw s).1 % (flipping s m false).length < (flipping s m false).length := Nat.mod_lt _ (List.length_pos_iff.2 hf)
  refine ⟨_, _, biasStep_of_mishap hf hl hm, rfl, ?_, _, ?_, rfl⟩
  · rw [mishap_loseLink_port0, mishap_of_linkState linkState_biasUpTo]
  · rw [← List.getElem_eq_getD (h := hj)]
    exact List.getElem_mem hj

end Links
end Sys2Proof.Laws

namespace Sys2Proof.Laws
open Sys2Proof.Machine Sys2Proof.Safety

/-! ## Numbers as bytes

The model's byte lists against the sums of the statements (R2). -/

section Bytes

theorem bytesOfNat_eq_numberBytes (n v : Nat) : bytesOfNat n v = numberBytes n v := by
  induction n generalizing v with
  | zero => rfl
  | succ n ih =>
    have hd (j : Nat) : v / 2 ^ (8 * (j + 1)) = v / 256 / 2 ^ (8 * j) := by rw [Nat.mul_succ, Nat.add_comm, Nat.pow_add, Nat.div_div_eq_div_mul]
    simp [bytesOfNat, ih, numberBytes, List.range_succ_eq_map, hd]

theorem length_bytesOfNat (n v : Nat) : (bytesOfNat n v).length = n := by simp [bytesOfNat_eq_numberBytes, numberBytes]

/-- The four bytes of a dword are its slices. -/
theorem bytesOfNat_word (w : Word) : bytesOfNat 4 w.toNat = (List.range 4).map (fun j => w.extractLsb' (8 * j) 8) := by
  rw [bytesOfNat_eq_numberBytes]
  refine List.map_congr_left fun j _ => ?_
  rw [BitVec.extractLsb', Nat.shiftRight_eq_div_pow]

theorem sumOf_mul_left (ls : List Nat) (f : Nat → Nat) (c : Nat) : sumOf ls (fun x => c * f x) = c * sumOf ls f := by
  induction ls with
  | nil => rfl
  | cons x ls ih => exact (congrArg (c * f x + ·) ih).trans (Nat.mul_add ..).symm

theorem littleEndian_succ (n : Nat) (b : Nat → Byte) :
    littleEndian (n + 1) b = (b 0).toNat + 256 * littleEndian n (fun j => b (j + 1)) := by
  have hp (j : Nat) : (b (j + 1)).toNat * 2 ^ (8 * (j + 1)) = 256 * ((b (j + 1)).toNat * 2 ^ (8 * j)) := by
    rw [Nat.mul_succ, Nat.pow_add, ← Nat.mul_assoc, Nat.mul_comm]
  rw [littleEndian, littleEndian, ← sumOf_mul_left]
  simp only [sumOf, List.range_succ_eq_map, List.map_cons, List.map_map, List.sum_cons, Function.comp_def, Nat.succ_eq_add_one, hp,
    Nat.mul_zero, Nat.pow_zero, Nat.mul_one]

theorem wordOfBytes_take (bs : List Byte) (n : Nat) : wordOfBytes (bs.take n) = littleEndian n (fun j => bs.getD j 0) := by
  induction n generalizing bs with
  | zero => rfl
  | succ n ih =>
    rw [littleEndian_succ]
    cases bs with
    | nil =>
      have h : wordOfBytes [] = littleEndian n (fun j => ([] : List Byte).getD (j + 1) 0) :=
        (congrArg wordOfBytes List.take_nil.symm).trans (ih [])
      rw [List.take_nil, ← h]
      rfl
    | cons b bs => exact congrArg (b.toNat + 256 * ·) (ih bs)

theorem fieldAt_eq_littleEndian (bs : List Byte) (o n : Nat) : fieldAt bs o n = littleEndian n (fun j => bs.getD (o + j) 0) := by
  simp [fieldAt, wordOfBytes_take, List.getD_eq_getElem?_getD]

end Bytes

/-! ## The DVSEC -/

section Dvsec
variable {s : State}

theorem ioAnswers_iff : ioAnswers s = true ↔ runs s ∧ s.linkUp0 = true := by simp [ioAnswers, running_iff]

theorem playbillOk_iff {b n : Nat} : playbillOk s b n = true ↔ latchable s b n := by simp [playbillOk, latchable, and_assoc]

theorem pbenSet_of_pben (hp : s.dvsec.pben = true) : exec .pbenSet s = .next s := by simp [exec, execPbenSet, hp]

theorem pbenSet_of_linkDown (hl : linksUp s = false) : exec .pbenSet s = .next s := by simp [exec, execPbenSet, hl]

/-- Setting PBEN latches the range that the registers hold, if it is allowed (R28). -/
theorem pbenSet_of_latchable (hio : ioAnswers s = true) (hl : linksUp s = true) (hp : s.dvsec.pben = false)
    (h : latchable s (pbBase s.dvsec) s.dvsec.count.toNat) : exec .pbenSet s = .next
      { s with playbill := some (pbBase s.dvsec, s.dvsec.count.toNat), fullRead := true, wake := true,
               dvsec := { s.dvsec with pben := true, pblive := true, pberr := false } } := by
  simp [exec, execPbenSet, hio, hl, hp, playbillOk_iff.2 h]

/-- A range that is not allowed sets PBERR. -/
theorem pbenSet_of_not_latchable (hio : ioAnswers s = true) (hl : linksUp s = true) (hp : s.dvsec.pben = false)
    (h : ¬ latchable s (pbBase s.dvsec) s.dvsec.count.toNat) : exec .pbenSet s = .next { s with dvsec := { s.dvsec with pberr := true } } := by
  simp [exec, execPbenSet, hio, hl, hp, mt playbillOk_iff.1 h]

theorem pbenClear_of_answers (hio : ioAnswers s = true) : ∃ t, exec .pbenClear s = .next t ∧ Unlatched s t false :=
  ⟨_, by simp only [exec, execPbenClear, hio]; rfl, rfl⟩

/-- A function-level reset with PBEN set lets the playbill go, and PBERR with it (R20, R28). -/
theorem functionLevelReset_of_answers (hio : ioAnswers s = true) : exec .functionLevelReset s = .next
    { s with playbill := none, fullRead := false, flags := [], watch := [],
             dvsec := { Dvsec.reset with pberr := s.dvsec.pberr && !s.dvsec.pben, mbstat := s.dvsec.mbstat, mbwr := s.dvsec.mbwr } } := by
  simp [exec, execFunctionLevelReset, hio, dropPlaybill]

/-- The base and the count take what is written while PBEN is 0 (R28). -/
theorem dvsecWrite_of_not_pben (hio : ioAnswers s = true) (hp : s.dvsec.pben = false) (v : Word) :
    exec (.dvsecRegisterWrite 0 0x10 v) s = .next { s with dvsec := { s.dvsec with baseLo := v.extractLsb' 12 20 } }
      ∧ exec (.dvsecRegisterWrite 0 0x14 v) s = .next { s with dvsec := { s.dvsec with baseHi := v.extractLsb' 0 20 } }
      ∧ exec (.dvsecRegisterWrite 0 0x18 v) s = .next { s with dvsec := { s.dvsec with count := v.extractLsb' 0 21 } } := by
  simp [exec, execDvsecRegisterWrite, hio, hp]

theorem dvsecWrite_of_pben (hp : s.dvsec.pben = true) (v : Word) : ∀ o ∈ [0x10, 0x14, 0x18], exec (.dvsecRegisterWrite 0 o v) s = .next s := by
  simp [exec, execDvsecRegisterWrite, hp]

/-- MKIEN, MKVEC and MBCTL take what is written, and port 1's copy of them nothing (R27). -/
theorem dvsecWrite_interrupts (hio : ioAnswers s = true) (v : Word) :
    exec (.dvsecRegisterWrite 0 0x24 v) s = .next { s with dvsec := { s.dvsec with mkien := v.getLsbD 15, mkvec := v.extractLsb' 0 11 } }
      ∧ exec (.dvsecRegisterWrite 0 0x28 v) s = .next { s with dvsec := { s.dvsec with mbctl := if v.getLsbD 1 then 2 else 0 } }
      ∧ exec (.dvsecRegisterWrite 1 0x24 v) s = .next s := by
  have h : v &&& 2 = if v.getLsbD 1 then 2 else 0 := BitVec.and_twoPow v 1
  simpa [exec, execDvsecRegisterWrite, hio] using h

/-- The header: the capability and the DVSEC's length, revision and ID, and the status bits as they stand (R27). -/
theorem dvsecWord_header (port : Nat) : (dvsecWord s port 0).toNat % 2 ^ 20 = 0x10023 ∧ (dvsecWord s port 4).toNat / 2 ^ 20 = 0x3C
    ∧ dvsecWord s port 8 = 1 ∧ dvsecWord s port 0x38 = 0x100 ∧ (dvsecWord s port 0xC).getLsbD 0 = s.dvsec.pben
    ∧ (dvsecWord s port 0xC).getLsbD 1 = s.dvsec.pblive ∧ (dvsecWord s port 0xC).getLsbD 2 = s.dvsec.pberr := by
  have hn := (Config.nextCapability port).isLt
  have hv := Config.vendorId.isLt
  refine ⟨?_, ?_, rfl, rfl, ?_⟩
  · simp only [dvsecWord, BitVec.toNat_ofNat]
    omega
  · simp only [dvsecWord, BitVec.toNat_ofNat]
    omega
  · simp only [dvsecWord]
    cases s.dvsec.pben <;> cases s.dvsec.pblive <;> cases s.dvsec.pberr <;> decide

end Dvsec

/-! ## The mailbox -/

section Mailbox
variable {s : State}

theorem mbwrWrite_of_answers (hio : ioAnswers s = true) (v : Word) :
    exec (.mbwrWrite v) s = .next { s with dvsec := { s.dvsec with mbwr := s.dvsec.mbwr ++ [v] } } := by simp [exec, execMbwrWrite, hio]

theorem mbrdWrite_of_answers (hio : ioAnswers s = true) (v : Word) :
    ∃ t, exec (.mbrdWrite v) s = .next t ∧ t = { s with dvsec := t.dvsec } ∧ t.dvsec.mbrd = s.dvsec.mbrd.drop 1 :=
  ⟨_, by simp only [exec, execMbrdWrite, hio, if_true]; rfl, rfl, rfl⟩

theorem doeAbort_of_answers (hio : ioAnswers s = true) :
    exec .doeAbort s = .next { s with dvsec := { s.dvsec with mbwr := [], mbrd := [], mbstat := 0 } } := by simp [exec, execDoeAbort, hio]

theorem mailObject_of_length {h l : Word} {r : List Word} {t : Nat} (hm : s.dvsec.mbwr = h :: l :: r) (ht : h.toNat % 2 ^ 24 = t)
    (hl : l.toNat % 2 ^ 18 = r.length + 2) : mailObject s.dvsec = some (t, r) := by
  rw [mailObject, hm, ← ht]
  exact if_pos hl

/-- An answer stands in the read mailbox, the write mailbox is empty, and the interrupt is raised where MBCTL enables it (R27). -/
theorem mailAnswer_spec (ws : List Word) :
    mailAnswer s ws = { s with dvsec := (mailAnswer s ws).dvsec, irqs := (mailAnswer s ws).irqs } ∧ (mailAnswer s ws).dvsec.mbwr = []
      ∧ (mailAnswer s ws).irqs = s.irqs ++ (if s.dvsec.mbctl.getLsbD 1 then [Config.mailboxVector.toNat] else [])
      ∧ (mailAnswer s ws).dvsec.mbrd = ws := by
  unfold mailAnswer mailInterrupt
  dsimp only
  split <;> simp

/-- What an event leaves that puts an answer in the mailbox. -/
theorem mailAnswer_of_exec {i : Instr} {u : State} {ws : List Word} (he : exec i s = .next (mailAnswer u ws)) :
    ∃ t, exec i s = .next t ∧ t = { u with dvsec := t.dvsec, irqs := t.irqs } ∧ t.dvsec.mbwr = []
      ∧ t.irqs = u.irqs ++ (if u.dvsec.mbctl.getLsbD 1 then [Config.mailboxVector.toNat] else []) ∧ t.dvsec.mbrd = ws :=
  ⟨_, he, mailAnswer_spec ws⟩

theorem dwordsOf_eq (bs : List Byte) : dwordsOf bs =
    (List.range ((bs.length + 3) / 4)).map (fun k => BitVec.ofNat 32 (littleEndian 4 (fun j => bs.getD (4 * k + j) 0))) := by
  simp only [dwordsOf, fieldAt_eq_littleEndian]

theorem doeDiscovery_of_object {h l x : Word} (hio : ioAnswers s = true) (hm : s.dvsec.mbwr = [h, l, x]) (hh : h.toNat % 2 ^ 24 = 1)
    (hl : l.toNat % 2 ^ 18 = 3) : exec .doeDiscovery s = .next (mailAnswer s (discoveryAnswer (x.toNat % 256))) := by
  simp [exec, execDoeDiscovery, hio, mailObject_of_length hm hh hl, objDiscovery]

theorem discoveryAnswer_of_le {i : Nat} (hi : i ≤ 1) : discoveryAnswer i = [1, 3, if i = 0 then 0x01000001 else 0x00010001] := by
  unfold discoveryAnswer
  split
  · rfl
  · rw [if_pos (by omega)]

theorem spdmDoeRequest_of_object {h l : Word} {r : List Word} (hio : ioAnswers s = true) (hm : s.dvsec.mbwr = h :: l :: r)
    (hh : h.toNat % 2 ^ 24 = 0x010001) (hl : l.toNat % 2 ^ 18 = r.length + 2) :
    let ws := dwordsOf (spdmReply s (draw s).1 (r.flatMap (fun w => bytesOfNat 4 w.toNat)))
    exec .spdmDoeRequest s = .next (mailAnswer (draw s).2 (0x00010001 :: BitVec.ofNat 32 (ws.length + 2) :: ws)) := by
  simp [exec, execSpdmDoeRequest, hio, mailObject_of_length hm hh hl, objSpdm]

/-- A Discovery object of index 0 or 1 is answered (R30). -/
theorem doeDiscovery_answers (hio : ioAnswers s = true) {h l x : Word} (hm : s.dvsec.mbwr = [h, l, x]) (hh : h.toNat % 2 ^ 24 = 1)
    (hl : l.toNat % 2 ^ 18 = 3) (hx : x.toNat % 256 ≤ 1) :
    ∃ t, exec .doeDiscovery s = .next t ∧ t = { s with dvsec := t.dvsec, irqs := t.irqs } ∧ t.dvsec.mbwr = []
      ∧ t.irqs = s.irqs ++ (if s.dvsec.mbctl.getLsbD 1 then [Config.mailboxVector.toNat] else [])
      ∧ t.dvsec.mbrd = [1, 3, if x.toNat % 256 = 0 then 0x01000001 else 0x00010001] := by
  rw [← discoveryAnswer_of_le hx]
  exact mailAnswer_of_exec (doeDiscovery_of_object hio hm hh hl)

/-- An SPDM object is answered with what the responder says to its bytes, as dwords (R30). -/
theorem spdmDoeRequest_answers (hio : ioAnswers s = true) {h l : Word} {r : List Word} (hm : s.dvsec.mbwr = h :: l :: r)
    (hh : h.toNat % 2 ^ 24 = 0x010001) (hl : l.toNat % 2 ^ 18 = r.length + 2) :
    ∃ t k, exec .spdmDoeRequest s = .next t ∧ t = { s with free := t.free, dvsec := t.dvsec, irqs := t.irqs } ∧ t.dvsec.mbwr = []
      ∧ t.irqs = s.irqs ++ (if s.dvsec.mbctl.getLsbD 1 then [Config.mailboxVector.toNat] else [])
      ∧ (let a := spdmReply s k (r.flatMap (fun w => (List.range 4).map (fun j => w.extractLsb' (8 * j) 8)))
         t.dvsec.mbrd = 0x00010001 :: BitVec.ofNat 32 ((a.length + 3) / 4 + 2)
           :: (List.range ((a.length + 3) / 4)).map (fun k => BitVec.ofNat 32 (littleEndian 4 (fun j => a.getD (4 * k + j) 0)))) := by
  obtain ⟨t, he, ht, hw, hi, hr⟩ := mailAnswer_of_exec (spdmDoeRequest_of_object hio hm hh hl)
  refine ⟨t, (draw s).1, he, ?_, hw, hi, ?_⟩
  · rw [ht]
    rfl
  · simpa only [dwordsOf_eq, bytesOfNat_word, List.length_map, List.length_range] using hr

end Mailbox

/-! ## The responder -/

section Responder
variable {s : State}

/-- On the sideband the same responder answers, while the module runs (R83). -/
theorem spdmMctpRequest_of_runs (hr : runs s) (msg : List Byte) :
    ∃ t k, exec (.spdmMctpRequest msg) s = .next t ∧ t = { s with free := t.free, i3c := s.i3c ++ [.spdm (spdmReply s k msg)] } :=
  ⟨_, (draw s).1, by simp only [exec, execSpdmMctpRequest, running_iff.2 hr]; rfl, rfl⟩

theorem certChain_ends : ∃ top, certChain s = top ++ Config.deviceCert (Config.deviceKeys (Config.unitSecret s.cfg.bytes)).1 :=
  ⟨_, (List.append_assoc ..).symm⟩

theorem measurements_eq : measurements s = [(List.range 8).flatMap (fun d => numberBytes 4 (tget 0 s.fwVersion d)),
    (List.range 8).flatMap (fun d => numberBytes 4 (tget 0 s.walkVersion d)), sha384 s.cfg.bytes, numberBytes 2 s.cfg.device.toNat] := by
  simp only [measurements, bytesOfNat_eq_numberBytes]

/-- After its head of eight bytes GET_CERTIFICATE's answer holds the part of the chain that was asked for (R30). -/
theorem drop_certificateReply {a b c : Byte} {r : List Byte} (hr : 4 ≤ r.length) (hb : b.toNat % 16 = 0)
    (ho : fieldAt r 0 2 < (certChain s).length) :
    (certificateReply s (a :: 0x82 :: b :: c :: r)).drop 8 = ((certChain s).drop (fieldAt r 0 2)).take (fieldAt r 2 2) := by
  have hs : fieldAt (a :: 0x82 :: b :: c :: r) 2 1 = b.toNat := by simp [fieldAt, wordOfBytes]
  have hc : ¬ ((a :: 0x82 :: b :: c :: r).length < 8 ∨ fieldAt (a :: 0x82 :: b :: c :: r) 2 1 % 16 ≠ 0 ∨ (certChain s).length ≤ fieldAt r 0 2) := by
    simp only [hs, hb, List.length_cons]
    omega
  unfold certificateReply
  exact (congrArg (List.drop 8) (if_neg hc)).trans (by simp [bytesOfNat]; rfl)

theorem spdmReply_certificate {a b c : Byte} {r : List Byte} {k : Nat} :
    spdmReply s k (a :: 0x82 :: b :: c :: r) = certificateReply s (a :: 0x82 :: b :: c :: r) := rfl

theorem spdmReply_measurements {a b : Byte} {r : List Byte} {k : Nat} :
    spdmReply s k (a :: 0xE0 :: b :: r) = measurementsReply s k (a :: 0xE0 :: b :: r) := rfl

/-- The block of a measurement ends, after seven bytes, in the measurement (R83). -/
theorem measurementBlock_eq {i : Nat} {v : List Byte} (hv : (measurements s)[i - 1]? = some v) :
    ∃ head, head.length = 7 ∧ measurementBlock s i = head ++ v := by
  have h : (measurements s).getD (i - 1) [] = v := by simp [List.getD_eq_getElem?_getD, hv]
  exact ⟨_, by simp [length_bytesOfNat], congrArg (_ ++ ·) h⟩

/-- GET_MEASUREMENTS' answer to an index holds the measurement's block after eight bytes (R30). -/
theorem drop_measurementsReply {i k : Nat} {a b : Byte} {r : List Byte} (hi : 1 ≤ i) (hi' : i ≤ 4) :
    ∃ tail, (measurementsReply s k (a :: 0xE0 :: b :: BitVec.ofNat 8 i :: r)).drop 8 = measurementBlock s i ++ tail := by
  unfold measurementsReply
  extract_lets op signed is record context body
  have hop : op = i := by simp [op, fieldAt, wordOfBytes]; omega
  have hr : record = measurementBlock s i := by
    simp only [record, is, hop]
    rw [if_neg (by omega), if_neg (by omega), List.flatMap_singleton]
  rw [if_neg (by simp [hop]; omega)]
  generalize (if signed then _ else _ : List Byte) = signature
  simp only [body, hr, bytesOfNat, List.append_assoc]
  exact ⟨_, rfl⟩

theorem spdmReply_certificate_part (k : Nat) (a b c : Byte) (r : List Byte) (hr : 4 ≤ r.length) (hb : b.toNat % 16 = 0)
    (ho : littleEndian 2 (fun j => r.getD j 0) < (certChain s).length) :
    (spdmReply s k (a :: 0x82 :: b :: c :: r)).drop 8
      = ((certChain s).drop (littleEndian 2 (fun j => r.getD j 0))).take (littleEndian 2 (fun j => r.getD (2 + j) 0)) := by
  have h0 : fieldAt r 0 2 = littleEndian 2 (fun j => r.getD j 0) := by simp [fieldAt_eq_littleEndian]
  rw [spdmReply_certificate, ← fieldAt_eq_littleEndian, ← h0]
  exact drop_certificateReply hr hb (h0 ▸ ho)

theorem spdmReply_measurement (k i : Nat) (a b : Byte) (r v : List Byte) (hi : 1 ≤ i) (hv : (measurements s)[i - 1]? = some v) :
    ((spdmReply s k (a :: 0xE0 :: b :: BitVec.ofNat 8 i :: r)).drop 15).take v.length = v := by
  have hi' : i - 1 < 4 := (List.getElem?_eq_some_iff.1 hv).1
  obtain ⟨tail, ht⟩ := drop_measurementsReply (s := s) (k := k) (a := a) (b := b) (r := r) hi (by omega)
  obtain ⟨head, hh, hb⟩ := measurementBlock_eq hv
  rw [spdmReply_measurements, show 15 = 8 + head.length by rw [hh], ← List.drop_drop, ht, hb, List.append_assoc, List.drop_left, List.take_left]

end Responder
end Sys2Proof.Laws

namespace Sys2Proof.Laws
open Sys2Proof.Machine Sys2Proof.Safety

/-- Settles O47: the DVSEC and the mailbox while port 0 is up, the links of a module that runs, and a flip of step 0x04. -/
theorem linksDvsecAndMailbox : Obligations.LinksDvsecAndMailbox := by
  refine ⟨fun s hr hl => ?_, fun s hr => ?_, fun s rid m v vs hf => ?_⟩
  · have hio := ioAnswers_iff.2 ⟨hr, hl⟩
    refine ⟨fun hp => ⟨fun hl => pbenSet_of_latchable hio hl hp, fun hl => pbenSet_of_not_latchable hio hl hp, pbenSet_of_linkDown⟩,
      pbenSet_of_pben, pbenClear_of_answers hio, functionLevelReset_of_answers hio, fun v hp => dvsecWrite_of_not_pben hio hp v,
      fun v hp => dvsecWrite_of_pben hp v, dvsecWrite_interrupts hio, dvsecWord_header, mbwrWrite_of_answers hio, mbrdWrite_of_answers hio,
      doeAbort_of_answers hio, fun _ _ _ hm hh hl hx => doeDiscovery_answers hio hm hh hl hx,
      fun _ _ _ hm hh hl => spdmDoeRequest_answers hio hm hh hl, spdmMctpRequest_of_runs hr, certChain_ends, measurements_eq,
      spdmReply_certificate_part, spdmReply_measurement⟩
  · refine ⟨⟨loseLink s 0, linkDown_of_runs hr (by decide), ?_⟩, fun hu e he => ⟨loseLink s 1, ?_, ?_⟩, fun hu => ?_,
      linkRetrain_port0 hr, linkRetrain_port1 hr, fun rid m hl hm hk hs hp => bisnpTimeout_in_use hr hl hm hk hs hp⟩
    · rw [loseLink_port0]
      exact unlatched_linkSettled rfl
    · obtain rfl | rfl : e = .linkDown 1 ∨ e = .port1Reset := by simpa using he
      · exact linkDown_of_runs hr (by decide)
      · exact port1Reset_of_used hr hu
    · rw [loseLink_port1 hu]
      exact unlatched_linkSettled rfl
    · rw [linkDown_of_runs hr (by decide), loseLink_unused hu]
  · have hne : flipping s m false ≠ [] := hf ▸ List.cons_ne_nil v vs
    exact ⟨fun hl hm => hf ▸ biasStep_mishap_ends hne hl hm, fun hl => ⟨_, (biasStep_of_linkDown hne hl).trans (by rw [hf]; rfl)⟩⟩

end Sys2Proof.Laws

namespace Sys2Proof.Laws
open Sys2Proof.Machine Sys2Proof.Safety

/-! ## Fabric operations at their source (R344, R345) -/

section Source
variable {s : State} {op : Nat} {x : FabOp} {w : Window} {refused : Bool}

theorem fabricOpSend_of_payload {s₁ : State} {ps : List (Nat × List Byte)} (hr : runs s) (hx : tfind s.fabOps op = some x)
    (hq : x.phase = .queued) (hk : x.blk.kind ≠ 3) (hh : windowHeld s x.win = false)
    (hp : payloadRows s (x.core / 64) x.ck x.blk x.blk.n1 = (s₁, .inr ps)) :
    exec (.fabricOpSend op) s
      = .next { s₁ with fabOps := tput s₁.fabOps op { x with phase := .sent, selfRefused := false, payload := ps } } := by
  simp [exec, execFabricOpSend, hx, running_iff.2 hr, hq, hk, hh, hp]

theorem fabricOpSend_of_held (hr : runs s) (hx : tfind s.fabOps op = some x) (hq : x.phase = .queued) (hh : windowHeld s x.win = true) :
    exec (.fabricOpSend op) s
      = .next { s with fabOps := tput s.fabOps op { x with phase := .sent, selfRefused := true, payload := [] } } := by
  simp [exec, execFabricOpSend, hx, running_iff.2 hr, hq, hh]

/-- With none settled beyond it, the next number in order moves the issue counter by one (R345). -/
theorem settleOn_next {n : Nat} (hn : n = w.issue + 1) (hs : w.settled = []) : settleOn n false w = { w with issue := w.issue + 1 } := by
  subst hn
  simp [settleOn, settlePrefix, hs]

theorem completeOn_eq {ck tl num : Nat} {holds : Bool} : ∃ tls, completeOn s ck tl num holds = { s with timelines := tls } := by
  cases holds <;> exact ⟨_, rfl⟩

/-- What a settlement changes: the operation leaves, its window takes in its number, and its timeline and the lines that waited for it go on. -/
theorem settle_eq : ∃ tls ab, settle s op x refused
    = { s with fabOps := tdel s.fabOps op, windows := tupd s.windows x.win (settleOn x.num refused), timelines := tls, absent := ab } := by
  unfold settle
  extract_lets u v
  obtain ⟨ab, hu⟩ : ∃ ab, freeLines u x.ck (fabLines x.blk) = { s with windows := tupd s.windows x.win (settleOn x.num refused), absent := ab } :=
    ⟨_, rfl⟩
  obtain ⟨tls, hv⟩ : ∃ tls, v = { freeLines u x.ck (fabLines x.blk) with timelines := tls } := completeOn_eq
  rw [hv, hu]
  exact ⟨tls, ab, rfl⟩

theorem settle_spec (hw : tfind s.windows x.win = some w) :
    tfind (settle s op x refused).fabOps op = none
      ∧ tfind (settle s op x refused).windows x.win = some (settleOn x.num refused w)
      ∧ settle s op x refused = { s with fabOps := (settle s op x refused).fabOps, windows := (settle s op x refused).windows,
                                         timelines := (settle s op x refused).timelines, absent := (settle s op x refused).absent } := by
  obtain ⟨tls, ab, e⟩ := settle_eq (s := s) (op := op) (x := x) (refused := refused)
  rw [e]
  exact ⟨by simp [tfind_tdel], by simp [tfind_tupd, hw], rfl⟩

theorem fabricOpSettle_of_accepted (hr : runs s) (hx : tfind s.fabOps op = some x) (hp : x.phase = .sent) (hs : x.selfRefused = false)
    (hk : x.blk.kind ≠ 3) : exec (.fabricOpSettle op false []) s = .next (settle s op x false) := by
  simp [exec, execFabricOpSettle, hx, running_iff.2 hr, hp, hs, hk]

theorem fabricOp_of_refused (hr : runs s) (hx : tfind s.fabOps op = some x) (hp : x.phase = .sent) :
    ∀ e ∈ [Instr.fabricOpSettle op true [], Instr.fabricPathTimeout op], exec e s = .next (settle s op x true) := by
  intro e he
  obtain rfl | rfl : e = .fabricOpSettle op true [] ∨ e = .fabricPathTimeout op := by simpa using he
  · simp [exec, execFabricOpSettle, hx, running_iff.2 hr, hp]
  · simp [exec, execFabricPathTimeout, hx, running_iff.2 hr, hp]

end Source

/-! ## Fabric operations at their target (R34, R177) -/

section Target
variable {s : State} {win off die ctx va : Nat} {w : Window} {bs : List Byte} {k : Kind} {pl : Place}

@[simp] theorem beyondCaches_walkFill {fab : Bool} : beyondCaches (walkFill s die ctx va k fab).1 = beyondCaches s := by
  unfold walkFill
  split
  · rfl
  · split
    · dsimp only
      split <;> rfl
    · rfl

@[simp] theorem beyondCaches_engineWalk : beyondCaches (engineWalk s die ctx va k).1 = beyondCaches s := by
  unfold engineWalk
  split
  · rfl
  · split
    · rfl
    · exact beyondCaches_walkFill

@[simp] theorem beyondCaches_windowPlaces {ps : List (Nat × Nat)} : beyondCaches (windowPlaces s ctx k ps).1 = beyondCaches s := by
  induction ps generalizing s with
  | nil => rfl
  | cons p r ih =>
    have hw : ∀ {u : State} {a : Walk}, engineWalk s 0 ctx p.1 k = (u, a) → beyondCaches u = beyondCaches s :=
      fun e => by rw [← beyondCaches_engineWalk (s := s), e]
    unfold windowPlaces
    split
    · next u _ _ _ e =>
      split
      · exact hw e
      · have hr := (ih (s := u)).trans (hw e)
        split
        · next e' => rwa [e'] at hr
        · next e' => rwa [e'] at hr
    · next e => exact hw e

/-- An access that does not cross a line is one piece. -/
theorem splitLines_of_line {a n : Nat} (hn : n ≠ 0) (h : a % 128 + n ≤ 128) : splitLines a (n + 1) n = [(a, n)] := by
  obtain ⟨m, rfl⟩ := Nat.exists_eq_succ_of_ne_zero hn
  have hmin : min (m + 1) (128 - a % 128) = m + 1 := by omega
  simp [splitLines, hmin]

/-- A write at the home of a PHASED line of device memory leaves every copy as it is (R161, R175). -/
theorem homeWrite_phased (hmc : pl.mc = 0) (hh : pl.host = false) :
    homeWrite s pl bs = { s with dmem := wrBytes s.dmem pl.pa bs, badDev := (homeWrite s pl bs).badDev,
                                 biasHolders := (homeWrite s pl bs).biasHolders } := by
  simp only [homeWrite, hmc, hh, recallHost, if_true]
  split <;> rfl

/-- A PUT of one row is accepted where its window stands, is not held, is LOCAL, permits it, and covers the row (R34, R39). -/
theorem arrivalOk_put : arrivalOk s w 1 [(off, bs)] 0 = true
    ↔ ¬ (converged s w.rid = false ∨ w.paused = true ∨ w.peer = true ∨ w.perms / 2 % 2 = 0 ∨ w.size < off + bs.length) := by
  simp [arrivalOk, and_assoc]

theorem fabricPut_refused (hr : runs s) (hw : tfind s.windows win = some w)
    (h : converged s w.rid = false ∨ w.paused = true ∨ w.peer = true ∨ w.perms / 2 % 2 = 0 ∨ w.size < off + bs.length) :
    exec (.fabricOpArrival win 1 [(off, bs)] 0 0 0) s = .next { s with hostOut := s.hostOut ++ [.fabric true []] } := by
  have hok : arrivalOk s w 1 [(off, bs)] 0 = false := by rw [← Bool.not_eq_true, arrivalOk_put, Classical.not_not]; exact h
  simp [exec, execFabricOpArrival, running_iff.2 hr, hw, hok]

theorem fabricPut_accepted {s₁ : State} (hr : runs s) (hw : tfind s.windows win = some w) (hok : arrivalOk s w 1 [(off, bs)] 0 = true)
    (hb : bs ≠ []) (hline : (w.va + off) % 128 + bs.length ≤ 128)
    (hp : windowPlaces s w.ctx .write [(w.va + off, bs.length)] = (s₁, some [(pl, bs.length)])) :
    exec (.fabricOpArrival win 1 [(off, bs)] 0 0 0) s
      = .next (updWindow { homeWrite s₁ pl bs with hostOut := (homeWrite s₁ pl bs).hostOut ++ [.fabric false []] } win
          (fun w => { w with arrival := w.arrival + 1 })) := by
  have hpieces : arrivalPieces w [(off, bs)] = [(w.va + off, bs.length)] := by
    simp [arrivalPieces, splitLines_of_line (mt List.length_eq_zero_iff.1 hb) hline]
  simp [exec, execFabricOpArrival, running_iff.2 hr, hw, hok, hpieces, hp, writePlaces]

/-- A PUT to a PHASED line of device memory that its window permits is written at the home, acknowledged and counted. -/
theorem fabricPut_written {s₁ : State} (hr : runs s) (hw : tfind s.windows win = some w) (hok : arrivalOk s w 1 [(off, bs)] 0 = true)
    (hb : bs ≠ []) (hline : (w.va + off) % 128 + bs.length ≤ 128)
    (hp : windowPlaces s w.ctx .write [(w.va + off, bs.length)] = (s₁, some [(pl, bs.length)])) (hmc : pl.mc = 0) (hh : pl.host = false) :
    ∃ t, exec (.fabricOpArrival win 1 [(off, bs)] 0 0 0) s = .next t
      ∧ t = { s₁ with dmem := t.dmem, badDev := t.badDev, biasHolders := t.biasHolders, windows := t.windows,
                      hostOut := s₁.hostOut ++ [.fabric false []] }
      ∧ tfind t.windows win = some { w with arrival := w.arrival + 1 }
      ∧ ∀ a, rd8 t.dmem a = if pl.pa ≤ a ∧ a < pl.pa + bs.length then bs.getD (a - pl.pa) 0 else rd8 s₁.dmem a := by
  have hwin : s₁.windows = s.windows := by
    have h := beyondCaches_windowPlaces (s := s) (ctx := w.ctx) (k := .write) (ps := [(w.va + off, bs.length)])
    rw [hp] at h
    exact eq_of_beyondCaches (g := fun u => u.windows) (fun _ => rfl) h
  refine ⟨_, fabricPut_accepted hr hw hok hb hline hp, ?_⟩
  rw [homeWrite_phased hmc hh]
  exact ⟨rfl, by simp [updWindow, tfind_tupd, hwin, hw], rd8_wrBytes s₁.dmem pl.pa bs⟩

end Target

/-! ## Gratric ports (R31 to R33) -/

section Ports
variable {s : State} {id j p : Nat}

/-- The dies that a FIRMWARE record names. -/
def namedDies (s : State) (id : Nat) : List Nat := (List.range 8).filter (fun d => fwDies (wantOf s id) / 2 ^ d % 2 == 1)

/-- The mark of a FIRMWARE record that counts the ports in service on the dies that it names (R32; log 56, DESIGN CHOICE). -/
def portCount (s : State) (id : Nat) : Mark :=
  ⟨.converged, 3, 0,
    (((namedDies s id).flatMap (fun d => (List.range 18).map (· + 18 * d))).filter (fun q => portAt s q == .inService)).length,
    18 * (namedDies s id).length, recVersion (wantOf s id), recWriter (wantOf s id)⟩

/-- What a FIRMWARE mark leaves as it is: the ports that it counts, the fabric operations, and what each record is to become. -/
def portsAndWants (s : State) : Table Port × Table FabOp × (Nat → Rec) := (s.ports, s.fabOps, wantOf s)

theorem portCount_of_portsAndWants {t : State} (h : portsAndWants t = portsAndWants s) : portCount t id = portCount s id := by
  obtain ⟨hp, -, hw⟩ : t.ports = s.ports ∧ t.fabOps = s.fabOps ∧ wantOf t = wantOf s := by simpa [portsAndWants] using h
  simp only [portCount, namedDies, portAt, hp, hw]

theorem portsAndWants_putMark {m : Mark} : portsAndWants (putMark s id m) = portsAndWants s := by
  unfold putMark
  extract_lets sq s₁
  have h₁ : portsAndWants s₁ = portsAndWants s := eq_of_beyondCaches (fun _ => rfl) beyondCaches_recallHost
  exact h₁

theorem portsAndWants_setEntry {e : Entry} (h : e.want = (entryAt s id).want) : portsAndWants (setEntry s id e) = portsAndWants s := by
  refine Prod.ext rfl (Prod.ext rfl (funext fun i => ?_))
  by_cases hi : id = i
  · subst hi
    simp [portsAndWants, wantOf, h]
  · simp [portsAndWants, wantOf, entryAt, setEntry, tget_tput, hi]

theorem portsAndWants_portMark : portsAndWants (portMark s id) = portsAndWants s := by
  unfold portMark markAs writeMark
  extract_lets ds up w e aside still fin s₁
  have h₁ : portsAndWants s₁ = portsAndWants s := portsAndWants_setEntry rfl
  split
  · exact h₁
  · exact portsAndWants_putMark.trans h₁

theorem stand_portMark : (entryAt (portMark s id) j).stand = if id = j then portCount s id else (entryAt s j).stand := by
  unfold portMark markAs writeMark
  extract_lets ds up w e aside still fin s₁
  have h₁ : (entryAt s₁ j).stand = if id = j then portCount s id else (entryAt s j).stand := by
    simp only [s₁, entryAt, setEntry, tget_tput]
    split <;> rfl
  split
  · exact h₁
  · rw [entryAt_putMark, h₁]

theorem portsAndWants_portMarks {ids : List Nat} : portsAndWants (ids.foldl portMark s) = portsAndWants s :=
  foldl_unchanged (f := portMark) (fun _ _ => portsAndWants_portMark) ids s

/-- Every record of the list then stands in its count, however often it is listed. -/
theorem stand_portMarks {ids : List Nat} (h : j ∈ ids ∨ (entryAt s j).stand = portCount s j) :
    (entryAt (ids.foldl portMark s) j).stand = portCount s j := by
  induction ids generalizing s with
  | nil => exact h.resolve_left List.not_mem_nil
  | cons id r ih =>
    have hc : portCount (portMark s id) j = portCount s j := portCount_of_portsAndWants portsAndWants_portMark
    refine (ih ?_).trans hc
    rw [hc, stand_portMark]
    by_cases hj : id = j
    · exact .inr (by rw [if_pos hj, hj])
    · rw [if_neg hj]
      exact h.imp_left fun hm => (List.mem_cons.1 hm).resolve_left (Ne.symm hj)

theorem gratricPortFail_of_inService (hr : runs s) (hp : p < 144) (hs : tget .untrained s.ports p = .inService) :
    exec (.gratricPortFail p) s = .next ((dieRecords s (p / 18)).foldl portMark { s with ports := tput s.ports p .failed }) := by
  simp [exec, execGratricPortFail, running_iff.2 hr, hp, portAt, hs]

/-- The FIRMWARE records of the die then count the ports in service without the one that failed, which no fabric operation sees. -/
theorem portMarks_of_failed {t : State} (ht : t = (dieRecords s (p / 18)).foldl portMark { s with ports := tput s.ports p .failed }) :
    t.ports = tput s.ports p .failed ∧ t.fabOps = s.fabOps
      ∧ ∀ id ∈ dieRecords s (p / 18), (entryAt t id).stand = portCount { s with ports := t.ports } id := by
  subst ht
  have h := portsAndWants_portMarks (s := { s with ports := tput s.ports p .failed }) (ids := dieRecords s (p / 18))
  obtain ⟨hports, hops, -⟩ := by simpa only [portsAndWants, Prod.mk.injEq] using h
  exact ⟨hports, hops, fun id hid => by rw [stand_portMarks (.inl hid), hports]⟩

theorem gratricPortTrain_of_untrained (hr : runs s) (hp : p < 144) (hs : tget .untrained s.ports p = .untrained) (hd : s.duplicate = false) :
    exec (.gratricPortTrain p) s = .next { s with ports := tput s.ports p .inService } := by
  simp [exec, execGratricPortTrain, running_iff.2 hr, hp, portAt, hs, conflicted, hd]

theorem deviceNumberConflict_of_runs (hr : runs s) (hd : s.duplicate = false) :
    exec .deviceNumberConflict s = .next { s with ports := [], duplicate := true, i3c := s.i3c ++ [.duplicateDevice] } := by
  simp [exec, execDeviceNumberConflict, running_iff.2 hr, conflicted, hd]

end Ports

/-- Settles O56: an operation at its source, by the equations of its send and its settlement; a PUT at its target; and the ports. -/
theorem fabricOperationsTravel : Obligations.FabricOperationsTravel := by
  refine ⟨fun s op x hr hx => ⟨fun s₁ ps hq hk hh hp => ⟨_, fabricOpSend_of_payload hr hx hq hk hh hp, rfl⟩, fabricOpSend_of_held hr hx, ?_⟩,
    fun s win off w bs hr hw => ⟨fabricPut_refused hr hw, ?_⟩, fun s p hr hp => ⟨fun hs => ?_, gratricPortTrain_of_untrained hr hp,
      deviceNumberConflict_of_runs hr, rfl⟩⟩
  · intro w hp hw
    refine ⟨fun hs hk hn hse => ?_, fun e he => ?_⟩
    · obtain ⟨hop, hwin, hrest⟩ := settle_spec (op := op) (refused := false) hw
      exact ⟨_, fabricOpSettle_of_accepted hr hx hp hs hk, hop, hwin.trans (congrArg some (settleOn_next hn hse)), hrest⟩
    · obtain ⟨hop, hwin, hrest⟩ := settle_spec (op := op) (refused := true) hw
      exact ⟨_, _, fabricOp_of_refused hr hx hp e he, hop, hwin, rfl, hrest⟩
  · intro s₁ pl hc hpa hpe hpr hsz hb hline hpl hmc hh
    exact fabricPut_written hr hw (arrivalOk_put.2 (by simp [hc, hpa, hpe, hpr, hsz])) hb hline hpl hmc hh
  · obtain ⟨hports, hops, hmarks⟩ := portMarks_of_failed (s := s) (p := p) rfl
    refine ⟨_, gratricPortFail_of_inService hr hp hs, hports, hops, fun hd => by rw [hd]; rfl, fun id hid => ?_⟩
    simp only [hmarks id hid]
    exact ⟨rfl, rfl, rfl⟩

/-! ## The host's accesses (R25, R59) -/

/-- Refutes O48. A playbill of no records has no line, but the model counts a write that straddles its base as one of line 0: `touchedLines` ends at
line `2 * k - 1` of natural numbers, which for `k = 0` is 0. A filter that holds line 0 then flags record 0, where `Watched` asks that nothing
change. PBEN_SET latches no such playbill (R28), but the statement asks nothing of the playbill of its state. -/
theorem not_hostAccesses : ¬ Obligations.HostAccesses := by
  unfold Obligations.HostAccesses
  intro h
  let s : State := { State.reset with playbill := some (0x1000, 0), watch := [(0, [0])] }
  obtain ⟨-, -, hsnoop, -⟩ := (h s).2 ⟨rfl, rfl⟩ rfl
  obtain ⟨t, ht, -, -, -, hquiet, -⟩ := hsnoop 0xFFF [1, 2] (.inl (by decide)) (by decide)
  have hdev : ¬ playbillInDevice s := by
    rintro ⟨b, k, hb, hlo, -⟩
    cases hb
    exact absurd hlo (by decide)
  have hnone : ∀ x, ¬ touches s 0xFFF [1, 2].length x := by
    rintro x ⟨b, k, hb, hx, -⟩
    cases hb
    exact Nat.not_lt_zero x hx
  have hflagged : ∃ u, exec (.hostSnoop 0xFFF [1, 2]) s = .next u ∧ u.flags = [0] := ⟨_, rfl, rfl⟩
  obtain ⟨u, hu, hflags⟩ := hflagged
  cases ht.symm.trans hu
  rw [(hquiet hdev fun x hx => absurd hx (hnone x)).1] at hflags
  exact absurd hflags (by decide)

end Sys2Proof.Laws
